-- ==== Sys2Proof/Word.lean ====
section
/-! DEFINITION. The word types of the device (R13, R14). -/

namespace Sys2Proof

/-- A byte of memory. -/
abbrev Byte := BitVec 8

/-- A register of a page (R14), and an FP32 value inside a datapath (R71). -/
abbrev Word := BitVec 32

/-- A doubleword: a hart register, a staging doubleword, a vector word, a token payload. -/
abbrev Dword := BitVec 64

end Sys2Proof
end

