-- ==== Sys2Proof/Syntax.lean ====
section
/-! DEFINITION. The commands of the device (spec/opcode_table.json) and the types of their operands. -/

namespace Sys2Proof

/-- Who makes a register access (R489): a hart (of the context it is bound to; a hart of context 0 is the warden),
virtual function n (which serves context n, R499), or the physical function. Harts 0 to 255 are the saltern harts,
(die × 16 + core) × 2 + hart; 256 and 257 are the hart of warden core 0 and of warden core 1. -/
inductive Acc where
  | hart (h : Nat)
  | vf (n : Nat)
  | host
  deriving DecidableEq, Repr

/-- What the error-correcting code finds in the granule that an access reads (R233, R234). -/
inductive Ecc where
  | clean
  | corrected
  | uncorrectable (bits : Nat)
  deriving DecidableEq, Repr

/-- Who waits in Mladaz (R277): a hart in ZSYNC, a vector unit in VWAIT, the head descriptor of a queue, a pan on credit. -/
inductive Waiter where
  | hart (h : Nat)
  | vec (bay : Nat)
  | head (engine queue : Nat)
  | pan (bay operand : Nat)
  deriving DecidableEq, Repr

/-- What one side of a link brings to the agreement of R300: the digest D and the five group digests. -/
structure Digest where
  d : BitVec 384
  groups : List (BitVec 384)
  deriving DecidableEq, Repr

/-- An Ethernet frame at a MAC (R323): its bytes from the destination address to the FCS as they stand on the wire, and how many ticks
ago its first byte reached the MAC (R419). -/
structure Frame where
  wire : List (BitVec 8)
  lag : Nat
  deriving DecidableEq, Repr

/-- An Ouvvos token (R347). -/
structure Token where
  payload : BitVec 64
  epoch : BitVec 2
  ctrl : Bool
  last : Bool
  deriving DecidableEq, Repr

/-- A data object at a DOE instance (R501, R452): the start of an owner session that authenticates, a session message that
fails authentication, or a Palquel message of a code, object size and body length, which may come outside any session. -/
inductive DoeMsg where
  | sessionStart (ownerOk : Bool)
  | badAuth
  | spdm (size : Nat)
  | palquel (code size : Nat) (good inSession : Bool)
  deriving DecidableEq, Repr

/-- An item of CTX_SET (R503), kinds 1 to 8. -/
inductive SetItem where
  | region (idx : Nat) (base limit : BitVec 52) (attr : BitVec 6)
  | syncMap (cls idx : Nat) (entry : BitVec 32)
  | quota (saltern quota : Nat)
  | hart (core hart : Nat)
  | queue (engine queue : Nat)
  | sealTab (addr : BitVec 52)
  | sealKey (keySel : Nat) (slots : BitVec 4)
  | grant (engine queue core hart count : Nat)
  deriving DecidableEq, Repr

/-- A KEY_INSTALL message (R453, R503): an owner transport key with its SEALER value, or a MACsec CAK for a MAC. -/
inductive KeyMsg where
  | otk (slot : Nat) (key : BitVec 256) (sealer : BitVec 32)
  | cak (mac : Nat) (ckn : List Byte) (key : BitVec 256)
  deriving DecidableEq, Repr

/-- An item of JOB_SET (R503): a table entry window, a link binding, a job seed, or ADMIT. -/
inductive JobItem where
  | entry (slot table idx : Nat) (w0 w1 w2 w3 : BitVec 32)
  | bind (link slot : Nat) (valid : Bool)
  | seed (slot : Nat) (seed : BitVec 64)
  | admission (slot : Nat)
  deriving DecidableEq, Repr

/-- Where the warden takes an entry for EVENT_RELAY (R538). -/
inductive RelaySrc where
  | sal (die : Nat)
  | sync
  | ovs (fabric : Nat)
  | errLog
  | svc (bit : Nat)
  deriving DecidableEq, Repr

/-- The commands: one constructor for each row of spec/opcode_table.json, in the table's order. -/
inductive Instr where
  /-- ZSTG (R41): A hart writes one doubleword of its 64-byte staging buffer. -/
  | zstg (h : Nat) (rd : Nat) (rs1 : BitVec 64) (imm : BitVec 12)
  /-- ZPUSH (R44): A hart pushes its staging buffer to a named queue, takes a tag and blocks if no grant entry or tag is free. -/
  | zpush (h : Nat) (rd : Nat) (rs1 : BitVec 64)
  /-- ZTPUSH (R43): A hart pushes its staging buffer, or is refused with REFUSED set when no entry or tag is free. -/
  | ztpush (h : Nat) (rd : Nat) (rs1 : BitVec 64)
  /-- ZPUSHM (R41): A hart pushes the aligned 64-byte descriptor held at a core-memory address and blocks if needed. -/
  | zpushm (h : Nat) (rd : Nat) (rs1 rs2 : BitVec 64)
  /-- PUSH_UNBLOCK (R44): A blocked ZPUSH or ZPUSHM is accepted once both a grant entry and a tag have become free. -/
  | pushUnblock (h : Nat)
  /-- ZVEC (R47): A hart appends a vector word to the open block of a bay, opening the block if none is open. -/
  | zvec (h : Nat) (rd : Nat) (rs1 rs2 : BitVec 64)
  /-- ZVEND (R47): A hart closes the open vector block of a bay with a trailer and receives its tag. -/
  | zvend (h : Nat) (rd : Nat) (rs1 rs2 : BitVec 64)
  /-- ZSUM (R68): A hart reads one item of the summary of the latest completed vector block of its context on a bay. -/
  | zsum (h : Nat) (rd : Nat) (rs1 rs2 : BitVec 64)
  /-- ZCWAIT (R41): A hart blocks until the completion record of a given tag is in its ring. -/
  | zcwait (h : Nat) (rd : Nat) (rs1 : BitVec 64)
  /-- ZCNEXT (R41): A hart blocks until the record at its ring head is valid. -/
  | zcnext (h : Nat) (rd : Nat)
  /-- ZCACK (R58): A hart consumes records from its ring head, advancing the head and freeing their tags. -/
  | zcack (h : Nat) (rs1 : BitVec 64)
  /-- ZEACK (R66): A hart requests the end of the abort, setting ACK_PENDING and blocking, or returns CTX_EPOCH if the context is not aborted. -/
  | zeack (h : Nat) (rd : Nat)
  /-- EPOCH_INCREMENT (R66): Once no operation of an aborted context is queued or running, CTX_EPOCH increments, ACK_PENDING clears and the context returns to RUN. -/
  | epochIncrement (ctx : Nat)
  /-- HART_LOAD_STORE (R227): A hart load or store outside core memory is checked against the context's rights and carried out or faulted. -/
  | hartLoadStore (h : Nat) (rd : Nat) (addr size : Nat) (store : Option (BitVec 64)) (ecc : Ecc)
  /-- FSET (R258): ZSYNC sets a flag, releasing waiters or counting an absorbed set. -/
  | fset (h : Nat) (rd : Nat) (rs1 rs2 : BitVec 64)
  /-- FCLR (R258): ZSYNC clears a flag and returns its previous value. -/
  | fclr (h : Nat) (rd : Nat) (rs1 rs2 : BitVec 64)
  /-- FTEST (R254): ZSYNC returns the current value of a flag. -/
  | ftest (h : Nat) (rd : Nat) (rs1 rs2 : BitVec 64)
  /-- FTESTC (R254): ZSYNC returns a flag's value and clears it if it was set. -/
  | ftestc (h : Nat) (rd : Nat) (rs1 rs2 : BitVec 64)
  /-- FWAIT (R259): ZSYNC waits until a flag is set. -/
  | fwait (h : Nat) (rd : Nat) (rs1 rs2 : BitVec 64)
  /-- FWAITC (R259): ZSYNC waits until a flag is set and clears it atomically on return. -/
  | fwaitc (h : Nat) (rd : Nat) (rs1 rs2 : BitVec 64)
  /-- BCONF (R262): ZSYNC configures a barrier from a core-memory block, discarding arrivals and ending waits with SYNC_RECONF. -/
  | bconf (h : Nat) (rd : Nat) (rs1 rs2 : BitVec 64)
  /-- BARR (R264): ZSYNC records an arrival of the hart's control core at a barrier. -/
  | barr (h : Nat) (rd : Nat) (rs1 rs2 : BitVec 64)
  /-- BWAIT (R267): ZSYNC waits until a given barrier generation is released. -/
  | bwait (h : Nat) (rd : Nat) (rs1 rs2 : BitVec 64)
  /-- BARRW (R267): ZSYNC arrives at a barrier and waits for the generation it arrived for. -/
  | barrw (h : Nat) (rd : Nat) (rs1 rs2 : BitVec 64)
  /-- BSTAT (R254): ZSYNC returns a barrier's generation and arrival count. -/
  | bstat (h : Nat) (rd : Nat) (rs1 rs2 : BitVec 64)
  /-- CCONF (R268): ZSYNC sets a credit channel's CAPACITY and resets its counts, ending waits with SYNC_RECONF. -/
  | cconf (h : Nat) (rd : Nat) (rs1 rs2 : BitVec 64)
  /-- CPROD (R269): ZSYNC produces credits on a channel after the range check, releasing covered waiters. -/
  | cprod (h : Nat) (rd : Nat) (rs1 rs2 : BitVec 64)
  /-- CCONS (R269): ZSYNC consumes credits from a channel after the range check. -/
  | ccons (h : Nat) (rd : Nat) (rs1 rs2 : BitVec 64)
  /-- CWAIT (R270): ZSYNC waits until a channel's difference reaches n without consuming. -/
  | cwait (h : Nat) (rd : Nat) (rs1 rs2 : BitVec 64)
  /-- CWAITC (R270): ZSYNC waits in arrival order until the difference reaches n and consumes n atomically. -/
  | cwaitc (h : Nat) (rd : Nat) (rs1 rs2 : BitVec 64)
  /-- CREAD (R254): ZSYNC returns a credit channel's difference. -/
  | cread (h : Nat) (rd : Nat) (rs1 rs2 : BitVec 64)
  /-- WAIT_TIMEOUT (R277): A Mladaz wait, VWAIT, WAIT_EN head descriptor or pan credit wait reaches its timeout and ends with SYNC_TIMEOUT. -/
  | waitTimeout (w : Waiter)
  /-- DL_DIE_REPORT (R278): Every microsecond each home reports per context whether all its engines and harts on the die are quiet. -/
  | dlDieReport (die ctx : Nat)
  /-- DEADLOCK (R279): A context quiet on all dies for the detection window is declared stopped and DEADLOCK or STALL is posted. -/
  | deadlock (ctx : Nat)
  /-- PWR_LEND_START (R282): After a die's bays of a context have been idle or waiting past PWR_LEND_THRESH the die lends their power share. -/
  | pwrLendStart (die ctx : Nat)
  /-- SYNC_MAP_WRITE (R252): The warden writes a translation entry through SYNC_MAP_ENT, which is checked and copied to all nine dies. -/
  | syncMapWrite (a : Acc) (v : BitVec 32)
  /-- SNAP (R283): A write of SNAP captures every field of a Mladaz object into the debug view in one home cycle. -/
  | snap (a : Acc) (v : BitVec 32)
  /-- SYNC_EVQ_READ (R286): A warden read of SYNC_EVQ_LO removes the head event and captures its fields. -/
  | syncEvqRead (a : Acc)
  /-- DESC_HEAD (R52): A descriptor becomes head of its queue and is checked and its sync identifiers translated. -/
  | descHead (engine queue : Nat)
  /-- DESC_START (R52): A head descriptor whose fence and wait are satisfied starts at its queue's turn and returns its grant entry. -/
  | descStart (engine queue : Nat)
  /-- OP_COMPLETE (R53): When every write of an operation is acknowledged the device stamps and writes its completion record and then raises its signal. -/
  | opComplete (engine unit : Nat)
  /-- OP_BOUNDARY_STOP (R65): A running operation of an aborted, fenced or released context stops at its next internal boundary and completes with the matching code. -/
  | opBoundaryStop (engine unit : Nat)
  /-- PNOP (R105): A pan descriptor with no arithmetic waits, signals and writes its record. -/
  | pnop (bay : Nat)
  /-- PMM (R111): A pan computes an output block D = A × B (+ E) over K reduction steps. -/
  | pmm (bay : Nat)
  /-- PMM_GATHER (R134): A pan computes a block product whose A rows are gathered from a token buffer by an index list. -/
  | pmmGather (bay : Nat)
  /-- PAN_SLOT_READY (R118): A streamed tile starts once its credit channel's difference exceeds the slots the pan still holds. -/
  | panSlotReady (bay : Nat)
  /-- PAN_TILE_START (R120): At a tile start the pan checkpoints its accumulators and requests crust scales for its quantised-on-load operands. -/
  | panTileStart (bay : Nat)
  /-- PAN_TILE_END (R127): When the last column of a tile is quantised the pan evaluates saturation, capacity and non-finite events for replay or late fall-back. -/
  | panTileEnd (bay : Nat)
  /-- PAN_REPLAY (R126): With corrected scales received the pan restores the checkpoint and reruns the tile. -/
  | panReplay (bay : Nat)
  /-- BITTERN_WORK (R125): The vector unit adds the products of each diverted outlier into the bittern accumulator. -/
  | bitternWork (bay : Nat)
  /-- PAN_OUTPUT (R131): After the reduction the pan adds bittern and addend terms and converts and writes D. -/
  | panOutput (bay : Nat)
  /-- OUT_RECONVERTED (R131): On receiving corrected D scales after output saturation the pan converts the whole block again. -/
  | outReconverted (bay : Nat)
  /-- PAN_SAL_TIMEOUT (R129): A pan scale request unanswered for 10 µs stops the operation with PAN_SAL_TIMEOUT. -/
  | panSalTimeout (bay : Nat)
  /-- MEM_RESIDENCY (R230): A pan whose guarded source was written stops at its next 128-step boundary and completes with MEM_RESIDENCY. -/
  | memResidency (bay : Nat)
  /-- SAL_SCALE_REQUEST (R146): A salinometer home serves a scale request, acting on its step difference. -/
  | salScaleRequest (die : Nat)
  /-- SAL_FETCH_DONE (R145): A non-home salinometer receives the fetched entry and serves the waiting tile. -/
  | salFetchDone (die : Nat)
  /-- SAL_OBSERVATION (R150): An observation of a tile's amax and flake counts reaches the home and joins its step. -/
  | salObservation (die : Nat)
  /-- SAL_CORRECTION (R152): The local salinometer answers a saturated crust report with a corrected crust scale. -/
  | salCorrection (die : Nat)
  /-- LOOKUP (R163): SAL_CMD LOOKUP loads the window and counters of a home entry. -/
  | lookup (a : Acc) (die : Nat) (v : BitVec 32)
  /-- STAGE (R163): SAL_CMD STAGE stages entry settings for the next close. -/
  | salStage (a : Acc) (die : Nat) (v : BitVec 32)
  /-- INVALIDATE (R163): SAL_CMD INVALIDATE empties the history at the next close. -/
  | invalidate (a : Acc) (die : Nat) (v : BitVec 32)
  /-- CLEAR_RUNG (R163): SAL_CMD CLEAR_RUNG resets rung and runs at the next close. -/
  | clearRung (a : Acc) (die : Nat) (v : BitVec 32)
  /-- FREE (R163): SAL_CMD FREE removes a home entry at once. -/
  | salFree (a : Acc) (die : Nat) (v : BitVec 32)
  /-- SAL_EXPORT (R164): A transfer with DIR 0 closes and writes every home entry of the context to a block in memory. -/
  | salExport (a : Acc) (die : Nat) (v : BitVec 32)
  /-- SAL_IMPORT (R165): A transfer with DIR 1 checks the header, frees the context's entries and loads records, skipping invalid ones. -/
  | salImport (a : Acc) (die : Nat) (v : BitVec 32)
  /-- XFER_DONE (R164): A salinometer transfer finishes, setting its state and signalling SIG_ID if enabled. -/
  | xferDone (die : Nat)
  /-- SAL_EVQ_READ (R161): A warden read of SAL_EVQ_LO removes the head tensor event and captures its fields. -/
  | salEvqRead (a : Acc) (die : Nat)
  /-- COUNTER_LO_READ (R141): A read of a 48-bit counter's LO register returns its low bits, captures the high bits and clears it. -/
  | counterLoRead (a : Acc) (page off : Nat)
  /-- VNOP (R178): A vector word that does nothing. -/
  | vnop (bay : Nat)
  /-- VSHAPE (R170): A vector word sets the active rows and columns. -/
  | vshape (bay : Nat)
  /-- VSETX (R191): A vector word writes a field of a slot. -/
  | vsetx (bay : Nat)
  /-- VWAIT (R197): A vector word holds issue until a flag satisfies its mode. -/
  | vwait (bay : Nat)
  /-- VSIG (R198): A vector word raises a signal after the block's earlier writes are acknowledged. -/
  | vsig (bay : Nat)
  /-- VSUMM (R201): A vector word reduces selected lanes into the block summary. -/
  | vsumm (bay : Nat)
  /-- VSETP (R199): A vector word writes an optimizer parameter. -/
  | vsetp (bay : Nat)
  /-- VADD (R179): A vector word adds two tile registers. -/
  | vadd (bay : Nat)
  /-- VSUB (R179): A vector word subtracts two tile registers. -/
  | vsub (bay : Nat)
  /-- VMUL (R179): A vector word multiplies two tile registers. -/
  | vmul (bay : Nat)
  /-- VFMA (R179): A vector word computes a fused multiply-add. -/
  | vfma (bay : Nat)
  /-- VMAX (R179): A vector word takes the larger of two registers. -/
  | vmax (bay : Nat)
  /-- VMIN (R179): A vector word takes the smaller of two registers. -/
  | vmin (bay : Nat)
  /-- VABS (R179): A vector word takes absolute values. -/
  | vabs (bay : Nat)
  /-- VNEG (R179): A vector word negates a register. -/
  | vneg (bay : Nat)
  /-- VSEL (R176): A vector word selects between two registers by mask. -/
  | vsel (bay : Nat)
  /-- VMOVI (R178): A vector word writes an immediate into lanes. -/
  | vmovi (bay : Nat)
  /-- VMOV (R178): A vector word copies a register. -/
  | vmov (bay : Nat)
  /-- VSFN (R181): A vector word computes a special function. -/
  | vsfn (bay : Nat)
  /-- VIADD (R180): A vector word adds integers modulo 2^32. -/
  | viadd (bay : Nat)
  /-- VISUB (R180): A vector word subtracts integers modulo 2^32. -/
  | visub (bay : Nat)
  /-- VIMUL (R180): A vector word multiplies integers keeping the low 32 bits. -/
  | vimul (bay : Nat)
  /-- VIAND (R180): A vector word computes bitwise AND. -/
  | viand (bay : Nat)
  /-- VIOR (R180): A vector word computes bitwise OR. -/
  | vior (bay : Nat)
  /-- VIXOR (R180): A vector word computes bitwise XOR. -/
  | vixor (bay : Nat)
  /-- VISHL (R180): A vector word shifts integers left. -/
  | vishl (bay : Nat)
  /-- VISHR (R180): A vector word shifts integers right with zero fill. -/
  | vishr (bay : Nat)
  /-- VIOTA (R178): A vector word writes lane indices plus an immediate. -/
  | viota (bay : Nat)
  /-- VI2F (R180): A vector word converts signed integers to FP32. -/
  | vi2f (bay : Nat)
  /-- VF2I (R180): A vector word converts FP32 to saturated signed integers. -/
  | vf2i (bay : Nat)
  /-- VCMP (R183): A vector word writes a mask from a comparison. -/
  | vcmp (bay : Nat)
  /-- VMOP (R184): A vector word combines masks. -/
  | vmop (bay : Nat)
  /-- VMTRI (R184): A vector word writes a triangular mask. -/
  | vmtri (bay : Nat)
  /-- VMFROM (R184): A vector word writes a mask of non-zero lanes. -/
  | vmfrom (bay : Nat)
  /-- VPERMR (R185): A vector word permutes within rows. -/
  | vpermr (bay : Nat)
  /-- VPERMC (R185): A vector word permutes within columns. -/
  | vpermc (bay : Nat)
  /-- VTRANS (R185): A vector word transposes a tile. -/
  | vtrans (bay : Nat)
  /-- VROTC (R185): A vector word rotates columns. -/
  | vrotc (bay : Nat)
  /-- VBCR (R185): A vector word broadcasts a row. -/
  | vbcr (bay : Nat)
  /-- VBCC (R185): A vector word broadcasts a column. -/
  | vbcc (bay : Nat)
  /-- VREDR (R186): A vector word reduces each row through the rake. -/
  | vredr (bay : Nat)
  /-- VREDC (R186): A vector word reduces each column through the rake. -/
  | vredc (bay : Nat)
  /-- VREDF (R186): A vector word reduces the whole tile through the rake. -/
  | vredf (bay : Nat)
  /-- VSCAN (R187): A vector word scans along rows or columns with carry. -/
  | vscan (bay : Nat)
  /-- VSMX (R189): A vector word computes a row softmax and optionally its row state. -/
  | vsmx (bay : Nat)
  /-- VADAM (R200): A vector word performs the optimizer update in place. -/
  | vadam (bay : Nat)
  /-- VLD (R193): A vector word loads a dense tile from the slice. -/
  | vld (bay : Nat)
  /-- VST (R193): A vector word converts and stores a dense tile. -/
  | vst (bay : Nat)
  /-- VLDQ (R194): A vector word loads and decodes a quantised tile. -/
  | vldq (bay : Nat)
  /-- VSTQ (R195): A vector word requests a crust scale to quantise and store a whole crust. -/
  | vstq (bay : Nat)
  /-- VSTQ_SCALE_ANSWER (R195): On receiving its crust scale VSTQ quantises and writes the crust and makes an observation. -/
  | vstqScaleAnswer (bay : Nat)
  /-- VEC_SAL_TIMEOUT (R195): A VSTQ scale request unanswered for 10 µs stops the block. -/
  | vecSalTimeout (bay : Nat)
  /-- VMLD (R196): A vector word loads a mask register from the slice. -/
  | vmld (bay : Nat)
  /-- VMST (R196): A vector word stores a mask register to the slice. -/
  | vmst (bay : Nat)
  /-- DNOP (R242): A DMA descriptor that moves nothing but may signal locally and remotely. -/
  | dnop (engine : Nat)
  /-- DMOVE (R245): A DMA engine moves and optionally converts, seals or opens a matrix between stores. -/
  | dmove (engine : Nat) (srcErr : Ecc) (errAt : Nat) (crcBad : Option Nat)
  /-- DFILL (R245): A DMA engine fills destination rows with a 32-bit pattern. -/
  | dfill (engine : Nat)
  /-- CREDSCAT (R313): A ring reduce-scatter collective. -/
  | credscat (engine : Nat)
  /-- CALLGATH (R310): A ring all-gather collective. -/
  | callgath (engine : Nat)
  /-- CALLRED (R316): A ring all-reduce collective. -/
  | callred (engine : Nat)
  /-- CBCAST (R310): A ring broadcast from position 0. -/
  | cbcast (engine : Nat)
  /-- SCRUB_STACK (R236): The stack patrol reads and conditionally writes back the next granule. -/
  | scrubStack (unit : Nat) (ecc : Ecc) (raced : Bool)
  /-- SCRUB_SRAM (R236): The SRAM patrol checks one granule after 256 idle network-port cycles. -/
  | scrubSram (unit : Nat) (ecc : Ecc) (raced : Bool)
  /-- FORCED_REFRESH (R232): A bank whose refresh is 4 intervals late is refreshed by force. -/
  | forcedRefresh (stack bank : Nat)
  /-- MEM_RGN_SEL (R226): A write of MEM_RGN_SEL loads the staging registers with the selected entry. -/
  | memRgnSel (a : Acc) (v : BitVec 32)
  /-- MEM_RGN_ATTR (R226): A write of MEM_RGN_ATTR applies or invalidates a region entry after its checks. -/
  | memRgnAttr (a : Acc) (v : BitVec 32)
  /-- STACK_FENCE (R247): FENCE written 1 stops new requests to a stack. -/
  | stackFence (a : Acc) (stack : Nat)
  /-- STACK_FENCED (R247): Once in-flight requests complete the stack is fenced and owners' epochs aborted. -/
  | stackFenced (stack : Nat)
  /-- STACK_UNFENCE (R248): FENCE written 0 starts retraining and zeroing of a stack. -/
  | stackUnfence (a : Acc) (stack : Nat)
  /-- STACK_TRAIN_DONE (R248): Stack training and zeroing end, clearing FENCED or setting TRAIN_FAIL. -/
  | stackTrainDone (stack : Nat) (trained : Bool)
  /-- HOST_BAR2_READ (R239): A host read through BAR2 returns stored stacked-memory bytes. -/
  | hostBar2Read (offset len : Nat)
  /-- HOST_BAR2_WRITE (R239): A host write through BAR2 lands in a HOSTW region or is discarded and counted. -/
  | hostBar2Write (offset : Nat) (bytes : List (BitVec 8))
  /-- FLIT_RECEIVE (R294): A Griros flit arrives and is checked for CRC, order and tag, then delivered with its ACK and credits. -/
  | flitReceive (link : Nat) (image : List (BitVec 8))
  /-- FLIT_REPLAY_TIMEOUT (R294): A flit unacknowledged for 4 µs is replayed from ACK + 1. -/
  | flitReplayTimeout (link : Nat)
  /-- LIGHT_PRESENT (R297): Light on an enabled, unheld link with a node identifier moves it to CALIBRATE. -/
  | lightPresent (link : Nat)
  /-- LIGHT_LOSS (R31): Loss of light on an optical engine takes its link or port group down. -/
  | lightLoss (engine : Nat)
  /-- CALIBRATE_DONE (R297): Optical calibration ends and the link enters TRAIN. -/
  | calibrateDone (link : Nat)
  /-- TRAIN_DONE (R297): All lanes and FEC lock and the link enters KEYX. -/
  | trainDone (link : Nat)
  /-- TRAIN_TIMEOUT (R297): Training not complete in 20 ms takes the link DOWN. -/
  | trainTimeout (link : Nat)
  /-- TRAIN_RETRY (R297): One second after a failed training the link retries bring-up. -/
  | trainRetry (link : Nat)
  /-- KEYX (R298): A KEYX handshake message is received and processed toward derived link keys. -/
  | keyx (link : Nat) (peer : Nat) (nonce : BitVec 256) (chainOk policyOk last : Bool)
  /-- KEYX_TIMEOUT (R297): KEYX not complete in 5 ms takes the link DOWN with HOLD set. -/
  | keyxTimeout (link : Nat)
  /-- AGREE (R300): An AGREE message is compared with the local digest, moving the link to UP or QUARANTINE. -/
  | agree (link : Nat) (peer : Digest)
  /-- TIME_EXCHANGE (R303): Each second an UP link sends stamped TIME messages. -/
  | timeExchange (link : Nat)
  /-- TIME (R303): A TIME message is received and offset and round trip are computed. -/
  | time (link : Nat) (answer : Bool) (t2 t3 : Int)
  /-- ABORT_NOTICE (R305): A received ABORT_NOTICE aborts a matching job context and is forwarded. -/
  | abortNotice (link : Nat) (node : Nat) (jobTag epoch : BitVec 16)
  /-- GRL_WRITE (R301): A WRITE message is rights-checked and its data written on the receiving device. -/
  | grlWrite (link : Nat)
  /-- READ_REQ (R292): A READ_REQ message is served by reading local memory and returning READ_DATA. -/
  | readReq (link : Nat)
  /-- READ_DATA (R292): A READ_DATA message delivers remote data to the requesting transfer. -/
  | readData (link : Nat)
  /-- GRL_SIGNAL (R274): A SIGNAL message is translated through the job context and applied or refused with SIG_REJECT. -/
  | grlSignal (link : Nat)
  /-- COLL_DATA (R313): A COLL_DATA message delivers collective data to be combined and forwarded in ring order. -/
  | collData (link : Nat)
  /-- COLL_TIMEOUT (R314): A member that waits past SYNC_CTX_TMO for neighbour data completes with SYNC_TIMEOUT. -/
  | collTimeout (engine : Nat)
  /-- REKEY (R298): GRL_CFG.REKEY starts a rekeying KEYX while traffic continues. -/
  | rekey (a : Acc) (link : Nat) (v : BitVec 32)
  /-- FLIT_COUNT_REKEY (R298): A link reaching 2^48 flits in one direction rekeys. -/
  | flitCountRekey (link : Nat)
  /-- REAGREE (R300): GRL_CFG.REAGREE runs AGREE on the link. -/
  | reagree (a : Acc) (link : Nat) (v : BitVec 32)
  /-- RECAL_NOW (R317): GRL_CFG.RECAL_NOW starts half-width recalibration. -/
  | recalNow (a : Acc) (link : Nat) (v : BitVec 32)
  /-- RECAL_PERIOD (R317): Every RECAL_S seconds an UP link starts half-width recalibration. -/
  | recalPeriod (link : Nat) (byPeer : Bool)
  /-- RECAL_HALF_DONE (R317): A 40 ms half recalibration ends and traffic moves to the other half or back to 8 lanes. -/
  | recalHalfDone (link : Nat) (calibrated : Bool)
  /-- HOLD (R297): GRL_CFG.HOLD holds the link DOWN. -/
  | hold (a : Acc) (link : Nat) (v : BitVec 32)
  /-- GRL_BIND (R318): A write of GRL_BIND binds the link to a job slot, moving an UP link to AGREE. -/
  | grlBind (a : Acc) (link : Nat) (v : BitVec 32)
  /-- GRL_NODE_ID (R319): A write sets the node identifier only while every link is DOWN. -/
  | grlNodeId (a : Acc) (v : BitVec 32)
  /-- GRL_JOB_W3 (R320): A write of W3 applies the selected job, neighbour or ring entry after checks. -/
  | grlJobW3 (a : Acc) (v : BitVec 32)
  /-- ADMIT (R300): GRL_JOB_CMD.ADMIT runs AGREE on every link bound to the slot. -/
  | jobAdmit (a : Acc) (v : BitVec 32)
  /-- TIME_REARM (R304): GRL_JOB_CMD.TIME_REARM allows TIME_OK to return after a good round. -/
  | timeRearm (a : Acc) (v : BitVec 32)
  /-- RX_FRAME (R330): A received Ethernet frame is checked, filtered and written to a ring, forwarded or dropped. -/
  | rxFrame (mac : Nat) (frame : Frame)
  /-- PAUSE_TIMER_EXPIRE (R333): A class pause timer reaches zero and the class resumes. -/
  | pauseTimerExpire (mac cls : Nat) (pfc : Bool)
  /-- PFC_REPEAT (R335): Half of PAUSE_TIME elapsed above XON_THR repeats the PFC frame. -/
  | pfcRepeat (mac : Nat)
  /-- NAP_FRAME_DELIVER (R339): A frame held during NAP is delivered once the hub has resumed. -/
  | napFrameDeliver (mac : Nat)
  /-- TX_STAGE (R331): A posted transmit frame is fetched wholly into the transmit buffer and becomes eligible. -/
  | txStage (mac cls : Nat)
  /-- TX_FRAME_START (R331): At a frame boundary the MAC chooses PFC or the highest unpaused eligible class and starts sending. -/
  | txFrameStart (mac : Nat)
  /-- TX_PREEMPTIONS (R332): An express frame becoming eligible cuts the preemptable fragment at the first allowed point. -/
  | txPreemptions (mac sent : Nat)
  /-- TX_FRAME_DONE (R328): A transmitted frame ends, its entry STATUS is written and HWIDX advances. -/
  | txFrameDone (mac : Nat)
  /-- PREEMPT_VERIFY (R331): The 802.3br verify exchange completes or fails, setting PREEMPT_ACTIVE. -/
  | preemptVerify (mac : Nat) (verified : Bool)
  /-- MAC_LINK_DOWN (R343): A port's link goes down, discarding staged frames and clearing pause timers. -/
  | macLinkDown (mac : Nat)
  /-- MAC_LINK_UP (R343): A port's link comes up and held entries resume. -/
  | macLinkUp (mac : Nat)
  /-- MAC_GRP_CFG (R321): A write of MODE or pair bits is applied or refused with MAC_MODE_BUSY. -/
  | macGrpCfg (a : Acc) (mac : Nat) (v : BitVec 32)
  /-- MAC_RING_CFG (R327): A write of EN starts a ring after checking SIG_ID and clears its indices. -/
  | macRingCfg (a : Acc) (mac : Nat) (v : BitVec 32)
  /-- MAC_RING_SWIDX (R327): A write of SWIDX posts entries or is refused with MAC_RING_BAD. -/
  | macRingSwidx (a : Acc) (mac : Nat) (v : BitVec 32)
  /-- MAC_SLOT_DATA (R338): A write of a slot word, with the enable of word 36 checked against CHECK. -/
  | macSlotData (a : Acc) (mac : Nat) (v : BitVec 32)
  /-- ONOP (R372): An Ouvvos descriptor with no action. -/
  | onop (fabric : Nat)
  /-- OLOAD (R371): A configuration image is checked and loaded into a slot. -/
  | oload (fabric : Nat)
  /-- OSWITCH (R376): A harvested fabric switches to a loaded slot, incrementing the configuration epoch. -/
  | oswitch (fabric : Nat)
  /-- OSWITCH_AT (R380): A timed OSWITCH begins when TB3 reaches AT. -/
  | oswitchAt (fabric : Nat)
  /-- OHARVEST (R377): A harvest closes ingress and lets tiles drain. -/
  | oharvest (fabric : Nat)
  /-- OMEMW (R372): Bytes are copied from memory into a MEM tile. -/
  | omemw (fabric : Nat)
  /-- OMEMR (R372): Bytes are copied from a MEM tile to memory. -/
  | omemr (fabric : Nat)
  /-- OPOWER (R387): A fabric is put into SLEEP or brought back to RUN. -/
  | opower (fabric : Nat)
  /-- FABRIC_WAKE_DONE (R387): Two microseconds after OPOWER RUN the fabric is in RUN. -/
  | fabricWakeDone (fabric : Nat)
  /-- DOT (R356): A MUL tile fires a dot product on a group with stored weights. -/
  | dot (fabric tile : Nat)
  /-- DOTW (R356): A MUL tile fires a dot product with weights from port b. -/
  | dotw (fabric tile : Nat)
  /-- ADD2 (R355): A MUL tile adds paired FP32 tokens. -/
  | add2 (fabric tile : Nat)
  /-- MUL2 (R355): A MUL tile multiplies paired tokens. -/
  | mul2 (fabric tile : Nat)
  /-- FMA2 (R355): A MUL tile computes a fused multiply-add of three tokens. -/
  | fma2 (fabric tile : Nat)
  /-- MAX2 (R355): A MUL tile takes the maximum of paired tokens. -/
  | max2 (fabric tile : Nat)
  /-- BIAS2 (R355): A MUL tile adds stored biases to a group. -/
  | bias2 (fabric tile : Nat)
  /-- FUNC2 (R357): An SFN tile applies a function to each element. -/
  | func2 (fabric tile : Nat)
  /-- ACTPACK (R357): An SFN tile activates, scales and packs a group into one token. -/
  | actpack (fabric tile : Nat)
  /-- UNPACK (R357): An SFN tile unpacks a token into FP32 pairs. -/
  | unpack (fabric tile : Nat)
  /-- ARGMAX (R357): An SFN tile emits the index and value of a group's largest element. -/
  | argmax (fabric tile : Nat)
  /-- THRESH (R357): An SFN tile emits a SEL control token by thresholds. -/
  | thresh (fabric tile : Nat)
  /-- CLASSIFY (R357): An SFN tile emits a SEL control token from a map. -/
  | classify (fabric tile : Nat)
  /-- TABLE (R358): A MEM tile returns a table word by index. -/
  | table (fabric tile : Nat)
  /-- READ (R358): A MEM tile emits a group of words from an offset. -/
  | read (fabric tile : Nat)
  /-- WRITE (R358): A MEM tile writes tokens to successive words. -/
  | write (fabric tile : Nat)
  /-- FIFO (R358): A MEM tile holds and passes tokens in order. -/
  | fifo (fabric tile : Nat)
  /-- INGRESS (R396): An IO tile emits a request's MARK and field tokens from the parse window. -/
  | ingress (fabric tile : Nat)
  /-- EGRESS (R400): An IO tile takes a MARK and group and builds a reply. -/
  | egress (fabric tile : Nat)
  /-- MREAD (R360): An IO tile issues a memory read request. -/
  | mread (fabric tile : Nat)
  /-- MREAD_ANSWER (R360): The answer to an MREAD returns and is emitted as a group in request order. -/
  | mreadAnswer (fabric tile : Nat)
  /-- POST (R360): An IO tile writes a payload to a memory ring and produces a credit. -/
  | post (fabric tile : Nat)
  /-- SIGNAL (R360): An IO tile raises a sync identifier for each token. -/
  | signal (fabric tile : Nat)
  /-- END (R360): An IO tile starts a harvest on a DONE control token. -/
  | endHarvest (fabric tile : Nat)
  /-- STEER (R364): A sluice routes a data element by its paired SEL token. -/
  | steer (fabric tile : Nat)
  /-- MERGE (R364): A sluice takes the next element from a or b by its SEL token. -/
  | merge (fabric tile : Nat)
  /-- REPEAT (R364): A sluice emits an element n times. -/
  | sluRepeat (fabric tile : Nat)
  /-- ZIP (R364): A sluice interleaves NA elements of a with NB of b. -/
  | zip (fabric tile : Nat)
  /-- COUNT (R364): A sluice passes elements and emits DONE with the running count. -/
  | count (fabric tile : Nat)
  /-- RATE (R364): A sluice passes elements within a token bucket, holding or dropping excess. -/
  | rate (fabric tile : Nat)
  /-- GEN (R364): A sluice emits n control tokens per GO or REPEAT. -/
  | gen (fabric tile : Nat)
  /-- HARVEST_QUIESCE (R377): After 64 idle cycles the harvest reports leftovers, discards them and marks the fabric harvested. -/
  | harvestQuiesce (fabric : Nat)
  /-- OVS_HARVEST_TMO (R378): A harvest that has not quiesced in time completes with OVS_HARVEST_TMO. -/
  | ovsHarvestTmo (fabric : Nat)
  /-- REOPEN (R378): OVS_CMD.REOPEN opens ingress on the active slot and clears faults. -/
  | reopen (a : Acc) (fabric : Nat) (v : BitVec 32)
  /-- OVS_FORCE (R383): A warden write of OVS_FORCE GO closes ingress and awaits outstanding IO for a forced switch. -/
  | ovsForce (a : Acc) (fabric : Nat) (v : BitVec 32)
  /-- FORCED_SWITCH (R383): Once old-epoch IO has finished the fabric empties all queues and switches. -/
  | forcedSwitch (fabric : Nat)
  /-- STALE (R383): A token of the old epoch reaching a tile is discarded and counted. -/
  | stale (fabric tile port : Nat) (tok : Token)
  /-- DOZE_ENTER (R386): After DOZE_IDLE idle cycles a fabric enters DOZE. -/
  | dozeEnter (fabric : Nat)
  /-- DOZE_WAKE (R386): A token offered or a descriptor at head returns a dozing fabric to RUN. -/
  | dozeWake (fabric : Nat)
  /-- OVS_STALL (R389): The watchdog expires and the fabric posts STALL. -/
  | ovsStall (fabric : Nat)
  /-- OVS_ASSIGN (R384): Assigning a fabric empties its slots, zeroes its stores and resets its epoch. -/
  | ovsAssign (a : Acc) (fabric : Nat) (v : BitVec 32)
  /-- OVS_EVQ_READ (R389): A warden read of OVS_EVQ_LO removes the head fabric event. -/
  | ovsEvqRead (a : Acc) (fabric : Nat)
  /-- STEER_DECISION (R391): At P bytes a frame's slot is decided and a STEER frame is offered and accepted or passed. -/
  | steerDecision (mac : Nat) (frame : Frame)
  /-- VERDICT (R398): A request's verdict becomes known, passing or failing it. -/
  | verdict (fabric rec : Nat)
  /-- REPLY_STAGE (R402): A built reply enters the transmit buffer as FINAL or EARLY. -/
  | replyStage (fabric : Nat)
  /-- REPLY_RECORD (R408): After a passed verdict and ring room a reply record is written and a credit produced. -/
  | replyRecord (fabric tile : Nat)
  /-- TIME_TICK (R414): At each 500 MHz tick every time base adds its increment and TB3 steers toward its active base. -/
  | timeTick
  /-- TIME_RD_NS (R416): A read samples a base and holds its seconds and fraction for the reader. -/
  | timeRdNs (a : Acc)
  /-- TIME_RATE (R417): A write sets a base's rate from the next tick. -/
  | timeRate (a : Acc) (v : BitVec 32)
  /-- TIME_SLEW_TICKS (R417): A write starts or replaces a slew. -/
  | timeSlewTicks (a : Acc) (v : BitVec 32)
  /-- TIME_STEP_HI (R418): A write steps the selected base once or is refused. -/
  | timeStepHi (a : Acc) (v : BitVec 32)
  /-- TIME_REOPEN (R418): TIME_ADJ_STAT.REOPEN clears STEPPED or is refused. -/
  | timeReopen (a : Acc) (v : BitVec 32)
  /-- TIME_DOM (R423): A write sets domain numbers and VALID bits, refusing equal numbers and possibly moving TB3. -/
  | timeDom (a : Acc) (v : BitVec 32)
  /-- TIME_TB3_CFG (R424): A write of SRC selects the base TB3 follows or is refused. -/
  | timeTb3Cfg (a : Acc) (v : BitVec 32)
  /-- TIME_TRIG_OWN (R426): The warden assigns a comparator to a context. -/
  | timeTrigOwn (a : Acc) (v : BitVec 32)
  /-- ARM (R427): A write of TIME_TRIG_CTL arms or disarms a comparator. -/
  | arm (a : Acc) (v : BitVec 32)
  /-- TRIG_FIRE (R427): An armed comparator fires when TB3 reaches AT, signalling, writing or pulsing pins. -/
  | trigFire (trig : Nat)
  /-- TRIG_WRITE_ACK (R426): After a WRITE_SIGNAL comparator's write is acknowledged it raises SIG_ID. -/
  | trigWriteAck (trig : Nat)
  /-- CAPTURE (R430): A rising edge on a capture input records all four bases. -/
  | capture (input : Nat)
  /-- SOFT_CAPTURE (R430): A write of TIME_CAP_CTL.SOFT captures into slot 4. -/
  | softCapture (a : Acc) (v : BitVec 32)
  /-- TIME_SQ_W0 (R420): A read removes the head PTP stamp entry and captures its words. -/
  | timeSqW0 (a : Acc)
  /-- DIE_IDLE (R436): A die enters IDLE after 64 cycles with no engine busy. -/
  | dieIdle (die : Nat)
  /-- DIE_REQ_RUN (R436): A write of REQ RUN starts a die's return to RUN, training its stacks the first time. -/
  | dieReqRun (a : Acc) (die : Nat)
  /-- DIE_REQ_NAP (R437): A write of REQ NAP puts a die into NAP or is refused. -/
  | dieReqNap (a : Acc) (die : Nat)
  /-- DIE_REQ_OFF (R437): A write of REQ OFF turns a die off or is refused. -/
  | dieReqOff (a : Acc) (die : Nat)
  /-- DIE_WAKE (R439): A wake event addressed to a sleeping die starts its resume. -/
  | dieWake (die : Nat)
  /-- DIE_TRANSITION_DONE (R436): A die power transition completes and any held REQ write is applied. -/
  | dieTransitionDone (die : Nat)
  /-- BAY_GATE (R438): A bay idle for PWR_BAY_GATE is power-gated. -/
  | bayGate (bay : Nat)
  /-- BAY_RESUME (R438): A gated bay resumes 2 µs after a push or release reaches it. -/
  | bayResume (bay : Nat)
  /-- GOV_SAMPLE (R441): Every microsecond the governor reads input power and moves the common ceiling. -/
  | govSample (watts amps scaled : Nat)
  /-- OVERCURRENT (R442): Input current above 110 A for 5 µs drops every ceiling to 32. -/
  | overcurrent
  /-- THERMAL_WARN (R444): A sensor at its warn limit throttles its die or stack. -/
  | thermalWarn (sensor : Nat) (temp : Int)
  /-- THERMAL_TRIP (R445): A sensor at its trip limit turns off salterns, fences a stack or shuts a laser feed. -/
  | thermalTrip (sensor : Nat) (temp : Int)
  /-- IMAGE_LOAD (R456): SEC_IMG_CTL.GO fetches an image from host memory for verification. -/
  | imageLoad (a : Acc) (v : BitVec 32)
  /-- IMAGE_VERIFY (R458): Image verification ends and the image is accepted and staged or applied, or refused. -/
  | imageVerify (palSigOk ownSigOk loadOk : Bool)
  /-- TAMPER (R465): A tamper sensor fires, zeroising keys, holding dies in reset and blowing DEFUNCT_PENDING. -/
  | tamper (sensor : Nat)
  /-- DOE_MESSAGE (R501): A data object arrives at a function's DOE instance and is handled or discarded. -/
  | doeMessage (fn : Nat) (msg : DoeMsg)
  /-- GET_MEASUREMENTS (R460): An SPDM request is answered with signed measurement blocks. -/
  | getMeasurements (fn : Nat) (nonce : List (BitVec 8))
  /-- CTX_OPEN (R503): A mailbox message moves a context from FREE to BUILDING and draws its keys. -/
  | ctxOpen (n : Nat)
  /-- CTX_SET (R503): A mailbox message applies configuration items as warden register writes. -/
  | ctxSet (n : Nat) (items : List SetItem)
  /-- CTX_LOAD (R503): A mailbox message writes program bytes into core memory. -/
  | ctxLoad (n core offset : Nat) (bytes : List (BitVec 8))
  /-- CTX_SEED (R96): A mailbox message sets or draws the context seed. -/
  | ctxSeed (n : Nat) (seed : Option (BitVec 64))
  /-- CTX_START (R45): A mailbox message moves a context to RUN, fixing its grants. -/
  | ctxStart (n : Nat)
  /-- CTX_RELEASE (R36): A mailbox message moves a context to RELEASING, ending its work and waits with CTX_RELEASED. -/
  | ctxRelease (n : Nat)
  /-- CTX_ZEROISE (R36): After the last completion the context's keys are zeroised, tags freed, rings zeroed and it reaches FREE. -/
  | ctxZeroise (ctx : Nat)
  /-- GET_EVENTS (R504): A mailbox message returns queued events and error records. -/
  | getEvents (fn count : Nat)
  /-- KEY_INSTALL (R453): A mailbox message installs an OTK or a MACsec CAK. -/
  | keyInstall (key : KeyMsg)
  /-- SVN_COMMIT (R459): A mailbox message raises an SVN fuse counter to the running image's SVN. -/
  | svnCommit (kind : Nat)
  /-- JOB_SET (R503): A mailbox message applies job items as warden writes. -/
  | jobSet (items : List JobItem)
  /-- EVENT_RELAY (R538): The warden takes an entry from a page queue or the log and appends it to a context's event queue. -/
  | eventRelay (src : RelaySrc)
  /-- CC_HART_CTX (R539): A write of CC_HARTn_CTX binds or unbinds a hart. -/
  | ccHartCtx (a : Acc) (inst hart : Nat) (v : BitVec 32)
  /-- CC_CTX_TAGQ (R55): A write of a tag quota is applied or rejected. -/
  | ccCtxTagq (a : Acc) (ctx saltern : Nat) (v : BitVec 32)
  /-- BAY_FENCE (R478): Setting a bay's fence bit stops it and its core, charges its contexts and powers it off. -/
  | bayFence (a : Acc) (part : Nat)
  /-- BAY_UNFENCE (R478): Clearing a bay's fence bit starts zeroing its slice. -/
  | bayUnfence (a : Acc) (part : Nat)
  /-- BAY_UNFENCE_DONE (R478): Zeroing ends and the bay returns to the warden unassigned. -/
  | bayUnfenceDone (bay : Nat)
  /-- LMOD_FENCE (R479): Setting a laser module's fence bit shuts its laser and takes its links down. -/
  | lmodFence (a : Acc) (part : Nat)
  /-- LMOD_UNFENCE (R479): Clearing a laser module's fence bit powers its laser. -/
  | lmodUnfence (a : Acc) (part : Nat)
  /-- LINK_FENCE (R477): Setting a Griros link's fence bit holds it DOWN. -/
  | linkFence (a : Acc) (part : Nat)
  /-- LINK_UNFENCE (R477): Clearing a Griros link's fence bit releases it to bring-up. -/
  | linkUnfence (a : Acc) (part : Nat)
  /-- APPLY (R480): SVC_UPD_CTL.APPLY starts applying the staged image to its scope. -/
  | apply (a : Acc) (v : BitVec 32)
  /-- UPDATE_INSTANCE_QUIESCED (R481): An instance reaches its quiesce point and is loaded, verified and resumed. -/
  | updateInstanceQuiesced (verified : Bool)
  /-- SVC_QUIESCE_TMO (R482): An instance not quiesced in time stops the apply with failure. -/
  | svcQuiesceTmo
  /-- SVC_ERRLOG_W0 (R471): A read removes the head error record and captures its words. -/
  | svcErrlogW0 (a : Acc)
  /-- MESH_FAIL (R27): A die-mesh connection fails after retraining, aborting every context. -/
  | meshFail (conn : Nat)
  /-- RETRAIN (R27): A die-mesh connection retrains internally below software. -/
  | retrain (conn : Nat)
  /-- ENABLE (R495): A write of CTL.ENABLE enables or stops a block's acceptance of work. -/
  | enable (a : Acc) (page : Nat) (v : BitVec 32)
  /-- QUIESCE (R495): A write of CTL.QUIESCE requests or ends quiescence. -/
  | quiesce (a : Acc) (page : Nat) (v : BitVec 32)
  /-- QUIESCED (R495): A block reaches its quiesce point and sets QUIESCED. -/
  | quiesced (page : Nat)
  /-- RESET (R495): A write of CTL.RESET resets a quiesced, unlocked, unassigned block. -/
  | blockReset (a : Acc) (page : Nat) (v : BitVec 32)
  /-- CTL_LOCK (R494): The first write of LOCK after reset locks CTL. -/
  | ctlLock (a : Acc) (page : Nat) (v : BitVec 32)
  /-- ERR_CODE_READ (R490): A warden read of ERR_CODE or ERR_INFO returns and clears it. -/
  | errCodeRead (a : Acc) (page off : Nat)
  /-- REGISTER_WRITE (R490): A write to a register without a row of its own is applied, ignored or denied by the access rules. -/
  | registerWrite (a : Acc) (page off size : Nat) (v : BitVec 32)
  /-- STANDBY_UP (R511): The standby rail crosses 3.0 V and the always-on domain starts. -/
  | standbyUp
  /-- STANDBY_LOSS (R512): The standby rail falls below 3.0 V, a power loss of everything. -/
  | standbyLoss
  /-- MAIN_RAIL_UP (R511): The main rail enters its range with the always-on domain ready. -/
  | mainRailUp
  /-- HUB_POWER_ON (R511): 0.5 ms later the hub regulators are enabled and the hub rails come up. -/
  | hubPowerOn
  /-- MAIN_RAIL_LOSS (R512): The main rail leaves its range for more than 10 µs and every die except always-on powers off. -/
  | mainRailLoss
  /-- ROM_BOOT (R517): With the hub PLL locked the ROM reads OTP, tests the TRNG, draws the PBK and enables the host port. -/
  | romBoot (otpOk trngOk pbkOk : Bool)
  /-- PERST_ASSERT (R513): PERST# assertion starts a cold reset. -/
  | perstAssert
  /-- PERST_DEASSERT (R517): PERST# deassertion releases the device from cold reset. -/
  | perstDeassert
  /-- WARM_RESET (R514): BOOT_RST KIND 1 performs a warm reset. -/
  | warmReset (a : Acc) (v : BitVec 32)
  /-- COLD_RESET (R514): BOOT_RST KIND 2 performs a cold reset. -/
  | coldReset (a : Acc) (v : BitVec 32)
  /-- KICK (R507): A write of BOOT_WDOG.KICK restarts the warden watchdog. -/
  | kick (a : Acc) (v : BitVec 32)
  /-- BOOT_WDOG_EXPIRE (R507): The warden watchdog expires and causes a warm reset. -/
  | bootWdogExpire
  /-- LASER_REMOVE (R31): A laser module is removed and its fed engines go down. -/
  | laserRemove (m : Nat)
  /-- LASER_INSERT (R31): A laser module is inserted and its engines are held down for stabilisation. -/
  | laserInsert (m : Nat)
  /-- LASER_STABLE (R31): Two seconds after insertion or unfence optical calibration starts. -/
  | laserStable (m : Nat)
  /-- BOOT_LB_CTL (R525): A write of RUN starts or stops a PRBS loopback test or is refused. -/
  | bootLbCtl (a : Acc) (v : BitVec 32)
  /-- EXTEST (R522): The TAP instruction takes the lands for external test. -/
  | extest
  /-- IDCODE (R522): The TAP instruction selects the IDCODE register. -/
  | idcode
  /-- SAMPLE_PRELOAD (R522): The TAP instruction samples and preloads the boundary register. -/
  | samplePreload
  /-- CLAMP (R522): The TAP instruction clamps outputs with bypass. -/
  | clamp
  /-- HIGHZ (R522): The TAP instruction floats outputs. -/
  | highz
  /-- EXTEST_PULSE (R522): The TAP instruction tests AC-coupled lanes with pulses. -/
  | extestPulse
  /-- EXTEST_TRAIN (R522): The TAP instruction tests AC-coupled lanes with trains. -/
  | extestTrain
  /-- INTERNAL_SCAN (R524): The TAP instruction opens internal scan where allowed, holding dies in reset. -/
  | internalScan (chain : Nat)
  /-- MEMORY_BIST (R524): The TAP instruction opens memory BIST access where allowed. -/
  | memoryBist (chain : Nat)
  /-- CORE_DEBUG (R524): The TAP instruction opens a die's RISC-V debug module where allowed. -/
  | coreDebug (chain : Nat)
  /-- BYPASS (R522): The TAP instruction selects the bypass register. -/
  | bypass
  /-- THERMAL_THROTTLE_END (R444): A throttled die or stack whose sensor reads below 90 °C leaves throttling, and a stack below 85 °C leaves doubled refresh. -/
  | thermalThrottleEnd (sensor : Nat) (temp : Int)
  /-- ALWAYS_ON_READY (R511): The crystal stabilises and the always-on PLL locks, TB0 starts counting and the 0.5 ms wait toward hub power may begin. -/
  | alwaysOnReady
  /-- HOST_LINK_UP (R505): The PCIe host link trains and comes up, setting HOST_LINK.UP and posting LINK_UP. -/
  | hostLinkUp (speed width : Nat) (flit : Bool) (cxl : BitVec 3) (vfs : Nat)
  /-- HOST_LINK_DOWN (R505): The PCIe host link goes down, clearing HOST_LINK.UP and posting LINK_DOWN. -/
  | hostLinkDown
  /-- TX_AN_SWITCH (R341): The warden installs a new SAK and switches the transmit AN, so staged frames and recalls held at the last PN are sent. -/
  | txAnSwitch (mac an : Nat) (pn : Nat) (peers : List (BitVec 64))
  /-- FENCE_DONE (R476): A fence or unfence finishes, BUSY clears, FENCE_DONE is posted and any held fence write is applied. -/
  | fenceDone
  /-- TRST_ASSERT (R522): Assertion of TRST* resets the test access port and ends any test instruction that held the lands, so the host port retrains. -/
  | trstAssert
  /-- LB_LOCK (R525): A lane's PRBS checker locks to the incoming pattern and sets its LOCK bit. -/
  | lbLock (engine lane : Nat)
  /-- LB_PASS (R525): A lane that has checked at least 10^12 bits with a pre-FEC error ratio within 1 × 10^−5 sets its PASS bit. -/
  | lbPass (engine lane : Nat)
  deriving DecidableEq, Repr

end Sys2Proof
end

