-- ==== Sys2Proof/Decode.lean ====
section
/-! DEFINITION. Words that spell commands: the words of a hart's command extension (02, R41, R42). No row of
spec/opcode_table.json gives bits, so `decodeTableWord` reads none. -/

namespace Sys2Proof

/-- The command that a word spells by the table's bits: the table gives no row any bits, so no word spells one. -/
def decodeTableWord (_nbits _w : Nat) : Option Instr := none

/-- What a word of a hart's program is to the command extension: a word of another opcode, an illegal instruction (R42), a command. -/
inductive HartWord where
  | other
  | illegal
  | cmd (i : Instr)
  deriving DecidableEq, Repr

/-- A field of a word: lowest bit, width. -/
def wordField (w lo n : Nat) : Nat := w / 2 ^ lo % 2 ^ n

/-- The ZSYNC operation that rs1[23:16] names (R254); a reserved code is any row's, and is refused by its check (R255). -/
def decodeSync (h rd : Nat) (rs1 rs2 : Dword) : Instr :=
  match wordField rs1.toNat 16 8 with
  | 0x01 => .fclr h rd rs1 rs2
  | 0x02 => .ftest h rd rs1 rs2
  | 0x03 => .ftestc h rd rs1 rs2
  | 0x04 => .fwait h rd rs1 rs2
  | 0x05 => .fwaitc h rd rs1 rs2
  | 0x10 => .bconf h rd rs1 rs2
  | 0x11 => .barr h rd rs1 rs2
  | 0x12 => .bwait h rd rs1 rs2
  | 0x13 => .barrw h rd rs1 rs2
  | 0x14 => .bstat h rd rs1 rs2
  | 0x20 => .cconf h rd rs1 rs2
  | 0x21 => .cprod h rd rs1 rs2
  | 0x22 => .ccons h rd rs1 rs2
  | 0x23 => .cwait h rd rs1 rs2
  | 0x24 => .cwaitc h rd rs1 rs2
  | 0x25 => .cread h rd rs1 rs2
  | _ => .fset h rd rs1 rs2

/-- Decode a 32-bit word of a hart's program, with the registers that rs1 and rs2 name (R41): custom-0 and custom-1, by funct3 and
funct7; any other funct3 or funct7 of the two is illegal (R42). ZSTG is I-type and has no funct7. -/
def decodeHart (h : Nat) (x : Nat → Dword) (w : Nat) : HartWord :=
  let rd := wordField w 7 5
  let f3 := wordField w 12 3
  let f7 := wordField w 25 7
  let rs1 := x (wordField w 15 5)
  let rs2 := x (wordField w 20 5)
  match wordField w 0 7, f3, f7 with
  | 0b0001011, 0, _ => .cmd (.zstg h rd rs1 (BitVec.ofNat 12 (wordField w 20 12)))
  | 0b0001011, 1, 0 => .cmd (.zpush h rd rs1)
  | 0b0001011, 1, 1 => .cmd (.ztpush h rd rs1)
  | 0b0001011, 1, 2 => .cmd (.zpushm h rd rs1 rs2)
  | 0b0001011, 2, 0 => .cmd (.zvec h rd rs1 rs2)
  | 0b0001011, 2, 1 => .cmd (.zvend h rd rs1 rs2)
  | 0b0001011, 3, 0 => .cmd (.zsum h rd rs1 rs2)
  | 0b0001011, 4, 0 => .cmd (decodeSync h rd rs1 rs2)
  | 0b0101011, 0, 0 => .cmd (.zcwait h rd rs1)
  | 0b0101011, 0, 1 => .cmd (.zcnext h rd)
  | 0b0101011, 0, 2 => .cmd (.zcack h rs1)
  | 0b0101011, 1, 0 => .cmd (.zeack h rd)
  | 0b0001011, _, _ => .illegal
  | 0b0101011, _, _ => .illegal
  | _, _, _ => .other

end Sys2Proof
end

