-- ==== Sys2Proof/Config.lean ====
section
/-! DEFINITION. Free values and implementation constants: opaque constants without a body, so that a claim holds whatever they are. -/

namespace Sys2Proof.Config

open Sys2Proof

/-- A draw of the TRNG (R449, R96, R298): the n-th free value of the device. DESIGN CHOICE (log entry 11). -/
opaque draw : Nat → Dword

/-- The position of the tag that the device assigns among the free tags of a pool (R57): reduced modulo their number.
DESIGN CHOICE (log entry 12). -/
opaque pickTag : Nat → Nat

/-- A special function inside its error bound (R181): function code, table version, argument. DESIGN CHOICE (log entry 8). -/
opaque sfn : Nat → Word → Word → Word

/-- An element of a MUL tile's result for which the spec states no value (R355, R356), as a function of what the tile computes it
from, written as numbers, and of its index in the token or group: the same firing gives the same bits (R102, R352).
DESIGN CHOICE (log entry 24). -/
opaque tileElem : List Nat → Nat → Word

/-- The version of the boot ROM (R507). DESIGN CHOICE (log entry 15). -/
opaque romVersion : Word

/-- The bytes of a signed measurement answer (R460) beyond those the spec fixes: nonce, index. DESIGN CHOICE (log entry 7). -/
opaque signature : List Byte → Nat → Byte

/-- What the receiving hub answers to the first messages of a transfer (R301, R302): 0 accepted, 1 refused by its rights, 2 refused
because its links have no such job. DESIGN CHOICE (log entry 20). -/
opaque peerVerdict : Nat → Nat

/-- The SHA-384 of the device's IDK public key (R462), by byte: it stands in OTP. DESIGN CHOICE (log entry 15). -/
opaque idkHash : Nat → Byte

/-- The digest of the boot ROM (R460), by byte. DESIGN CHOICE (log entry 15). -/
opaque romDigest : Nat → Byte

/-- The minimum SVN that an owner policy gives an image kind (R451): digest of the policy, kind. The layout of a policy's body is not
given. DESIGN CHOICE (log entry 7). -/
opaque policyMin : List Byte → Nat → Nat

/-- The OTK slots that an owner policy permits the class of a context (R451): digest of the policy, context. Neither the layout of a
policy's body nor the classes are given. DESIGN CHOICE (log entry 7). -/
opaque policyOtk : List Byte → Nat → BitVec 4

/-- The digest of a context's configuration (R460), by byte, as a function of what it covers, written as numbers. The order in which
the items are hashed is not given. DESIGN CHOICE (log entry 7). -/
opaque configDigest : List Nat → Nat → Byte

/-- The canonical encoding of a group of the agreement (R300): group, what it covers, written as numbers. The spec gives no encoding.
DESIGN CHOICE (log entry 84). -/
opaque canonical : Nat → List Nat → List Byte

/-- What the lands read when the boundary register captures them (R522), by the number of the draw. DESIGN CHOICE (log entry 34). -/
opaque lands : Nat → BitVec 212

end Sys2Proof.Config
end

