-- ==== Sys2Proof/Machine/State.lean ====
section
/-! DEFINITION. The state of the device as plain data, the reasons a step can stop, and the state at reset.
Every large collection is a `Tbl`: a list of (key, value) pairs, keys strictly rising, no entry equal to the default. -/

namespace Sys2Proof.Machine

open Sys2Proof

/-- A sparse table in canonical form: keys strictly rising, no stored value equal to the table's default. -/
abbrev Tbl (α : Type) := List (Nat × α)

/-- Why a step stops. The spec gives every command an effect, so no meaning raises it. -/
inductive Fault where
  /-- Raised by no meaning; it stands so that the type is inhabited. Safe. -/
  | none
  deriving DecidableEq, Repr

/-- Why a command has no meaning. -/
inductive Refusal where
  /-- Raised by an arm of `exec` whose command has no meaning yet. Safe. -/
  | notModelled (mnemonic : String)
  deriving DecidableEq, Repr

/-! ### Contexts (02, R34 to R36) -/

/-- The states of R35. -/
inductive CtxState where
  | free | building | run | aborted | releasing
  deriving DecidableEq, Repr

/-- A region entry (R226). -/
structure Region where
  valid : Bool
  base : BitVec 52
  limit : BitVec 52
  attr : BitVec 6
  deriving DecidableEq, Repr

/-- An entry of a context's event queue (R504): kind, page type, instance, code and eight words. -/
structure CtxEvent where
  kind : Nat
  ptype : Nat
  inst : Nat
  code : BitVec 16
  words : List Word
  deriving DecidableEq, Repr

/-- What the device holds for one context (R34): state, epoch, seed, key identities, region table, names, queues. -/
structure Ctx where
  st : CtxState := .free
  epoch : BitVec 16 := 0
  ackPending : Bool := false
  seed : Option Dword := none
  seedSet : Bool := false
  memKey : Option Nat := none
  sealKey : Option Nat := none
  objCounter : BitVec 32 := 0
  keySel : Nat := 0
  otkSlots : BitVec 4 := 0
  region : Tbl Region := []
  sealTab : BitVec 52 := 0
  /-- The programs that the owner loaded (R503): core, offset, bytes. -/
  loads : List (Nat × Nat × List Byte) := []
  map : Tbl Word := []
  tmo : Word := 1000000
  dlPolicy : Bool := false
  dlWindow : BitVec 16 := 100
  dlQuiet : List Nat := []
  dlRun : Nat := 0
  stopped : Bool := false
  events : List CtxEvent := []
  evDropped : BitVec 16 := 0
  deriving DecidableEq, Repr

/-! ### Harts (02, R37 to R47) -/

/-- A trap taken by a hart (R39, R42, R224, R227, R490). -/
inductive Trap where
  | illegal
  | loadFault (addr : Nat)
  | storeFault (addr : Nat)
  deriving DecidableEq, Repr

/-- What a hart is blocked in (R41, R44, R47, R66, R254). -/
inductive Block where
  | push (rd : Nat) (rs1 : Dword) (desc : List Byte)
  | vec (rd : Nat) (rs1 rs2 : Dword) (close : Bool)
  | cwait (rd tag : Nat)
  | cnext (rd : Nat)
  | eack (rd : Nat)
  | sync (rd : Nat)
  deriving DecidableEq, Repr

/-- One hart: binding, staging buffer, destination registers, ring, and what holds it (R37 to R41, R58). -/
structure Hart where
  bound : Bool := false
  ctx : Nat := 0
  staging : Tbl Dword := []
  x : Tbl Dword := []
  head : BitVec 8 := 0
  phase : Bool := true
  tail : BitVec 8 := 0
  tailPhase : Bool := true
  ring : List Nat := []
  blocked : Option Block := none
  trap : Option Trap := none
  stopped : Bool := false
  halted : Bool := false
  /-- The contexts that it has been bound to and that are not yet zeroised (R36, R539). -/
  was : List Nat := []
  deriving DecidableEq, Repr

/-! ### Operations, tags and queues (02, R48 to R62) -/

/-- A tag in use (R54, R57): its context and hart, whether its record is written, and whether the hart waits to consume it. -/
structure TagInfo where
  ctx : Nat
  hart : Nat
  recorded : Bool
  deriving DecidableEq, Repr

/-- An operation: what was pushed, for whom, and how far it has come. `hdr` is the common header (R49), `body` the 64 bytes. -/
structure Op where
  tag : Nat
  ctx : Nat
  hart : Nat
  epoch : BitVec 16
  engine : Nat
  kind : Nat := 4
  hdr : Dword := 0
  body : List Byte := []
  /-- 0 queued, 1 checked at the head (its fence is pending), 3 waiting for its flag, 2 ready to start; 4 a started operation
  whose data is on its way over Griros or whose timed or harvesting work is under way; 5 refused at the head for a name of its
  header (R51). -/
  phase : Nat := 0
  /-- The queue it was pushed to. -/
  queue : Nat := 0
  status : BitVec 16 := 0
  done : Bool := false
  stop : BitVec 16 := 0
  mark : Bool := false
  rflags : BitVec 16 := 0
  payload : List Word := []
  /-- The region table of its context as it was when the operation started (R227). -/
  rgn : Tbl Region := []
  deriving DecidableEq, Repr

/-! ### Pans (04) -/

/-- A cached copy of a tensor entry homed elsewhere (R145): its key, its current step, and what an answer is made of. -/
structure SalCopy where
  key : Nat
  step : Word
  hist : List (BitVec 16)
  headroom : Nat
  rung : Nat
  deriving DecidableEq, Repr

/-- A scale request to a salinometer (R143), or a correction (R128): who asks, for which tensor, and the answer of the home.
`unit` is 0 for the pan and 1 for the vector unit of the bay; `fmt` is 0 F4, 1 F8, 2 F8W. A correction names its crust, the
largest magnitude (FP32) and the scale that saturated. The answer: crust scale, effective format (3 wide), cold pass, with the entry
that a fetch brings (R145). `seq` orders requests by arrival (R129). -/
structure SalReq where
  engine : Nat
  unit : Nat
  operand : Nat
  ctx : Nat
  tid : Word
  step : Word
  fmt : Nat
  crust : Nat := 0
  amax : Word := 0
  base : BitVec 16 := 0
  answer : Option (BitVec 16 × Nat × Bool) := none
  copy : Option SalCopy := none
  seq : Nat := 0
  deriving DecidableEq, Repr

/-- An outlier of A (R124): row, position in the tile, value. -/
structure Outlier where
  row : Nat
  k : Nat
  x : Word
  deriving DecidableEq, Repr

/-- The scale that an operand has for the running tile: crust scale, effective format (0 F4, 1 F8, 2 F8W, 3 wide), whether it
is chosen by a cold pass, and whether the salinometer was asked and has answered. -/
structure OpScale where
  c : BitVec 16 := 0
  eff : Nat := 0
  cold : Bool := false
  asked : Bool := false
  known : Bool := false
  deriving DecidableEq, Repr

/-- A crust whose flakes saturated, with its largest magnitude (as FP32) and the corrected scale when it is answered (R128). -/
structure SatCrust where
  operand : Nat
  crust : Nat
  amax : Word
  scale : Option (BitVec 16) := none
  deriving DecidableEq, Repr

/-- Counts of one run of a tile's quantisation, for observations (R150). -/
structure TileObs where
  amax : Word := 0
  n : Nat := 0
  z : Nat := 0
  sat : Nat := 0
  nonfin : Nat := 0
  deriving DecidableEq, Repr

/-- How an operand of a tile fares (R127, R130, R153): what the tile's final run was, and its observation. -/
structure OpRun where
  scale : OpScale := {}
  /-- Crusts that the replay is to run with a corrected scale (R128). -/
  sat : List SatCrust := []
  obs : TileObs := {}
  /-- The operand's effective format in the final run. -/
  eff : Nat := 3
  replayed : Bool := false
  corrected : Bool := false
  late : Bool := false
  /-- Ring slots that the pan holds (R118), and whether it waits for credit. -/
  held : Nat := 0
  waits : Bool := false
  deriving DecidableEq, Repr

/-- What a late fall-back of the running tile gives (R130): the accumulators of the rerun from the shadow, B as it uses it, and how
its operands fare. -/
structure LateRun where
  acc : List Word
  bTile : List Word
  a : OpRun
  b : OpRun
  deriving DecidableEq, Repr

/-- A pan (R107 to R133). `stage`: 0 idle, 1 started, 2 tile opened (checkpoint taken, scales asked), 3 tile run,
4 replay pending, 5 replay or late fall-back run, 6 reduction done, 8 reconversion pending, 9 finished. -/
structure Pan where
  stage : Nat := 0
  tile : Nat := 0
  /-- The slots of the tile are filled (R118). -/
  ready : Bool := false
  acc : List Word := []
  bit : List Word := []
  ckAcc : List Word := []
  ckBit : List Word := []
  a : OpRun := {}
  b : OpRun := {}
  d : OpRun := {}
  gidx : List Nat := []
  outliers : List Outlier := []
  capMiss : Bool := false
  /-- The rerun from the shadow that the events of the tile's first run call for under EVICT_OK (R127, R130). -/
  lateRun : Option LateRun := none
  /-- The final values of the block, held until its output conversion is complete (R131). -/
  outs : List (Option Word) := []
  /-- B of the tile widened to FP32, element (k, n) at k × N + n, for the bittern path (R125). -/
  bTile : List Word := []
  replays : Nat := 0
  lates : Nat := 0
  fallbacks : Nat := 0
  outMax : Nat := 0
  inSat : Bool := false
  nonfin : Bool := false
  oor : Bool := false
  outSat : Bool := false
  outNonfin : Bool := false
  reconv : Bool := false
  guardHit : Bool := false
  deriving DecidableEq, Repr

/-! ### Salinometers (05) -/

/-- Settings staged for the next close (R163). -/
structure SalStaged where
  headroom : Nat
  histLen : Nat
  policy : Nat
  zeroFrac : Nat
  uflow : Nat
  satSteps : Nat
  deriving DecidableEq, Repr

/-- A tensor entry (R142 to R159). -/
structure SalEntry where
  step : Word
  hist : List (BitVec 16) := []
  headroom : Nat
  histLen : Nat
  policy : Nat
  zeroFrac : Nat
  uflow : Nat
  satSteps : Nat
  rung : Nat := 0
  silentRun : Nat := 0
  satRun : Nat := 0
  pend : Bool := false
  pendAmax : Word := 0
  pendN : Nat := 0
  pendZ : Nat := 0
  pendCorr : Bool := false
  staged : Option SalStaged := none
  invalidate : Bool := false
  clearRung : Bool := false
  cnt : Tbl Nat := []
  ovf : BitVec 6 := 0
  deriving DecidableEq, Repr

/-- An observation on its way to its home (R150), with the replays and late fall-backs it reports (R153, R159). -/
structure SalObs where
  ctx : Nat
  tid : Word
  step : Word
  obs : TileObs
  corr : Bool
  replayed : Nat
  late : Nat
  cold : Bool
  /-- The final run quantised nothing of the tensor: only the counts of replays are recorded. -/
  statOnly : Bool
  deriving DecidableEq, Repr

/-- An event of a page queue: context, code and the LO word (R161, R286, R389). -/
structure PageEvent where
  ctx : Nat
  code : Nat
  info : Word
  deriving DecidableEq, Repr

/-- A salinometer (R142 to R167). -/
structure Sal where
  entries : Tbl SalEntry := []
  /-- Copies of entries homed elsewhere, the most recently used first (R145). -/
  cache : List SalCopy := []
  reqs : List SalReq := []
  corr : List SalReq := []
  obs : List SalObs := []
  evq : List PageEvent := []
  window : Option Nat := none
  /-- The written fields of SAL_WIN0 and SAL_WIN1, until the next LOOKUP loads them (R163). -/
  winW0 : Option Nat := none
  winW1 : Option Nat := none
  xfer : Option (Nat × Bool) := none
  xferSig : Option Nat := none
  deriving DecidableEq, Repr

/-! ### Vector units (06) -/

/-- The summary of a block (R201 to R203). -/
structure Summary where
  max : BitVec 16 := 0
  min : BitVec 16 := 0
  sum : Word := 0
  nonzero : Nat := 0
  sflags : BitVec 16 := 0
  valid : Bool := false
  deriving DecidableEq, Repr

/-- An item of a vector queue: a word of the block, or the trailer that closes it (R47). -/
inductive VItem where
  | word (w : Dword)
  | close (op : Op)
  deriving DecidableEq, Repr

/-- A fault of a block (R177, R206): code, word index, lane when it concerns one. -/
structure VFault where
  code : BitVec 16
  word : Nat
  lane : Option Nat
  deriving DecidableEq, Repr

/-- A vector unit (R168, R169). A tile register holds 1,024 lanes, lane (i, j) at i × 32 + j; one that is not listed holds +0 in
every lane, a mask register that is not listed all ones. Slot and parameter fields are at key number × 32 + FIELD. -/
structure Vec where
  v : Tbl (List Word) := []
  k : Tbl (BitVec 1024) := []
  rows : Nat := 32
  cols : Nat := 32
  slots : Tbl Word := []
  params : Tbl Word := []
  carry : Tbl Word := []
  sum : Summary := {}
  last : Option Summary := none
  q : List VItem := []
  owner : Option Nat := none
  words : Nat := 0
  held : Bool := false
  stq : Option Dword := none
  stqScale : OpScale := {}
  fault : Option VFault := none
  stop : BitVec 16 := 0
  deriving DecidableEq, Repr

/-! ### Mladaz (09) -/

/-- A waiter on an object: who, for which context and name, with its mode or generation or credit count. -/
structure WaitEnt where
  who : Waiter
  ctx : Nat
  vid : Nat
  clears : Bool
  arg : Nat
  /-- The wait has no timeout (R256, R277). -/
  noTmo : Bool
  /-- Order of arrival among all waits. -/
  seq : Nat
  deriving DecidableEq, Repr

/-- A fault that names a context and an identifier that maps no object (R9). -/
structure NameFault where
  ctx : Nat
  vid : Nat
  deriving DecidableEq, Repr

/-- The last signalling operation on an object (R284). -/
structure LastSig where
  source : BitVec 20 := 0
  op : BitVec 8 := 0
  remote : Bool := false
  stamp : Word := 0
  deriving DecidableEq, Repr

/-- A flag (R251, R258, R307). -/
structure Flag where
  set : Bool := false
  coalesce : BitVec 16 := 0
  mark : Bool := false
  waiters : List WaitEnt := []
  last : LastSig := {}
  deriving DecidableEq, Repr

/-- A barrier's configuration (R261): the mask as participant indices, the remote nodes, the release actions. -/
structure BarConf where
  mask : List Nat := []
  remote : List Nat := []
  relFlagEn : Bool := false
  relFlag : Nat := 0
  relRemoteEn : Bool := false
  relMode : Nat := 0
  relRid : Nat := 0
  relNode : Nat := 0
  deriving DecidableEq, Repr

/-- A barrier (R251, R264, R306): arrivals are participant indices, 576 + i for remote participant i. -/
structure Barrier where
  conf : BarConf := {}
  gen : BitVec 16 := 0
  arr : List Nat := []
  lap : List Nat := []
  mark : Bool := false
  lapMark : Bool := false
  waiters : List WaitEnt := []
  last : LastSig := {}
  deriving DecidableEq, Repr

/-- A credit channel (R251, R268). -/
structure Credit where
  p : Word := 0
  c : Word := 0
  cap : Nat := 1
  faulted : Bool := false
  waiters : List WaitEnt := []
  last : LastSig := {}
  deriving DecidableEq, Repr

/-! ### Griros (10) -/

/-- A message between devices (R290): VC, header fields and data. -/
structure Msg where
  vc : Nat
  mtype : Nat
  jobTag : BitVec 16 := 0
  epoch : BitVec 16 := 0
  mark : Bool := false
  addr : Nat := 0
  len : Nat := 0
  xfer : Nat := 0
  sigId : Nat := 0
  sigMode : Nat := 0
  sigEn : Bool := false
  xferBytes : Nat := 0
  data : List Byte := []
  /-- Of a message being sent, its flits still to leave; of one received, the flit buffers that it frees when it is taken (R293). -/
  want : Nat := 0
  num : BitVec 16 := 0
  deriving DecidableEq, Repr

/-- A Griros flit in clear: the header fields of R289, and the payload bytes in use (R288). -/
structure Flit where
  ftype : BitVec 4
  vc : BitVec 2 := 0
  keyPhase : Bool := false
  seq : BitVec 24 := 0
  ack : BitVec 24 := 0
  nak : Bool := false
  crVc : BitVec 2 := 0
  crCount : BitVec 12 := 0
  lenM1 : BitVec 8 := 0
  msg : BitVec 16 := 0
  /-- A reserved bit of the header is not 0. -/
  reservedBits : Bool := false
  payload : List Byte := []
  deriving DecidableEq, Repr

/-- A flit that was sent and is not yet acknowledged (R294): its fields, the 256 bytes that left last (R288), and the message it belongs
to. -/
structure SentFlit where
  hdr : Flit
  image : List Byte := []
  xfer : Nat := 0
  job : BitVec 16 := 0
  mtype : Nat := 0
  /-- For a barrier release signal: context × 2^32 + what RELEASE_LOST names (R266). -/
  rel : Option Nat := none
  deriving DecidableEq, Repr

/-- The key of a direction of a link and its salt (R298). -/
structure LinkKey where
  key : BitVec 256
  salt : BitVec 32
  deriving DecidableEq, Repr

/-- A message waiting for credit on its VC, and the barrier a release signal came from. -/
structure TxMsg where
  msg : Msg
  rel : Option Nat := none
  deriving DecidableEq, Repr

/-- A Griros link (R289 to R298, R317). `state` is the code of R297. -/
structure Link where
  state : Nat := 0
  half : Bool := false
  degraded : Bool := false
  lanes : BitVec 8 := 0
  recalHalf : Nat := 0
  calibrated : Bool := false
  light : Bool := false
  retryWait : Bool := false
  peer : BitVec 20 := 0xFFFFF
  cause : Nat := 0
  diff : BitVec 5 := 0
  mismatch : Bool := false
  offset : Word := 0
  rtt : Word := 0
  txSeq : BitVec 24 := 0
  rxSeq : BitVec 24 := 0
  /-- The next flit sent asks for a replay (R294). -/
  nakDue : Bool := false
  replays : Nat := 0
  retryBuf : List SentFlit := []
  txq : List TxMsg := []
  /-- Flit credits spent on each VC (the sender's credit is the buffer minus these, R293). -/
  spent : Tbl Nat := []
  /-- Flit buffers of each VC that were freed and not yet returned (R293). -/
  freed : Tbl Nat := []
  /-- The VC among 1 to 3 whose turn it is (R292), and the number of the next message of each VC (R289). -/
  turn : Nat := 1
  msgNum : Tbl (BitVec 16) := []
  rxAsm : Tbl Msg := []
  rxMsgs : List Msg := []
  /-- Keys of the two directions, and that of the receiving direction after a rekeying until KEY_PHASE flips (R298). -/
  keyTx : Option LinkKey := none
  keyRx : Option LinkKey := none
  nextRx : Option LinkKey := none
  /-- This side's nonce of the KEYX under way (R298). -/
  nonce : Option (BitVec 256) := none
  keyPhaseTx : Bool := false
  keyPhaseRx : Bool := false
  rekeying : Bool := false
  /-- Flits that left and that arrived under the present keys (R298). -/
  txCount : Nat := 0
  rxCount : Nat := 0
  /-- An AGREE that waits for the end of RECAL (R297): one to run, one of the peer to answer. -/
  agreeDue : Bool := false
  agreeIn : Option Digest := none
  /-- The first stamp of the exchange of TIME messages under way (R303). -/
  t1 : Option Int := none
  deriving DecidableEq, Repr

/-- A link has its keys (R298). -/
def Link.keyed (l : Link) : Bool := l.keyTx.isSome

/-- A ring of a job (R320). -/
structure RingEnt where
  size : BitVec 20 := 0
  pos : BitVec 20 := 0
  prev : BitVec 20 := 0
  next : BitVec 20 := 0
  deriving DecidableEq, Repr

/-- A job slot (R299, R304, R320). -/
structure Job where
  valid : Bool := false
  ctx : Nat := 0
  abortProp : Bool := false
  timeOk : Bool := false
  rearm : Bool := false
  fresh : List Nat := []
  tag : BitVec 16 := 0
  bound : BitVec 16 := 1000
  id : Dword := 0
  seed : Dword := 0
  nbrNode : Tbl (BitVec 20) := []
  nbrLinks : Tbl (BitVec 12) := []
  rings : Tbl RingEnt := []
  /-- The links that have not been in UP since the last admission (R300); nothing before the first. -/
  waitUp : Option (List Nat) := none
  /-- The number of the next transfer (R290). -/
  xferNo : Word := 0
  deriving DecidableEq, Repr

/-- A transfer that a neighbour makes to or from this device (R301): its node, the job slot, its number, whether it reads, the bytes
moved so far, and whether an extent of it was refused. -/
structure RxXfer where
  node : Nat
  job : Nat
  xfer : Nat
  read : Bool := false
  written : Nat := 0
  refused : Bool := false
  deriving DecidableEq, Repr

/-- A transfer that a DMA descriptor of this device began with a neighbour (R301): its engine, number (the descriptor's tag), job
slot and links. For a read, the pieces still to come (address, bytes, link) and the bytes that came, by address. -/
structure TxXfer where
  engine : Nat
  xfer : Nat
  slot : Nat
  node : Nat
  links : List Nat
  read : Bool
  want : List (Nat × Nat × Nat) := []
  parts : Tbl (List Byte) := []
  deriving DecidableEq, Repr

/-- A collective under way (R310 to R315): its engine, job slot and ring, the phase (0 reduce-scatter, 1 gather, 2 broadcast) and
the hop that it waits for; the pieces that have come, at (phase × 2^21 + hop) × 2^40 + byte offset; the chunks of the output that
are known. -/
structure Coll where
  engine : Nat
  slot : Nat
  ring : Nat
  phase : Nat
  hop : Nat
  got : Tbl (List Byte) := []
  mine : Tbl (List Byte) := []
  /-- The input of a collective whose source is sealed, opened when it began (R454). -/
  text : Option (List Byte) := none
  deriving DecidableEq, Repr

/-! ### MACs (11) -/

/-- A descriptor ring of a MAC (R327). -/
structure MacRing where
  base : BitVec 52 := 0
  en : Bool := false
  log2 : Nat := 6
  bufsz : Nat := 16
  sigEn : Bool := false
  sigId : Nat := 0
  sw : BitVec 16 := 0
  hw : BitVec 16 := 0
  deriving DecidableEq, Repr

/-- A request record (R397): its MAC, number, port and stamp, bytes 0 to 127 of its window (a reply needs 6 to 127). `verdict`: none, or 0 for passed, else
the reason of R398, 5 for a lost link. -/
structure ReqRec where
  mac : Nat
  req : BitVec 16
  port : Nat
  stamp : Word
  bytes : List Byte
  /-- What the frame's checks found at its end: 0 passed, else the reason of R398; and its length is known to be above MAXLEN. -/
  ended : Option Nat := none
  long : Bool := false
  verdict : Option Nat := none
  /-- 0 no reply, 1 built, 2 staged, 3 committed, 4 ended. -/
  reply : Nat := 0
  /-- Parts 1 to 3 and the tag of the reply that was staged (R401). -/
  head : List Byte := []
  tag : List Byte := []
  /-- The port's link was lost before the last byte (R398). -/
  lost : Bool := false
  deriving DecidableEq, Repr

/-- A reply of the builder (R400, R402), or a record write with its signal that waits (R408): the number of the request record and
the record as the reply was built, the EGRESS tile and the payload. -/
structure Reply where
  recd : Nat
  req : ReqRec
  tile : Nat
  payload : List Dword
  deriving DecidableEq, Repr

/-- A frame in a transmit buffer (R331): class, bytes without padding and FCS, and where it came from: 0 ring entry, 1 forwarded,
2 reply, 3 recall, 4 PFC. `status` is the code its entry completes with. -/
structure TxFrame where
  cls : Nat
  bytes : List Byte
  src : Nat
  /-- TS of a ring entry (R421); of a forwarded frame, that it came in clear (R422). -/
  ts : Bool := false
  entry : Nat := 0
  /-- The reply that the frame carries (R402). -/
  reply : Option Reply := none
  /-- Ingress stamp of a forwarded frame in TB0, in units of 2^−16 ns (R422). -/
  ingress : Nat := 0
  status : BitVec 16 := 0
  prot : Bool := false
  /-- Once it begins: the frame as it stands on the wire, padded, protected and with its FCS (R328, R340), and the bytes that its earlier
  fragments have carried (R332). -/
  wire : List Byte := []
  sent : Nat := 0
  deriving DecidableEq, Repr

/-- A frame that has passed its checks and stands in the receive FIFO (R330, R339, R342): ring 0 to 7, or 8 to be forwarded. `nap`: it
waits for the hub to resume. -/
structure HeldFrame where
  bytes : List Byte
  len : Nat
  dest : Nat
  slot : Option Nat
  sec : Bool
  stamp : Word
  cls : Nat
  ingress : Nat
  nap : Bool
  /-- A wake frame of a STEER slot: the slot under which it is offered after the resume, and its parse window (R339, R394). -/
  offer : Option (Nat × List Byte) := none
  deriving DecidableEq, Repr

/-- A connectivity association key of MACsec and its name (R449, R503). -/
structure Cak where
  ckn : List Byte
  key : BitVec 256
  deriving DecidableEq, Repr

/-- The key of an SA of MACsec, and what its PN is combined with to an IV under XPN (R340). -/
structure Sak where
  key : BitVec 256
  iv : BitVec 96
  deriving DecidableEq, Repr

/-- A receive SC of MACsec: its SCI, and of each AN whose SA is installed the PN expected next and the key (R340). -/
structure RxSc where
  sci : Dword := 0
  pn : Tbl Nat := []
  sak : Tbl Sak := []
  deriving DecidableEq, Repr

/-- A time base (R413). -/
structure TimeBase where
  sec : BitVec 48 := 0
  ns : Nat := 0
  frac : Word := 0
  deriving DecidableEq, Repr

/-- What is known of the frame that arrives (R337, R338, R391, R419): the slot that it matches in the table as it stood, with its action and
ring, whether the filter was in HASH mode, the request record if a fabric accepted it, whether the FIFO had no room, and the four bases at
its first bit. -/
structure Arrival where
  slot : Option Nat := none
  action : Nat := 0
  ring : Nat := 0
  hash : Bool := false
  offered : Bool := false
  recd : Option Nat := none
  full : Bool := false
  times : List TimeBase := []
  deriving DecidableEq, Repr

/-- A MAC instance (R321 to R345). -/
structure Mac where
  up : Bool := false
  preempt : Bool := false
  rings : Tbl MacRing := []
  slots : Tbl Word := []
  xoff : Bool := false
  /-- PFC frames to send (R335): the quanta of each, 0 to resume. -/
  pfcPend : List Nat := []
  held : List HeldFrame := []
  staged : List TxFrame := []
  cur : Option TxFrame := none
  cut : Option TxFrame := none
  timers : Tbl Nat := []
  txAn : Option Nat := none
  txPn : Nat := 0
  txSak : Option Sak := none
  rxSc : Tbl RxSc := []
  cak : Option Cak := none
  /-- The slot decision of the frame now arriving (R391). -/
  steer : Option Arrival := none
  /-- Frames of class 7 that recalls displaced, to be staged again (R403). -/
  back : List TxFrame := []
  /-- Requests accepted by a fabric whose verdict is not yet known, oldest first. -/
  open_ : List Nat := []
  nextReq : BitVec 16 := 0
  lastFinal : BitVec 16 := 0xFFFF
  deriving DecidableEq, Repr

/-! ### Ouvvos (12, 13) -/

/-- A tile of a fabric (R346 to R366): configuration, queues, output buffers, stores and operation state. -/
structure Tile where
  conf : Bool := false
  ttype : Nat := 0
  op : Nat := 0
  qa : Nat := 0
  qb : Nat := 0
  qc : Nat := 0
  grain : Bool := false
  p0 : Word := 0
  p1 : Word := 0
  p2 : Word := 0
  p3 : Word := 0
  a : List Token := []
  b : List Token := []
  c : List Token := []
  out0 : List Token := []
  out1 : List Token := []
  /-- Results that wait for room in the output buffer of port 0, of port 1. -/
  spill0 : List Token := []
  spill1 : List Token := []
  weights : List Byte := []
  scales : List (BitVec 16) := []
  accs : List Word := []
  pos : Nat := 0
  group : List Token := []
  groupOpen : Bool := false
  count : Word := 0
  bucket : Nat := 0
  zipA : Nat := 0
  wptr : Nat := 0
  rep : Nat := 0
  posts : Nat := 0
  fifo : List Token := []
  /-- The addresses of the reads that MREAD has sent and that are not answered, oldest first (R360). -/
  reads : List Nat := []
  sel : Option Token := none
  fault : Bool := false
  /-- INGRESS: tokens of the request still to be emitted; EGRESS: the MARK that was read. -/
  deliver : List Token := []
  mark : Option Token := none
  deriving DecidableEq, Repr

/-- A destination of a route (R349, R370): source tile and port, destination tile and port, waypoint tile (the source without one). -/
structure Dest where
  src : Nat
  port : Nat
  tile : Nat
  inPort : Nat
  way : Nat
  deriving DecidableEq, Repr

/-- An Ouvvos fabric (R346 to R412). `pstate`: 0 RUN, 1 DOZE, 2 SLEEP, 3 waking. -/
structure Fabric where
  ctx : Option Nat := none
  images : Tbl (List Byte) := []
  active : Option Nat := none
  epoch : BitVec 2 := 0
  pstate : Nat := 0
  /-- A harvest has completed and no token has entered since (R375). -/
  harvested : Bool := false
  ingress : Bool := false
  harvesting : Bool := false
  /-- The epoch of the context was incremented while a harvest ran (R384). -/
  reopenDue : Bool := false
  stalled : Bool := false
  force : Option Nat := none
  staleSeen : Bool := false
  tiles : Tbl Tile := []
  /-- Words of the MEM tiles: key tile × 4,096 + word. -/
  mems : Tbl Dword := []
  dests : List Dest := []
  /-- Skid buffers (R348, R349): the tokens of a route that stand at a tile, at (source × 2 + port) × 1,024 + tile. -/
  skids : Tbl (List Token) := []
  /-- Tokens of an earlier epoch that a forced switch left on links: tile and port that each will reach (R383). -/
  stray : List (Nat × Nat × Token) := []
  evq : List PageEvent := []
  /-- Number of the next request record (R397), and the records. -/
  next : Nat := 0
  recs : Tbl ReqRec := []
  /-- The reply in the builder, and those that class 7 gave back to it (R403). -/
  builder : List Reply := []
  /-- Record writes and signals that wait for their verdict or for room, oldest first (R408). -/
  memq : List Reply := []
  deriving DecidableEq, Repr

/-! ### Time (14) -/

/-- The steering of TB1 or TB2 (R417, R418). -/
structure Steer where
  rate : Int := 0
  slewRate : Int := 0
  slewTicks : Nat := 0
  stepped : Bool := false
  deriving DecidableEq, Repr

/-- A trigger comparator (R426 to R428); `ctl` is TIME_TRIG_CTL. -/
structure Trig where
  owner : Option Nat := none
  ctl : Word := 0
  ns : Nat := 0
  sec : BitVec 48 := 0
  period : Nat := 0
  addr : BitVec 52 := 0
  value : Dword := 0
  /-- It was armed with AT already passed. -/
  overdue : Bool := false
  /-- WRITE_SIGNAL writes that have been issued and are not yet acknowledged, oldest first: the context, SIG_ID and SIG_MODE of each. -/
  pend : List (Nat × Nat × Nat) := []
  deriving DecidableEq, Repr

/-- Per-reader registers of the time page (R416, R426). -/
structure TimeReader where
  base : Nat := 3
  held : TimeBase := {}
  trig : Nat := 0
  deriving DecidableEq, Repr

/-- The time unit (R413 to R433). -/
structure TimeUnit where
  /-- The always-on PLL ticks (R434, R511). -/
  running : Bool := false
  tb : Tbl TimeBase := []
  /-- The steering of TB1 and TB2, by base. -/
  steer : Tbl Steer := []
  /-- The base that TB3 follows, and whether it has taken its one step (R424). -/
  active : Nat := 0
  stepped : Bool := false
  slewing : Bool := false
  /-- A write of SRC after the step asked for a move to that base once it reads VALID (R424). -/
  move : Option Nat := none
  readers : Tbl TimeReader := []
  trigs : Tbl Trig := []
  /-- Comparators whose firing tick has come, in the order in which they issue (R427). -/
  due : List Nat := []
  /-- Nanoseconds of pulse left on each output pin (R429). -/
  pins : Tbl Nat := []
  /-- The four bases that a capture slot holds (R430). -/
  caps : Tbl (List TimeBase) := []
  /-- PTP stamp entries, five words each (R420). -/
  stampq : List (List Word) := []
  deriving DecidableEq, Repr

/-! ### Power, security, service, boot, host (15 to 19) -/

/-- A die's power (R436, R437). `state`: 0 RUN, 1 IDLE, 2 NAP, 3 OFF; `target` while a transition runs. -/
structure DiePower where
  req : Nat := 2
  state : Nat := 3
  target : Option Nat := none
  held : Option Nat := none
  thermal : Bool := false
  thermCeil : Nat := 64
  trained : Bool := false
  deriving DecidableEq, Repr

/-- A temperature sensor (R444, R445). -/
structure Sensor where
  temp : Int := 0
  warn : Bool := false
  tripped : Bool := false
  deriving DecidableEq, Repr

/-- A stack (R231 to R248): fence, training, refresh rate, patrol position. -/
structure Stack where
  fenceReq : Bool := false
  fenced : Bool := false
  training : Bool := false
  trainFail : Bool := false
  hot : Bool := false
  halved : Bool := false
  scrub : Nat := 0
  deriving DecidableEq, Repr

/-- What the vault holds of an image kind (R457 to R460): digest, VERSION and SVN. -/
structure ImageInfo where
  version : Word := 0
  svn : Nat := 0
  digest : List Byte := []
  deriving DecidableEq, Repr

/-- An owner transport key (R453): its 256 bits, its SEALER and its object counter. -/
structure Otk where
  key : BitVec 256
  sealer : BitVec 32
  counter : BitVec 32
  deriving DecidableEq, Repr

/-- The vault (R447 to R467). -/
structure Sec where
  /-- 0 MANUFACTURE, 1 PROVISIONED, 2 FIELD, 3 RETURN, 4 DEFUNCT. -/
  lc : Nat := 2
  lcNext : Option Nat := none
  defunctPending : Bool := false
  ownerSlot : Nat := 0
  ownerValid : Bool := true
  slotsUsed : Nat := 1
  ownerHash : List Byte := []
  nextOwnerHash : List Byte := []
  latched : BitVec 5 := 0
  fuse : Tbl Nat := []
  policy : Option ImageInfo := none
  claimPolicy : List Byte := []
  otk : Tbl Otk := []
  running : Tbl ImageInfo := []
  staged : Option (Nat × ImageInfo) := none
  /-- 0 idle, 1 verifying, 2 accepted, 3 refused. -/
  imgState : Nat := 0
  imgReason : Nat := 0
  imgKind : Nat := 0
  nonce : List Word := []
  pbk : Option Nat := none
  /-- The fuse rows of the HUK and of the IDK hold their keys; overwritten to all ones by a tamper and by the entry to DEFUNCT (R449, R465). -/
  huk : Bool := true
  idk : Bool := true
  /-- The bytes fetched for the verification under way (R456). -/
  img : List Byte := []
  deriving DecidableEq, Repr

/-- An error record before its SEQ (R471). -/
structure ErrRec where
  words : List Word
  deriving DecidableEq, Repr

/-- A fence write held while another fence runs (R476): part kind (0 bay, 1 laser module, 2 link), part, fence or unfence. -/
structure FenceReq where
  kind : Nat
  part : Nat
  on : Bool
  deriving DecidableEq, Repr

/-- The service page's live state (R468 to R485). -/
structure Svc where
  log : List ErrRec := []
  seq : BitVec 16 := 0
  bays : List Nat := []
  lmods : List Nat := []
  links : List Nat := []
  busy : Option FenceReq := none
  held : List FenceReq := []
  /-- 0 idle, 1 applying, 2 done, 3 failed. -/
  updState : Nat := 0
  updAt : Nat := 0
  updKind : Nat := 0
  updLeft : List Nat := []
  /-- The image that the apply under way brings. -/
  updImg : Option ImageInfo := none
  /-- Versions of instances that do not run the VERSION of the running image of their kind (R481): key kind × 65,536 + instance. -/
  instVer : Tbl Word := []
  deriving DecidableEq, Repr

/-- A measurement block (R460): its index, the digest that it holds, and its other values in the order of R460. -/
structure Meas where
  index : Nat
  digest : List Byte := []
  vals : List Nat := []
  deriving DecidableEq, Repr

/-- A response of the mailbox (R502). CODE 0x10000 stands for an answer to SPDM GET_MEASUREMENTS (R460), with its blocks, the nonce
and the signature over them. -/
structure Resp where
  code : Nat
  status : Nat
  dcode : BitVec 16 := 0
  index : Nat := 0
  body : List Byte := []
  blocks : List Meas := []
  nonce : List Byte := []
  sig : List Byte := []
  deriving DecidableEq, Repr

/-- Rails, boot and test access (R505 to R525). -/
structure Boot where
  standby : Bool := false
  alwaysOn : Bool := false
  mainRail : Bool := false
  hub : Bool := false
  rom : Bool := false
  romDone : Bool := false
  portOn : Bool := false
  perst : Bool := false
  inTamper : Bool := false
  stage : Nat := 0
  need : List Nat := []
  cause : Nat := 0
  /-- The reset under way is warm (calibration, PBK and stacked memory kept). -/
  warm : Bool := false
  wdnRun : Nat := 0
  tapIr : BitVec 8 := 0x01
  /-- The register that the instruction selects, as it captures it, and the boundary register (R522). -/
  tapDr : Word := 0
  bsr : BitVec 212 := 0
  lands : Bool := false
  testHold : Bool := false
  lbRun : Tbl Nat := []
  lbLock : Tbl (BitVec 8) := []
  lbPass : Tbl (BitVec 8) := []
  lbRefused : Bool := false
  /-- Laser modules: seated, emitting (R31, R519, R535). -/
  seated : List Nat := [0, 1, 2, 3, 4, 5, 6, 7]
  lit : List Nat := []
  stable : List Nat := []
  /-- Optical engines whose feed was shut by a trip (R445), and engines calibrated. -/
  shut : List Nat := []
  engCal : List Nat := []
  deriving DecidableEq, Repr

/-- The host port (R497 to R506). -/
structure HostPort where
  up : Bool := false
  speed : Nat := 0
  width : Nat := 0
  flit : Bool := false
  cxl : BitVec 3 := 0
  vfs : Nat := 0
  mbx : List (Nat × Nat) := []
  sessions : List Nat := []
  resp : Tbl Resp := []
  msix : List Nat := []
  events : List CtxEvent := []
  evDropped : BitVec 16 := 0
  lastRead : List Byte := []
  deriving DecidableEq, Repr

/-- The whole device, and the queue of the commands that wait. -/
structure State where
  /-- Register bits whose home is their page (R494 and every block): key page × 4,096 + offset; default the reset value. -/
  regs : Tbl Word := []
  /-- 48-bit counters (R141): key page × 256 + index. -/
  cnts : Tbl Nat := []
  ctxs : Tbl Ctx := []
  /-- Tag quotas (R55): key context × 8 + saltern. -/
  quota : Tbl Nat := []
  harts : Tbl Hart := []
  tags : Tbl TagInfo := []
  /-- Owner of a queue (R48): key engine × 4 + queue, value the context. -/
  owner : Tbl Nat := []
  /-- Grants (R45): key (engine × 4 + queue) × 258 + hart. -/
  explicit : Tbl Nat := []
  grants : Tbl Nat := []
  /-- Descriptor queues: key engine × 4 + queue. -/
  queues : Tbl (List Op) := []
  /-- Operations under way: key engine × 2 + unit. -/
  running : Tbl Op := []
  /-- The queue of a DMA engine whose turn is next (R48), by engine. -/
  rr : Tbl Nat := []
  pans : Tbl Pan := []
  sals : Tbl Sal := []
  vecs : Tbl Vec := []
  /-- The physical address space (R223). -/
  mem : List Host.Cell := []
  /-- The key that each 64-byte granule of stacked memory was last written under; 0 is no encryption (R237, R238). -/
  memTag : Tbl Nat := []
  flags : Tbl Flag := []
  barriers : Tbl Barrier := []
  credits : Tbl Credit := []
  syncEvq : List PageEvent := []
  /-- The faults of R9, oldest first. -/
  nameFaults : List NameFault := []
  /-- The context whose object the debug view shows, once one was captured (R283). -/
  dbgCtx : Option Nat := none
  /-- Objects of a context changed since the last report of a die: key die × 64 + context (R278). -/
  touched : List Nat := []
  lends : List Nat := []
  links : Tbl Link := []
  jobs : Tbl Job := []
  rxXfers : List RxXfer := []
  txXfers : List TxXfer := []
  colls : List Coll := []
  macs : Tbl Mac := []
  fabrics : Tbl Fabric := []
  time : TimeUnit := {}
  dies : Tbl DiePower := []
  gated : List Nat := []
  sensors : Tbl Sensor := []
  hbms : Tbl Stack := []
  sramScrub : Tbl Nat := []
  ceil : Nat := 64
  watts : Nat := 0
  amps : Nat := 0
  meshFailed : List Nat := []
  /-- Directions of mesh connections that traffic has crossed since their byte counters were last read (R24, R510): connection × 2,
  and one more for direction B. -/
  crossed : List Nat := []
  sec : Sec := {}
  svc : Svc := {}
  boot : Boot := {}
  host : HostPort := {}
  /-- The value a register read of a COUNTER_LO_READ or the like last returned, by accessor key. -/
  readVal : Tbl Word := []
  /-- Waits begun so far (R259: waiters are queued in order of arrival). -/
  waitSeq : Nat := 0
  /-- The model's own: how many free values have been drawn. -/
  free : Nat := 0
  /-- The commands that wait, first in, first out. -/
  pending : List Instr := []
  deriving DecidableEq, Repr

/-- The device before its standby rail rises: every register at its reset value (a table's default), nothing running. -/
def State.reset : State := {}

end Sys2Proof.Machine
end

