-- ==== Sys2Proof/Machine/RegTable.lean ====
section
/-! DEFINITION. The registers of every page, from the register tables of the spec: for each its offset, the bits of each
access type (R15) and its reset value. Live read-only fields are computed elsewhere; their reset here is the table's number. -/

namespace Sys2Proof.Machine

/-- A register of a page: offset, masks of the RW, W1C, WO (and WONCE) and RC bits (R15), reset value. -/
structure RegInfo where
  off : Nat
  rw : Word
  w1c : Word
  wo : Word
  rc : Word
  reset : Word
  deriving DecidableEq, Repr

/-- Registers of the common layout (18_registers.md, R494). -/
def regsCommon : List RegInfo :=
  [ ⟨0x000, 0x0, 0x0, 0x0, 0x0, 0x0⟩,  -- PAGE_ID
    ⟨0x004, 0x0, 0x0, 0x0, 0x0, 0x100⟩,  -- PAGE_REV
    ⟨0x008, 0x3, 0x0, 0x4, 0x0, 0x1⟩,  -- CTL
    ⟨0x00C, 0x0, 0x0, 0x0, 0x0, 0x0⟩,  -- STAT
    ⟨0x010, 0x0, 0xFFFFFFFF, 0x0, 0x0, 0x0⟩,  -- EVT_RAW
    ⟨0x014, 0xFFFFFFFF, 0x0, 0x0, 0x0, 0x0⟩,  -- EVT_EN
    ⟨0x018, 0x0, 0x0, 0x0, 0x0, 0x0⟩,  -- EVT_PEND
    ⟨0x01C, 0x0, 0x0, 0x0, 0xFFFFFFFF, 0x0⟩,  -- ERR_CODE
    ⟨0x020, 0x0, 0x0, 0x0, 0xFFFFFFFF, 0x0⟩,  -- ERR_INFO0
    ⟨0x024, 0x0, 0x0, 0x0, 0xFFFFFFFF, 0x0⟩,  -- ERR_INFO1
    ⟨0x028, 0x0, 0x0, 0x1, 0x0, 0x0⟩,  -- LOCK
    ⟨0x02C, 0x0, 0x0, 0x0, 0x0, 0x0⟩,  -- FW_VER
    ⟨0x030, 0x0, 0x0, 0x0, 0x0, 0x0⟩,  -- COMMON_RSVD0
    ⟨0x034, 0x0, 0x0, 0x0, 0x0, 0x0⟩,  -- COMMON_RSVD1
    ⟨0x038, 0x0, 0x0, 0x0, 0x0, 0x0⟩,  -- COMMON_RSVD2
    ⟨0x03C, 0x0, 0x0, 0x0, 0x0, 0x0⟩ ]  -- COMMON_RSVD3

/-- Registers of block type 0x01 (18_registers.md, R505). -/
def regsHost : List RegInfo :=
  [ ⟨0x040, 0x0, 0x0, 0x0, 0x0, 0x0⟩,  -- HOST_LINK
    ⟨0x044, 0x0, 0x0, 0x0, 0x0, 0x0⟩,  -- HOST_CXL
    ⟨0x048, 0x0, 0x0, 0x0, 0x0, 0x0⟩,  -- HOST_VFS
    ⟨0x04C, 0x1F, 0x0, 0x0, 0x0, 0x0⟩,  -- HOST_BAR2_BASE
    ⟨0x050, 0x7, 0x0, 0x0, 0x0, 0x0⟩,  -- HOST_IRQ_EN
    ⟨0x054, 0x7, 0x0, 0x0, 0x0, 0x0⟩,  -- HOST_CNT_SEL
    ⟨0x058, 0x0, 0x0, 0x0, 0xFFFFFFFF, 0x0⟩,  -- HOST_CNT_LO
    ⟨0x05C, 0x0, 0x0, 0x0, 0x0, 0x0⟩,  -- HOST_CNT_HI
    ⟨0x060, 0x0, 0x3F, 0x0, 0x0, 0x0⟩ ]  -- HOST_CNT_OVF

/-- Registers of block type 0x02 (18_registers.md, 19_startup_test.md, R507, R525). -/
def regsBoot : List RegInfo :=
  [ ⟨0x040, 0x0, 0x0, 0x0, 0x0, 0x0⟩,  -- BOOT_STAGE
    ⟨0x044, 0x0, 0x0, 0x0, 0x0, 0x0⟩,  -- BOOT_CAUSE
    ⟨0x048, 0x0, 0x0, 0xFFFF0003, 0x0, 0x0⟩,  -- BOOT_RST
    ⟨0x04C, 0xFFFF, 0x0, 0x80000000, 0x0, 0x0⟩,  -- BOOT_WDOG
    ⟨0x050, 0x0, 0x0, 0x0, 0x0, 0x0⟩,  -- BOOT_ROM_VER
    ⟨0x054, 0x7F, 0x0, 0x0, 0x0, 0x0⟩,  -- BOOT_LB_SEL
    ⟨0x058, 0x7, 0x0, 0x0, 0x0, 0x0⟩,  -- BOOT_LB_CTL
    ⟨0x05C, 0x0, 0x0, 0x0, 0x0, 0x0⟩,  -- BOOT_LB_STAT
    ⟨0x060, 0x0, 0x0, 0x0, 0xFFFFFFFF, 0x0⟩,  -- BOOT_LB_BITS_LO
    ⟨0x064, 0x0, 0x0, 0x0, 0x0, 0x0⟩,  -- BOOT_LB_BITS_HI
    ⟨0x068, 0x0, 0x0, 0x0, 0xFFFFFFFF, 0x0⟩,  -- BOOT_LB_ERR_LO
    ⟨0x06C, 0x0, 0x0, 0x0, 0x0, 0x0⟩,  -- BOOT_LB_ERR_HI
    ⟨0x070, 0x0, 0x3, 0x0, 0x0, 0x0⟩ ]  -- BOOT_LB_OVF

/-- Registers of block type 0x03 (16_security.md, R467). -/
def regsSec : List RegInfo :=
  [ ⟨0x040, 0x0, 0x0, 0x0, 0x0, 0x0⟩,  -- SEC_LC
    ⟨0x044, 0x0, 0x0, 0x0, 0x0, 0x0⟩,  -- SEC_TAMPER
    ⟨0x048, 0xF, 0x0, 0x0, 0x0, 0x0⟩,  -- SEC_SVN_SEL
    ⟨0x04C, 0x0, 0x0, 0x0, 0x0, 0x0⟩,  -- SEC_SVN
    ⟨0x050, 0xFFFFFFFF, 0x0, 0x0, 0x0, 0x0⟩,  -- SEC_IMG_ADDR_LO
    ⟨0x054, 0xFFFFF, 0x0, 0x0, 0x0, 0x0⟩,  -- SEC_IMG_ADDR_HI
    ⟨0x058, 0x1FFFFFFF, 0x0, 0x0, 0x0, 0x0⟩,  -- SEC_IMG_LEN
    ⟨0x05C, 0x0, 0x0, 0x1, 0x0, 0x0⟩,  -- SEC_IMG_CTL
    ⟨0x060, 0x0, 0x0, 0x0, 0x0, 0x0⟩,  -- SEC_IMG_STAT
    ⟨0x064, 0x0, 0x0, 0x0, 0x0, 0x0⟩,  -- SEC_LC_NONCE0
    ⟨0x068, 0x0, 0x0, 0x0, 0x0, 0x0⟩,  -- SEC_LC_NONCE1
    ⟨0x06C, 0x0, 0x0, 0x0, 0x0, 0x0⟩,  -- SEC_LC_NONCE2
    ⟨0x070, 0x0, 0x0, 0x0, 0x0, 0x0⟩,  -- SEC_LC_NONCE3
    ⟨0x074, 0x0, 0x0, 0x0, 0x0, 0x0⟩,  -- SEC_LC_NONCE4
    ⟨0x078, 0x0, 0x0, 0x0, 0x0, 0x0⟩,  -- SEC_LC_NONCE5
    ⟨0x07C, 0x0, 0x0, 0x0, 0x0, 0x0⟩ ] ++  -- SEC_LC_NONCE6
  [ ⟨0x080, 0x0, 0x0, 0x0, 0x0, 0x0⟩ ]  -- SEC_LC_NONCE7

/-- Registers of block type 0x04 (15_power.md, R446). -/
def regsPwr : List RegInfo :=
  [ ⟨0x040, 0x1FFF, 0x0, 0x0, 0x0, 0x11F8⟩,  -- PWR_LIMIT
    ⟨0x044, 0x0, 0x0, 0x0, 0x0, 0x0⟩,  -- PWR_INPUT
    ⟨0x048, 0xFFFF, 0x0, 0x0, 0x0, 0x14⟩,  -- PWR_LEND_THRESH
    ⟨0x04C, 0x0, 0x0, 0x0, 0x0, 0x40⟩,  -- PWR_GOV
    ⟨0x050, 0x3, 0x0, 0x0, 0x0, 0x80E⟩,  -- PWR_DIE0
    ⟨0x054, 0x3, 0x0, 0x0, 0x0, 0x80E⟩,  -- PWR_DIE1
    ⟨0x058, 0x3, 0x0, 0x0, 0x0, 0x80E⟩,  -- PWR_DIE2
    ⟨0x05C, 0x3, 0x0, 0x0, 0x0, 0x80E⟩,  -- PWR_DIE3
    ⟨0x060, 0x3, 0x0, 0x0, 0x0, 0x80E⟩,  -- PWR_DIE4
    ⟨0x064, 0x3, 0x0, 0x0, 0x0, 0x80E⟩,  -- PWR_DIE5
    ⟨0x068, 0x3, 0x0, 0x0, 0x0, 0x80E⟩,  -- PWR_DIE6
    ⟨0x06C, 0x3, 0x0, 0x0, 0x0, 0x80E⟩,  -- PWR_DIE7
    ⟨0x070, 0x3, 0x0, 0x0, 0x0, 0x800⟩,  -- PWR_DIE8
    ⟨0x074, 0xFFFF, 0x0, 0x0, 0x0, 0xA⟩,  -- PWR_BAY_GATE
    ⟨0x078, 0x3F, 0x0, 0x0, 0x0, 0x0⟩,  -- PWR_TEMP_SEL
    ⟨0x07C, 0x0, 0x0, 0x0, 0x0, 0x0⟩ ]  -- PWR_TEMP

/-- Registers of block type 0x05 (17_errors_service.md, R485). -/
def regsSvc : List RegInfo :=
  [ ⟨0x040, 0x0, 0x0, 0x0, 0x0, 0x0⟩,  -- SVC_ERRLOG_STAT
    ⟨0x044, 0x0, 0x0, 0x0, 0xFFFFFFFF, 0x0⟩,  -- SVC_ERRLOG_W0
    ⟨0x048, 0x0, 0x0, 0x0, 0x0, 0x0⟩,  -- SVC_ERRLOG_W1
    ⟨0x04C, 0x0, 0x0, 0x0, 0x0, 0x0⟩,  -- SVC_ERRLOG_W2
    ⟨0x050, 0x0, 0x0, 0x0, 0x0, 0x0⟩,  -- SVC_ERRLOG_W3
    ⟨0x054, 0x0, 0x0, 0x0, 0x0, 0x0⟩,  -- SVC_ERRLOG_W4
    ⟨0x058, 0x0, 0x0, 0x0, 0x0, 0x0⟩,  -- SVC_ERRLOG_W5
    ⟨0x05C, 0x0, 0x0, 0x0, 0x0, 0x0⟩,  -- SVC_ERRLOG_W6
    ⟨0x060, 0x0, 0x0, 0x0, 0x0, 0x0⟩,  -- SVC_ERRLOG_W7
    ⟨0x064, 0xFFFFFFFF, 0x0, 0x0, 0x0, 0x0⟩,  -- SVC_FENCE_BAY0
    ⟨0x068, 0xFFFFFFFF, 0x0, 0x0, 0x0, 0x0⟩,  -- SVC_FENCE_BAY1
    ⟨0x06C, 0xFFFFFFFF, 0x0, 0x0, 0x0, 0x0⟩,  -- SVC_FENCE_BAY2
    ⟨0x070, 0xFFFFFFFF, 0x0, 0x0, 0x0, 0x0⟩,  -- SVC_FENCE_BAY3
    ⟨0x074, 0xFFFFFFFF, 0x0, 0x0, 0x0, 0x0⟩,  -- SVC_FENCE_BAY4
    ⟨0x078, 0xFFFFFFFF, 0x0, 0x0, 0x0, 0x0⟩,  -- SVC_FENCE_BAY5
    ⟨0x07C, 0xFFFFFFFF, 0x0, 0x0, 0x0, 0x0⟩ ] ++  -- SVC_FENCE_BAY6
  [ ⟨0x080, 0xFFFFFFFF, 0x0, 0x0, 0x0, 0x0⟩,  -- SVC_FENCE_BAY7
    ⟨0x084, 0xFF, 0x0, 0x0, 0x0, 0x0⟩,  -- SVC_FENCE_LMOD
    ⟨0x088, 0xFFF, 0x0, 0x0, 0x0, 0x0⟩,  -- SVC_FENCE_LINK
    ⟨0x08C, 0x0, 0x0, 0x0, 0x0, 0x0⟩,  -- SVC_FENCE_STAT
    ⟨0x090, 0xFFFF000F, 0x0, 0x0, 0x0, 0xFFFF0000⟩,  -- SVC_UPD_SCOPE
    ⟨0x094, 0x0, 0x0, 0x1, 0x0, 0x0⟩,  -- SVC_UPD_CTL
    ⟨0x098, 0x0, 0x0, 0x0, 0x0, 0x0⟩,  -- SVC_UPD_STAT
    ⟨0x09C, 0xFFFFFFFF, 0x0, 0x0, 0x0, 0x3E8⟩,  -- SVC_QUIESCE_TMO
    ⟨0x0A0, 0x0, 0x0, 0x0, 0xFFFFFFFF, 0x0⟩,  -- SVC_CNT_ERRLOG_DROP_LO
    ⟨0x0A4, 0x0, 0x0, 0x0, 0x0, 0x0⟩,  -- SVC_CNT_ERRLOG_DROP_HI
    ⟨0x0A8, 0x0, 0x1, 0x0, 0x0, 0x0⟩ ]  -- SVC_CNT_OVF

/-- Registers of block type 0x06 (14_time.md, R432). -/
def regsTime : List RegInfo :=
  [ ⟨0x040, 0x3, 0x0, 0x0, 0x0, 0x3⟩,  -- TIME_RD_CTL
    ⟨0x044, 0x0, 0x0, 0x0, 0x0, 0x0⟩,  -- TIME_RD_NS
    ⟨0x048, 0x0, 0x0, 0x0, 0x0, 0x0⟩,  -- TIME_RD_SEC_LO
    ⟨0x04C, 0x0, 0x0, 0x0, 0x0, 0x0⟩,  -- TIME_RD_SEC_HI
    ⟨0x050, 0x0, 0x0, 0x0, 0x0, 0x0⟩,  -- TIME_RD_FRAC
    ⟨0x054, 0x7FFFF, 0x0, 0x0, 0x0, 0x40100⟩,  -- TIME_DOM
    ⟨0x058, 0x1FF0003, 0x0, 0x0, 0x0, 0x140000⟩,  -- TIME_TB3_CFG
    ⟨0x05C, 0x0, 0x0, 0x0, 0x0, 0x0⟩,  -- TIME_TB3_OFS
    ⟨0x060, 0x3, 0x0, 0x0, 0x0, 0x1⟩,  -- TIME_ADJ_SEL
    ⟨0x064, 0xFFFFFFFF, 0x0, 0x0, 0x0, 0x0⟩,  -- TIME_RATE
    ⟨0x068, 0xFFFFFFFF, 0x0, 0x0, 0x0, 0x0⟩,  -- TIME_SLEW_RATE
    ⟨0x06C, 0xFFFFFFFF, 0x0, 0x0, 0x0, 0x0⟩,  -- TIME_SLEW_TICKS
    ⟨0x070, 0xFFFFFFFF, 0x0, 0x0, 0x0, 0x0⟩,  -- TIME_STEP_LO
    ⟨0x074, 0xFFFFFFFF, 0x0, 0x0, 0x0, 0x0⟩,  -- TIME_STEP_HI
    ⟨0x078, 0x0, 0x0, 0x80000000, 0x0, 0x0⟩,  -- TIME_ADJ_STAT
    ⟨0x07C, 0xFF, 0x0, 0x0, 0x0, 0x0⟩ ] ++  -- TIME_TC_CFG
  [ ⟨0x080, 0xF, 0x0, 0x0, 0x0, 0x0⟩,  -- TIME_TRIG_SEL
    ⟨0x084, 0x8000003F, 0x0, 0x0, 0x0, 0x0⟩,  -- TIME_TRIG_OWN
    ⟨0x088, 0x3FFF01FF, 0x0, 0x0, 0x0, 0x0⟩,  -- TIME_TRIG_CTL
    ⟨0x08C, 0x3FFFFFFF, 0x0, 0x0, 0x0, 0x0⟩,  -- TIME_TRIG_NS
    ⟨0x090, 0xFFFFFFFF, 0x0, 0x0, 0x0, 0x0⟩,  -- TIME_TRIG_SEC_LO
    ⟨0x094, 0xFFFF, 0x0, 0x0, 0x0, 0x0⟩,  -- TIME_TRIG_SEC_HI
    ⟨0x098, 0xFFFFFFFF, 0x0, 0x0, 0x0, 0x0⟩,  -- TIME_TRIG_PERIOD
    ⟨0x09C, 0xFFFFFFF8, 0x0, 0x0, 0x0, 0x0⟩,  -- TIME_TRIG_ADDR_LO
    ⟨0x0A0, 0xFFFFF, 0x0, 0x0, 0x0, 0x0⟩,  -- TIME_TRIG_ADDR_HI
    ⟨0x0A4, 0xFFFFFFFF, 0x0, 0x0, 0x0, 0x0⟩,  -- TIME_TRIG_VAL_LO
    ⟨0x0A8, 0xFFFFFFFF, 0x0, 0x0, 0x0, 0x0⟩,  -- TIME_TRIG_VAL_HI
    ⟨0x0AC, 0x800FFFFF, 0x0, 0x0, 0x0, 0x8⟩,  -- TIME_PIN0
    ⟨0x0B0, 0x800FFFFF, 0x0, 0x0, 0x0, 0x8⟩,  -- TIME_PIN1
    ⟨0x0B4, 0x800FFFFF, 0x0, 0x0, 0x0, 0x8⟩,  -- TIME_PIN2
    ⟨0x0B8, 0x800FFFFF, 0x0, 0x0, 0x0, 0x8⟩,  -- TIME_PIN3
    ⟨0x0BC, 0xF, 0x0, 0x10, 0x0, 0x0⟩ ] ++  -- TIME_CAP_CTL
  [ ⟨0x0C0, 0x0, 0x3FF, 0x0, 0x0, 0x0⟩,  -- TIME_CAP_STAT
    ⟨0x0C4, 0x37, 0x0, 0x0, 0x0, 0x0⟩,  -- TIME_CAP_SEL
    ⟨0x0C8, 0x0, 0x0, 0x0, 0x0, 0x0⟩,  -- TIME_CAP_NS
    ⟨0x0CC, 0x0, 0x0, 0x0, 0x0, 0x0⟩,  -- TIME_CAP_SEC_LO
    ⟨0x0D0, 0x0, 0x0, 0x0, 0x0, 0x0⟩,  -- TIME_CAP_SEC_HI
    ⟨0x0D4, 0x0, 0x0, 0x0, 0x0, 0x0⟩,  -- TIME_CAP_FRAC
    ⟨0x0D8, 0x0, 0x0, 0x0, 0xFFFFFFFF, 0x0⟩,  -- TIME_SQ_W0
    ⟨0x0DC, 0x0, 0x0, 0x0, 0x0, 0x0⟩,  -- TIME_SQ_W1
    ⟨0x0E0, 0x0, 0x0, 0x0, 0x0, 0x0⟩,  -- TIME_SQ_W2
    ⟨0x0E4, 0x0, 0x0, 0x0, 0x0, 0x0⟩,  -- TIME_SQ_W3
    ⟨0x0E8, 0x0, 0x0, 0x0, 0x0, 0x0⟩,  -- TIME_SQ_W4
    ⟨0x0EC, 0x7, 0x0, 0x0, 0x0, 0x0⟩,  -- TIME_CNT_SEL
    ⟨0x0F0, 0x0, 0x0, 0x0, 0xFFFFFFFF, 0x0⟩,  -- TIME_CNT_LO
    ⟨0x0F4, 0x0, 0x0, 0x0, 0x0, 0x0⟩,  -- TIME_CNT_HI
    ⟨0x0F8, 0x0, 0x3F, 0x0, 0x0, 0x0⟩ ]  -- TIME_CNT_OVF

/-- Registers of block type 0x07 (18_registers.md, R510). -/
def regsMesh : List RegInfo :=
  [ ⟨0x040, 0x3F, 0x0, 0x0, 0x0, 0x0⟩,  -- MESH_SEL
    ⟨0x044, 0x0, 0x0, 0x0, 0x0, 0x1⟩,  -- MESH_STAT
    ⟨0x048, 0x0, 0x0, 0x0, 0x0, 0x3FFF⟩,  -- MESH_ALL
    ⟨0x04C, 0x0, 0x0, 0x0, 0xFFFFFFFF, 0x0⟩,  -- MESH_CNT_LO
    ⟨0x050, 0x0, 0x0, 0x0, 0x0, 0x0⟩,  -- MESH_CNT_HI
    ⟨0x054, 0x0, 0x3FFF, 0x0, 0x0, 0x0⟩ ]  -- MESH_CNT_OVF

/-- Registers of block type 0x08 (02_issuing_work.md, 18_registers.md, R70, R508). -/
def regsCc : List RegInfo :=
  [ ⟨0x040, 0x8000003F, 0x0, 0x0, 0x0, 0x0⟩,  -- CC_HART0_CTX
    ⟨0x044, 0x8000003F, 0x0, 0x0, 0x0, 0x0⟩,  -- CC_HART1_CTX
    ⟨0x048, 0x0, 0x0, 0x0, 0x0, 0x0⟩,  -- CC_HART0_STAT
    ⟨0x04C, 0x0, 0x0, 0x0, 0x0, 0x0⟩,  -- CC_HART1_STAT
    ⟨0x050, 0x0, 0x0, 0x0, 0x0, 0x100⟩,  -- CC_RING0
    ⟨0x054, 0x0, 0x0, 0x0, 0x0, 0x100⟩,  -- CC_RING1
    ⟨0x080, 0x0, 0x0, 0x0, 0x0, 0x0⟩,  -- CC_WDN_STATE
    ⟨0x084, 0x0, 0x0, 0x0, 0x0, 0x0⟩,  -- CC_WDN_HB
    ⟨0x088, 0x0, 0x0, 0x0, 0x0, 0x0⟩ ]  -- CC_WDN_MBX

/-- Registers of block type 0x09 (02_issuing_work.md, R539). -/
def regsCtx : List RegInfo :=
  [ ⟨0x040, 0x0, 0x0, 0x0, 0x0, 0x0⟩,  -- CC_CTX_STATE
    ⟨0x044, 0x7FF, 0x0, 0x0, 0x0, 0x0⟩,  -- CC_CTX_TAGQ0
    ⟨0x048, 0x7FF, 0x0, 0x0, 0x0, 0x0⟩,  -- CC_CTX_TAGQ1
    ⟨0x04C, 0x7FF, 0x0, 0x0, 0x0, 0x0⟩,  -- CC_CTX_TAGQ2
    ⟨0x050, 0x7FF, 0x0, 0x0, 0x0, 0x0⟩,  -- CC_CTX_TAGQ3
    ⟨0x054, 0x7FF, 0x0, 0x0, 0x0, 0x0⟩,  -- CC_CTX_TAGQ4
    ⟨0x058, 0x7FF, 0x0, 0x0, 0x0, 0x0⟩,  -- CC_CTX_TAGQ5
    ⟨0x05C, 0x7FF, 0x0, 0x0, 0x0, 0x0⟩,  -- CC_CTX_TAGQ6
    ⟨0x060, 0x7FF, 0x0, 0x0, 0x0, 0x0⟩,  -- CC_CTX_TAGQ7
    ⟨0x064, 0x0, 0x0, 0x0, 0x0, 0x0⟩ ]  -- CC_CTX_HARTS

/-- Registers of block type 0x0A (04_pans.md, R140). -/
def regsPan : List RegInfo :=
  [ ⟨0x040, 0x0, 0x0, 0x0, 0x0, 0x0⟩,  -- PAN_STATUS
    ⟨0x044, 0x0, 0x0, 0x0, 0x0, 0x0⟩,  -- PAN_CUR_TILE
    ⟨0x048, 0x0, 0x0, 0x0, 0xFFFFFFFF, 0x0⟩,  -- PAN_CNT_OPS_LO
    ⟨0x04C, 0x0, 0x0, 0x0, 0x0, 0x0⟩,  -- PAN_CNT_OPS_HI
    ⟨0x050, 0x0, 0x0, 0x0, 0xFFFFFFFF, 0x0⟩,  -- PAN_CNT_REPLAY_LO
    ⟨0x054, 0x0, 0x0, 0x0, 0x0, 0x0⟩,  -- PAN_CNT_REPLAY_HI
    ⟨0x058, 0x0, 0x0, 0x0, 0xFFFFFFFF, 0x0⟩,  -- PAN_CNT_LATE_LO
    ⟨0x05C, 0x0, 0x0, 0x0, 0x0, 0x0⟩,  -- PAN_CNT_LATE_HI
    ⟨0x060, 0x0, 0x0, 0x0, 0xFFFFFFFF, 0x0⟩,  -- PAN_CNT_OUTLIER_LO
    ⟨0x064, 0x0, 0x0, 0x0, 0x0, 0x0⟩,  -- PAN_CNT_OUTLIER_HI
    ⟨0x068, 0x0, 0x0, 0x0, 0xFFFFFFFF, 0x0⟩,  -- PAN_CNT_BUSY_LO
    ⟨0x06C, 0x0, 0x0, 0x0, 0x0, 0x0⟩,  -- PAN_CNT_BUSY_HI
    ⟨0x070, 0x0, 0x1F, 0x0, 0x0, 0x0⟩ ]  -- PAN_CNT_OVF

/-- Registers of block type 0x0B (06_vector.md, R206). -/
def regsVec : List RegInfo :=
  [ ⟨0x040, 0x0, 0x0, 0x0, 0x0, 0x0⟩,  -- VEC_STATUS
    ⟨0x044, 0x0, 0x0, 0x0, 0x0, 0x0⟩,  -- VEC_OPEN
    ⟨0x048, 0x0, 0x0, 0x0, 0x0, 0x3FF⟩,  -- VEC_SHAPE
    ⟨0x04C, 0x0, 0x0, 0x0, 0x0, 0x0⟩,  -- VEC_SFN_VER
    ⟨0x050, 0x0, 0x0, 0x0, 0xFFFFFFFF, 0x0⟩,  -- VEC_CNT_WORDS_LO
    ⟨0x054, 0x0, 0x0, 0x0, 0x0, 0x0⟩,  -- VEC_CNT_WORDS_HI
    ⟨0x058, 0x0, 0x0, 0x0, 0xFFFFFFFF, 0x0⟩,  -- VEC_CNT_BLOCKS_LO
    ⟨0x05C, 0x0, 0x0, 0x0, 0x0, 0x0⟩,  -- VEC_CNT_BLOCKS_HI
    ⟨0x060, 0x0, 0x0, 0x0, 0xFFFFFFFF, 0x0⟩,  -- VEC_CNT_BUSY_LO
    ⟨0x064, 0x0, 0x0, 0x0, 0x0, 0x0⟩,  -- VEC_CNT_BUSY_HI
    ⟨0x068, 0x0, 0x0, 0x0, 0xFFFFFFFF, 0x0⟩,  -- VEC_CNT_BITTERN_LO
    ⟨0x06C, 0x0, 0x0, 0x0, 0x0, 0x0⟩,  -- VEC_CNT_BITTERN_HI
    ⟨0x070, 0x0, 0x0, 0x0, 0xFFFFFFFF, 0x0⟩,  -- VEC_CNT_WAIT_LO
    ⟨0x074, 0x0, 0x0, 0x0, 0x0, 0x0⟩,  -- VEC_CNT_WAIT_HI
    ⟨0x078, 0x0, 0x1F, 0x0, 0x0, 0x0⟩ ]  -- VEC_CNT_OVF

/-- Registers of block type 0x0C (05_salinometer.md, R167). -/
def regsSal : List RegInfo :=
  [ ⟨0x040, 0xFF01FF, 0x0, 0x0, 0x0, 0x8000FA⟩,  -- SAL_DEF0
    ⟨0x044, 0xF0FFF, 0x0, 0x0, 0x0, 0x40040⟩,  -- SAL_DEF1
    ⟨0x048, 0x0, 0x0, 0x0, 0x0, 0x0⟩,  -- SAL_OCC
    ⟨0x04C, 0xFFFFFFFF, 0x0, 0x0, 0x0, 0x0⟩,  -- SAL_SEL_TID
    ⟨0x050, 0x3F, 0x0, 0x700, 0x0, 0x0⟩,  -- SAL_CMD
    ⟨0x054, 0xFFFFFFFF, 0x0, 0x0, 0x0, 0x0⟩,  -- SAL_WIN0
    ⟨0x058, 0xFFFFFFFF, 0x0, 0x0, 0x0, 0x0⟩,  -- SAL_WIN1
    ⟨0x05C, 0x0, 0x0, 0x0, 0x0, 0x0⟩,  -- SAL_WIN_STEP
    ⟨0x060, 0x0, 0x0, 0x0, 0x0, 0x0⟩,  -- SAL_WIN_EST
    ⟨0x064, 0x7, 0x3F00, 0x0, 0x0, 0x0⟩,  -- SAL_WIN_CSEL
    ⟨0x068, 0x0, 0x0, 0x0, 0xFFFFFFFF, 0x0⟩,  -- SAL_WIN_CNT_LO
    ⟨0x06C, 0x0, 0x0, 0x0, 0x0, 0x0⟩,  -- SAL_WIN_CNT_HI
    ⟨0x070, 0x0, 0x0, 0x0, 0xFFFFFFFF, 0x0⟩,  -- SAL_CNT_CORR_LO
    ⟨0x074, 0x0, 0x0, 0x0, 0x0, 0x0⟩,  -- SAL_CNT_CORR_HI
    ⟨0x078, 0x0, 0x0, 0x0, 0xFFFFFFFF, 0x0⟩,  -- SAL_CNT_CLOSE_LO
    ⟨0x07C, 0x0, 0x0, 0x0, 0x0, 0x0⟩ ] ++  -- SAL_CNT_CLOSE_HI
  [ ⟨0x080, 0x0, 0x0, 0x0, 0xFFFFFFFF, 0x0⟩,  -- SAL_CNT_LATE_OBS_LO
    ⟨0x084, 0x0, 0x0, 0x0, 0x0, 0x0⟩,  -- SAL_CNT_LATE_OBS_HI
    ⟨0x088, 0x0, 0x0, 0x0, 0xFFFFFFFF, 0x0⟩,  -- SAL_CNT_UNTRACKED_LO
    ⟨0x08C, 0x0, 0x0, 0x0, 0x0, 0x0⟩,  -- SAL_CNT_UNTRACKED_HI
    ⟨0x090, 0x0, 0x0, 0x0, 0xFFFFFFFF, 0x0⟩,  -- SAL_CNT_EVQ_DROP_LO
    ⟨0x094, 0x0, 0x0, 0x0, 0x0, 0x0⟩,  -- SAL_CNT_EVQ_DROP_HI
    ⟨0x098, 0x0, 0x1F, 0x0, 0x0, 0x0⟩,  -- SAL_CNT_OVF
    ⟨0x0A0, 0x0, 0x0, 0x0, 0xFFFFFFFF, 0x0⟩,  -- SAL_EVQ_LO
    ⟨0x0A4, 0x0, 0x0, 0x0, 0x0, 0x0⟩,  -- SAL_EVQ_HI
    ⟨0x0A8, 0xFFFFFFFF, 0x0, 0x0, 0x0, 0x0⟩,  -- SAL_XFER_ADDR_LO
    ⟨0x0AC, 0xFFFFF, 0x0, 0x0, 0x0, 0x0⟩,  -- SAL_XFER_ADDR_HI
    ⟨0x0B0, 0xFFFF, 0x0, 0x10000, 0x0, 0x0⟩,  -- SAL_XFER_CTL
    ⟨0x0B4, 0x0, 0x0, 0x0, 0x0, 0x0⟩,  -- SAL_XFER_STAT
    ⟨0x0B8, 0x0, 0x0, 0x0, 0x0, 0x0⟩ ]  -- SAL_XFER_SKIP

/-- Registers of block type 0x0D (08_memory.md, R249). -/
def regsMem : List RegInfo :=
  [ ⟨0x040, 0xFF01, 0x0, 0x0, 0x0, 0xC00⟩,  -- MEM_STK0_CTL
    ⟨0x044, 0xFF01, 0x0, 0x0, 0x0, 0xC00⟩,  -- MEM_STK1_CTL
    ⟨0x050, 0x0, 0x0, 0x0, 0xFFFFFFFF, 0x0⟩,  -- MEM_STK0_CE_LO
    ⟨0x054, 0x0, 0x0, 0x0, 0x0, 0x0⟩,  -- MEM_STK0_CE_HI
    ⟨0x058, 0x0, 0x0, 0x0, 0xFFFFFFFF, 0x0⟩,  -- MEM_STK0_UE_LO
    ⟨0x05C, 0x0, 0x0, 0x0, 0x0, 0x0⟩,  -- MEM_STK0_UE_HI
    ⟨0x060, 0x0, 0x0, 0x0, 0xFFFFFFFF, 0x0⟩,  -- MEM_STK1_CE_LO
    ⟨0x064, 0x0, 0x0, 0x0, 0x0, 0x0⟩,  -- MEM_STK1_CE_HI
    ⟨0x068, 0x0, 0x0, 0x0, 0xFFFFFFFF, 0x0⟩,  -- MEM_STK1_UE_LO
    ⟨0x06C, 0x0, 0x0, 0x0, 0x0, 0x0⟩,  -- MEM_STK1_UE_HI
    ⟨0x070, 0x0, 0x0, 0x0, 0xFFFFFFFF, 0x0⟩,  -- MEM_SRAM_CE_LO
    ⟨0x074, 0x0, 0x0, 0x0, 0x0, 0x0⟩,  -- MEM_SRAM_CE_HI
    ⟨0x078, 0x0, 0x0, 0x0, 0xFFFFFFFF, 0x0⟩,  -- MEM_SRAM_UE_LO
    ⟨0x07C, 0x0, 0x0, 0x0, 0x0, 0x0⟩,  -- MEM_SRAM_UE_HI
    ⟨0x080, 0x0, 0x0, 0x0, 0xFFFFFFFF, 0x0⟩,  -- MEM_CNT_HOSTDROP_LO
    ⟨0x084, 0x0, 0x0, 0x0, 0x0, 0x0⟩ ] ++  -- MEM_CNT_HOSTDROP_HI
  [ ⟨0x088, 0x0, 0x7F, 0x0, 0x0, 0x0⟩,  -- MEM_CNT_OVF
    ⟨0x090, 0x3F3F, 0x0, 0x0, 0x0, 0x0⟩,  -- MEM_RGN_SEL
    ⟨0x094, 0xFFFF0000, 0x0, 0x0, 0x0, 0x0⟩,  -- MEM_RGN_BASE_LO
    ⟨0x098, 0xFFFFF, 0x0, 0x0, 0x0, 0x0⟩,  -- MEM_RGN_BASE_HI
    ⟨0x09C, 0xFFFF0000, 0x0, 0x0, 0x0, 0x0⟩,  -- MEM_RGN_LIMIT_LO
    ⟨0x0A0, 0xFFFFF, 0x0, 0x0, 0x0, 0x0⟩,  -- MEM_RGN_LIMIT_HI
    ⟨0x0A4, 0x3F, 0x0, 0x0, 0x0, 0x0⟩,  -- MEM_RGN_ATTR
    ⟨0x0A8, 0xFFFFFFC0, 0x0, 0x0, 0x0, 0x0⟩,  -- MEM_SEALTAB_LO
    ⟨0x0AC, 0xFFFFF, 0x0, 0x0, 0x0, 0x0⟩ ]  -- MEM_SEALTAB_HI

/-- Registers of block type 0x0E (08_memory.md, R249). -/
def regsDma : List RegInfo :=
  [ ⟨0x040, 0x0, 0x0, 0x0, 0x0, 0x0⟩,  -- DMA_STATUS
    ⟨0x048, 0x0, 0x0, 0x0, 0xFFFFFFFF, 0x0⟩,  -- DMA_CNT_SAT_LO
    ⟨0x04C, 0x0, 0x0, 0x0, 0x0, 0x0⟩,  -- DMA_CNT_SAT_HI
    ⟨0x050, 0x0, 0x0, 0x0, 0xFFFFFFFF, 0x0⟩,  -- DMA_CNT_NONFIN_LO
    ⟨0x054, 0x0, 0x0, 0x0, 0x0, 0x0⟩,  -- DMA_CNT_NONFIN_HI
    ⟨0x058, 0x0, 0x0, 0x0, 0xFFFFFFFF, 0x0⟩,  -- DMA_CNT_REQUANT_LO
    ⟨0x05C, 0x0, 0x0, 0x0, 0x0, 0x0⟩,  -- DMA_CNT_REQUANT_HI
    ⟨0x060, 0x0, 0x7, 0x0, 0x0, 0x0⟩ ]  -- DMA_CNT_OVF

/-- Registers of block type 0x0F (09_mladaz.md, R286). -/
def regsSync : List RegInfo :=
  [ ⟨0x040, 0xFFF33F, 0x0, 0x0, 0x0, 0x0⟩,  -- SYNC_MAP_SEL
    ⟨0x044, 0xFFFFFFFF, 0x0, 0x0, 0x0, 0x0⟩,  -- SYNC_MAP_ENT
    ⟨0x048, 0x3F, 0x0, 0x0, 0x0, 0x0⟩,  -- SYNC_CTX_SEL
    ⟨0x04C, 0xFFFFFFFF, 0x0, 0x0, 0x0, 0xF4240⟩,  -- SYNC_CTX_TMO
    ⟨0x050, 0xFFFF0001, 0x0, 0x0, 0x0, 0x640002⟩,  -- SYNC_CTX_DL
    ⟨0x054, 0x3FFF3F, 0x0, 0x80000000, 0x0, 0x0⟩,  -- SYNC_DBG_SEL
    ⟨0x058, 0x0, 0x0, 0x0, 0x0, 0x0⟩,  -- SYNC_DBG_V0
    ⟨0x05C, 0x0, 0x0, 0x0, 0x0, 0x0⟩,  -- SYNC_DBG_V1
    ⟨0x060, 0x0, 0x0, 0x0, 0x0, 0x0⟩,  -- SYNC_DBG_V2
    ⟨0x064, 0x0, 0x0, 0x0, 0x0, 0x0⟩,  -- SYNC_DBG_WAIT
    ⟨0x068, 0x0, 0x0, 0x0, 0x0, 0x0⟩,  -- SYNC_DBG_LAST
    ⟨0x06C, 0x0, 0x0, 0x0, 0x0, 0x0⟩,  -- SYNC_DBG_STAMP
    ⟨0x070, 0x0, 0x0, 0x0, 0x0, 0x0⟩,  -- SYNC_DBG_WL0
    ⟨0x074, 0x0, 0x0, 0x0, 0x0, 0x0⟩,  -- SYNC_DBG_WL1
    ⟨0x078, 0x0, 0x0, 0x0, 0x0, 0x0⟩,  -- SYNC_DBG_WL2
    ⟨0x07C, 0x0, 0x0, 0x0, 0x0, 0x0⟩ ] ++  -- SYNC_DBG_WL3
  [ ⟨0x080, 0x0, 0x0, 0x0, 0xFFFFFFFF, 0x0⟩,  -- SYNC_CNT_TMO_LO
    ⟨0x084, 0x0, 0x0, 0x0, 0x0, 0x0⟩,  -- SYNC_CNT_TMO_HI
    ⟨0x088, 0x0, 0x0, 0x0, 0xFFFFFFFF, 0x0⟩,  -- SYNC_CNT_FAULT_LO
    ⟨0x08C, 0x0, 0x0, 0x0, 0x0, 0x0⟩,  -- SYNC_CNT_FAULT_HI
    ⟨0x090, 0x0, 0x0, 0x0, 0xFFFFFFFF, 0x0⟩,  -- SYNC_CNT_RSIG_DROP_LO
    ⟨0x094, 0x0, 0x0, 0x0, 0x0, 0x0⟩,  -- SYNC_CNT_RSIG_DROP_HI
    ⟨0x098, 0x0, 0x0, 0x0, 0xFFFFFFFF, 0x0⟩,  -- SYNC_CNT_COALESCE_LO
    ⟨0x09C, 0x0, 0x0, 0x0, 0x0, 0x0⟩,  -- SYNC_CNT_COALESCE_HI
    ⟨0x0A0, 0x0, 0x0, 0x0, 0xFFFFFFFF, 0x0⟩,  -- SYNC_CNT_EVQ_DROP_LO
    ⟨0x0A4, 0x0, 0x0, 0x0, 0x0, 0x0⟩,  -- SYNC_CNT_EVQ_DROP_HI
    ⟨0x0A8, 0x0, 0x1F, 0x0, 0x0, 0x0⟩,  -- SYNC_CNT_OVF
    ⟨0x0B0, 0x0, 0x0, 0x0, 0xFFFFFFFF, 0x0⟩,  -- SYNC_EVQ_LO
    ⟨0x0B4, 0x0, 0x0, 0x0, 0x0, 0x0⟩ ]  -- SYNC_EVQ_HI

/-- Registers of block type 0x10, a link (10_griros.md, R318). -/
def regsGrl : List RegInfo :=
  [ ⟨0x040, 0x0, 0x0, 0x0, 0x0, 0x0⟩,  -- GRL_STATE
    ⟨0x044, 0x0, 0x0, 0x0, 0x0, 0xFFFFF⟩,  -- GRL_PEER
    ⟨0x048, 0xFFFF00F1, 0x0, 0xE, 0x0, 0x2580080⟩,  -- GRL_CFG
    ⟨0x04C, 0x7F, 0x0, 0x0, 0x0, 0x0⟩,  -- GRL_BIND
    ⟨0x050, 0x0, 0x0, 0x0, 0x0, 0x0⟩,  -- GRL_AGREE
    ⟨0x054, 0x0, 0x0, 0x0, 0x0, 0x0⟩,  -- GRL_TIME_OFS
    ⟨0x058, 0x0, 0x0, 0x0, 0x0, 0x0⟩,  -- GRL_RTT
    ⟨0x05C, 0x0, 0x0, 0x0, 0x0, 0x0⟩,  -- GRL_FAIL
    ⟨0x060, 0x0, 0x0, 0x0, 0xFFFFFFFF, 0x0⟩,  -- GRL_CNT_TX_LO
    ⟨0x064, 0x0, 0x0, 0x0, 0x0, 0x0⟩,  -- GRL_CNT_TX_HI
    ⟨0x068, 0x0, 0x0, 0x0, 0xFFFFFFFF, 0x0⟩,  -- GRL_CNT_RX_LO
    ⟨0x06C, 0x0, 0x0, 0x0, 0x0, 0x0⟩,  -- GRL_CNT_RX_HI
    ⟨0x070, 0x0, 0x0, 0x0, 0xFFFFFFFF, 0x0⟩,  -- GRL_CNT_FEC_CORR_LO
    ⟨0x074, 0x0, 0x0, 0x0, 0x0, 0x0⟩,  -- GRL_CNT_FEC_CORR_HI
    ⟨0x078, 0x0, 0x0, 0x0, 0xFFFFFFFF, 0x0⟩,  -- GRL_CNT_FEC_UNCORR_LO
    ⟨0x07C, 0x0, 0x0, 0x0, 0x0, 0x0⟩ ] ++  -- GRL_CNT_FEC_UNCORR_HI
  [ ⟨0x080, 0x0, 0x0, 0x0, 0xFFFFFFFF, 0x0⟩,  -- GRL_CNT_CRC_LO
    ⟨0x084, 0x0, 0x0, 0x0, 0x0, 0x0⟩,  -- GRL_CNT_CRC_HI
    ⟨0x088, 0x0, 0x0, 0x0, 0xFFFFFFFF, 0x0⟩,  -- GRL_CNT_REPLAY_LO
    ⟨0x08C, 0x0, 0x0, 0x0, 0x0, 0x0⟩,  -- GRL_CNT_REPLAY_HI
    ⟨0x090, 0x0, 0x0, 0x0, 0xFFFFFFFF, 0x0⟩,  -- GRL_CNT_AUTH_LO
    ⟨0x094, 0x0, 0x0, 0x0, 0x0, 0x0⟩,  -- GRL_CNT_AUTH_HI
    ⟨0x098, 0x0, 0x7F, 0x0, 0x0, 0x0⟩ ]  -- GRL_CNT_OVF

/-- Registers of block type 0x10, the job page (10_griros.md, R319). -/
def regsGrlJob : List RegInfo :=
  [ ⟨0x040, 0xFFFFF, 0x0, 0x0, 0x0, 0xFFFFF⟩,  -- GRL_NODE_ID
    ⟨0x044, 0xFFF, 0x0, 0x0, 0x0, 0x0⟩,  -- GRL_JOB_SEL
    ⟨0x048, 0xFFFFFFFF, 0x0, 0x0, 0x0, 0x0⟩,  -- GRL_JOB_W0
    ⟨0x04C, 0xFFFFFFFF, 0x0, 0x0, 0x0, 0x0⟩,  -- GRL_JOB_W1
    ⟨0x050, 0xFFFFFFFF, 0x0, 0x0, 0x0, 0x0⟩,  -- GRL_JOB_W2
    ⟨0x054, 0xFFFFFFFF, 0x0, 0x0, 0x0, 0x0⟩,  -- GRL_JOB_W3
    ⟨0x058, 0x0, 0x0, 0x3, 0x0, 0x0⟩ ]  -- GRL_JOB_CMD

/-- Registers of block type 0x11 (11_mac.md, R345). -/
def regsMac : List RegInfo :=
  [ ⟨0x040, 0xF, 0x0, 0x0, 0x0, 0x0⟩,  -- MAC_GRP_CFG
    ⟨0x044, 0x8000003F, 0x0, 0x0, 0x0, 0x0⟩,  -- MAC_ASSIGN
    ⟨0x048, 0x7FFFFFFF, 0x0, 0x0, 0x0, 0x24000810⟩,  -- MAC_CFG
    ⟨0x04C, 0xFFFFFFFF, 0x0, 0x0, 0x0, 0x0⟩,  -- MAC_STA_LO
    ⟨0x050, 0xFFFF, 0x0, 0x0, 0x0, 0x0⟩,  -- MAC_STA_HI
    ⟨0x054, 0xFFFFFFFF, 0x0, 0x0, 0x0, 0x0⟩,  -- MAC_HASH0
    ⟨0x058, 0xFFFFFFFF, 0x0, 0x0, 0x0, 0x0⟩,  -- MAC_HASH1
    ⟨0x05C, 0xFFFFFFFF, 0x0, 0x0, 0x0, 0x0⟩,  -- MAC_HASH2
    ⟨0x060, 0xFFFFFFFF, 0x0, 0x0, 0x0, 0x0⟩,  -- MAC_HASH3
    ⟨0x064, 0xFFFFFFFF, 0x0, 0x0, 0x0, 0x0⟩,  -- MAC_HASH4
    ⟨0x068, 0xFFFFFFFF, 0x0, 0x0, 0x0, 0x0⟩,  -- MAC_HASH5
    ⟨0x06C, 0xFFFFFFFF, 0x0, 0x0, 0x0, 0x0⟩,  -- MAC_HASH6
    ⟨0x070, 0xFFFFFFFF, 0x0, 0x0, 0x0, 0x0⟩,  -- MAC_HASH7
    ⟨0x074, 0x0, 0x0, 0x0, 0x0, 0x0⟩,  -- MAC_STAT
    ⟨0x078, 0xFFFF00FF, 0x0, 0x0, 0x0, 0xFFFF0000⟩,  -- MAC_PFC_TX
    ⟨0x07C, 0xFFFFFFFF, 0x0, 0x0, 0x0, 0x4000600⟩ ] ++  -- MAC_PFC_THR
  [ ⟨0x080, 0xF, 0x0, 0x0, 0x0, 0x0⟩,  -- MAC_RING_SEL
    ⟨0x084, 0xFFFFFFC0, 0x0, 0x0, 0x0, 0x0⟩,  -- MAC_RING_BASE_LO
    ⟨0x088, 0xFFFFF, 0x0, 0x0, 0x0, 0x0⟩,  -- MAC_RING_BASE_HI
    ⟨0x08C, 0x3FFF7FF, 0x0, 0x0, 0x0, 0x20C⟩,  -- MAC_RING_CFG
    ⟨0x090, 0xFFFF, 0x0, 0x0, 0x0, 0x0⟩,  -- MAC_RING_SWIDX
    ⟨0x094, 0x0, 0x0, 0x0, 0x0, 0x0⟩,  -- MAC_RING_HWIDX
    ⟨0x098, 0x3F1F, 0x0, 0x0, 0x0, 0x0⟩,  -- MAC_SLOT_SEL
    ⟨0x09C, 0xFFFFFFFF, 0x0, 0x0, 0x0, 0x0⟩,  -- MAC_SLOT_DATA
    ⟨0x0A0, 0xF, 0x0, 0x0, 0x0, 0x4⟩,  -- MAC_SEC_CFG
    ⟨0x0A4, 0xFFFFFFFF, 0x0, 0x0, 0x0, 0x0⟩,  -- MAC_SEC_WIN
    ⟨0x0A8, 0x3F, 0x0, 0x0, 0x0, 0x0⟩,  -- MAC_CNT_SEL
    ⟨0x0AC, 0x0, 0x0, 0x0, 0xFFFFFFFF, 0x0⟩,  -- MAC_CNT_LO
    ⟨0x0B0, 0x0, 0x0, 0x0, 0x0, 0x0⟩,  -- MAC_CNT_HI
    ⟨0x0B4, 0x0, 0x1F, 0x0, 0x0, 0x0⟩ ]  -- MAC_CNT_OVF

/-- Registers of block type 0x12 (12_ouvvos_fabric.md, R389). -/
def regsOvs : List RegInfo :=
  [ ⟨0x040, 0x0, 0x0, 0x0, 0x0, 0x200⟩,  -- OVS_STATUS
    ⟨0x044, 0x8000003F, 0x0, 0x0, 0x0, 0x0⟩,  -- OVS_ASSIGN
    ⟨0x048, 0x0, 0x0, 0x0, 0x0, 0x0⟩,  -- OVS_SLOTS
    ⟨0x04C, 0xF, 0x0, 0x0, 0x0, 0x0⟩,  -- OVS_SLOT_SEL
    ⟨0x050, 0x0, 0x0, 0x0, 0x0, 0x0⟩,  -- OVS_SLOT_ID
    ⟨0x054, 0x0, 0x0, 0x0, 0x0, 0x0⟩,  -- OVS_SLOT_DIGEST0
    ⟨0x058, 0x0, 0x0, 0x0, 0x0, 0x0⟩,  -- OVS_SLOT_DIGEST1
    ⟨0x05C, 0x0, 0x0, 0x0, 0x0, 0x0⟩,  -- OVS_SLOT_DIGEST2
    ⟨0x060, 0x0, 0x0, 0x0, 0x0, 0x0⟩,  -- OVS_SLOT_DIGEST3
    ⟨0x064, 0x0, 0x0, 0x0, 0x0, 0x0⟩,  -- OVS_SLOT_DIGEST4
    ⟨0x068, 0x0, 0x0, 0x0, 0x0, 0x0⟩,  -- OVS_SLOT_DIGEST5
    ⟨0x06C, 0x0, 0x0, 0x0, 0x0, 0x0⟩,  -- OVS_SLOT_DIGEST6
    ⟨0x070, 0x0, 0x0, 0x0, 0x0, 0x0⟩,  -- OVS_SLOT_DIGEST7
    ⟨0x074, 0x0, 0x0, 0x0, 0x0, 0x0⟩,  -- OVS_SLOT_DIGEST8
    ⟨0x078, 0x0, 0x0, 0x0, 0x0, 0x0⟩,  -- OVS_SLOT_DIGEST9
    ⟨0x07C, 0x0, 0x0, 0x0, 0x0, 0x0⟩ ] ++  -- OVS_SLOT_DIGEST10
  [ ⟨0x080, 0x0, 0x0, 0x0, 0x0, 0x0⟩,  -- OVS_SLOT_DIGEST11
    ⟨0x084, 0xFFFF01, 0x0, 0x0, 0x0, 0x40001⟩,  -- OVS_PWR
    ⟨0x088, 0xFFFFFFFF, 0x0, 0x0, 0x0, 0x13D620⟩,  -- OVS_WDOG
    ⟨0x08C, 0xFFFFFFFF, 0x0, 0x0, 0x0, 0x64⟩,  -- OVS_HARVEST_TMO
    ⟨0x090, 0xF, 0x0, 0x80000000, 0x0, 0x0⟩,  -- OVS_FORCE
    ⟨0x094, 0x0, 0x0, 0x1, 0x0, 0x0⟩,  -- OVS_CMD
    ⟨0x098, 0xF, 0x0, 0x0, 0x0, 0x0⟩,  -- OVS_CNT_SEL
    ⟨0x09C, 0x0, 0x0, 0x0, 0xFFFFFFFF, 0x0⟩,  -- OVS_CNT_LO
    ⟨0x0A0, 0x0, 0x0, 0x0, 0x0, 0x0⟩,  -- OVS_CNT_HI
    ⟨0x0A4, 0x0, 0x1FFF, 0x0, 0x0, 0x0⟩,  -- OVS_CNT_OVF
    ⟨0x0A8, 0x0, 0x0, 0x0, 0xFFFFFFFF, 0x0⟩,  -- OVS_EVQ_LO
    ⟨0x0AC, 0x0, 0x0, 0x0, 0x0, 0x0⟩,  -- OVS_EVQ_HI
    ⟨0x0B0, 0x0, 0x0, 0x0, 0x0, 0x0⟩ ]  -- OVS_SFN_VER

/-- Registers of a path page (OVS instances 4 to 7) (13_ouvvos_path.md, R411). -/
def regsOvsPath : List RegInfo :=
  [ ⟨0x040, 0xF, 0x0, 0x0, 0x0, 0x0⟩,  -- OVS_PATH_CFG
    ⟨0x044, 0x0, 0x0, 0x0, 0x0, 0xFFFF0000⟩,  -- OVS_PATH_REQ0
    ⟨0x048, 0x0, 0x0, 0x0, 0x0, 0xFFFF0000⟩,  -- OVS_PATH_REQ1
    ⟨0x04C, 0x0, 0x0, 0x0, 0x0, 0xFFFF0000⟩,  -- OVS_PATH_REQ2
    ⟨0x050, 0x0, 0x0, 0x0, 0x0, 0xFFFF0000⟩,  -- OVS_PATH_REQ3
    ⟨0x054, 0x0, 0x0, 0x0, 0x0, 0x0⟩,  -- OVS_PATH_STAT
    ⟨0x058, 0xF, 0x0, 0x0, 0x0, 0x0⟩,  -- OVS_PATH_CNT_SEL
    ⟨0x05C, 0x0, 0x0, 0x0, 0xFFFFFFFF, 0x0⟩,  -- OVS_PATH_CNT_LO
    ⟨0x060, 0x0, 0x0, 0x0, 0x0, 0x0⟩,  -- OVS_PATH_CNT_HI
    ⟨0x064, 0x0, 0xFFFF, 0x0, 0x0, 0x0⟩ ]  -- OVS_PATH_CNT_OVF

/-- The block-specific registers of a block type and instance (R487). -/
def regsOf (typ inst : Nat) : List RegInfo :=
  match typ with
  | 1 => regsHost
  | 2 => regsBoot
  | 3 => regsSec
  | 4 => regsPwr
  | 5 => regsSvc
  | 6 => regsTime
  | 7 => regsMesh
  | 8 => regsCc
  | 9 => regsCtx
  | 10 => regsPan
  | 11 => regsVec
  | 12 => regsSal
  | 13 => regsMem
  | 14 => regsDma
  | 15 => regsSync
  | 16 => if inst < 12 then regsGrl else regsGrlJob
  | 17 => regsMac
  | 18 => if inst < 4 then regsOvs else regsOvsPath
  | _ => []

/-- The entry of an offset in a list of registers. -/
def findReg : List RegInfo → Nat → Option RegInfo
  | [], _ => none
  | r :: rs, off => if r.off = off then some r else findReg rs off

/-- Instances of each block type (R487). -/
def instances (typ : Nat) : List Nat :=
  match typ with
  | 1 | 2 | 3 | 4 | 5 | 6 | 7 => [0]
  | 8 => List.range 130
  | 9 => List.range 64
  | 10 | 11 => List.range 256
  | 12 => List.range 8
  | 13 => List.range 9
  | 14 => List.range 144
  | 15 => [8]
  | 16 => List.range 13
  | 17 => List.range 16
  | 18 => List.range 8
  | _ => []

/-- A page number names a page (R487, R488). -/
def pageMapped (page : Nat) : Bool :=
  let typ := page / 1024
  let inst := page % 1024
  match typ with
  | 1 | 2 | 3 | 4 | 5 | 6 | 7 => inst == 0
  | 8 => decide (inst < 130)
  | 9 => decide (inst < 64)
  | 10 | 11 => decide (inst < 256)
  | 12 => decide (inst < 8)
  | 13 => decide (inst < 9)
  | 14 => decide (inst < 144)
  | 15 => inst == 8
  | 16 => decide (inst < 13)
  | 17 => decide (inst < 16)
  | 18 => decide (inst < 8)
  | _ => false

/-- The register at an offset of a page: the common layout below 0x40, then the block's own; the rest of a page is reserved (R494). -/
def regInfo (page off : Nat) : Option RegInfo :=
  if off < 64 then findReg regsCommon off else findReg (regsOf (page / 1024) (page % 1024)) off

/-- Reset value of a register (R494: CTL.ENABLE resets to 0 on GRL instances 0 to 11 and on MAC pages). -/
def regReset (page off : Nat) : Word :=
  if off = 8 ∧ ((page / 1024 = 16 ∧ page % 1024 < 12) ∨ page / 1024 = 17) then 0
  else match regInfo page off with
    | some r => r.reset
    | none => 0

end Sys2Proof.Machine
end

