-- ==== Sys2Proof/Machine/Ops.lean ====
section
/-! DEFINITION. The named operations over tables, memory, registers, counters, events, records and tags. -/

namespace Sys2Proof.Machine

open Sys2Proof

/-- What a meaning answers. -/
abbrev Out := Host.Outcome State Fault Refusal

/-! ### Tables in canonical form -/

/-- The value stored under a key. -/
def tfind {α : Type} : Tbl α → Nat → Option α
  | [], _ => none
  | (k, v) :: t, key => if k = key then some v else tfind t key

/-- Store a value under a key, in key order. -/
def tput {α : Type} : Tbl α → Nat → α → Tbl α
  | [], key, v => [(key, v)]
  | (k, w) :: t, key, v =>
    if key < k then (key, v) :: (k, w) :: t
    else if key = k then (key, v) :: t
    else (k, w) :: tput t key v

/-- Remove a key. -/
def tdel {α : Type} : Tbl α → Nat → Tbl α
  | [], _ => []
  | (k, w) :: t, key => if k = key then tdel t key else (k, w) :: tdel t key

/-- The value under a key, `d` where none is stored. -/
def tget {α : Type} (d : α) (t : Tbl α) (key : Nat) : α := (tfind t key).getD d

/-- Store a value under a key; the default `d` is not stored. -/
def tset {α : Type} [DecidableEq α] (d : α) (t : Tbl α) (key : Nat) (v : α) : Tbl α :=
  if v = d then tdel t key else tput t key v

/-- Change every stored value; what becomes the default is dropped. -/
def tmap {α : Type} [DecidableEq α] (d : α) (f : Nat → α → α) (t : Tbl α) : Tbl α :=
  (t.map fun p => (p.1, f p.1 p.2)).filter fun p => decide (p.2 ≠ d)

/-- The keys rise strictly. -/
def keysRise {α : Type} : Tbl α → Bool
  | [] => true
  | (_, _) :: [] => true
  | (k, _) :: (k', v') :: t => decide (k < k') && keysRise ((k', v') :: t)

/-- The canonical form of a table: keys rise strictly and no stored value is the default. -/
def tblOk {α : Type} [DecidableEq α] (d : α) (t : Tbl α) : Bool :=
  keysRise t && t.all fun p => decide (p.2 ≠ d)

/-- The first values of a list, padded to a length. -/
def padTo {α : Type} (d : α) : Nat → List α → List α
  | 0, _ => []
  | n + 1, [] => d :: padTo d n []
  | n + 1, x :: xs => x :: padTo d n xs

/-- Replace the element of a list at an index. -/
def setAt {α : Type} : List α → Nat → α → List α
  | [], _, _ => []
  | _ :: xs, 0, v => v :: xs
  | x :: xs, n + 1, v => x :: setAt xs n v

/-- The first element that satisfies a test, with the list without it. -/
def takeFirst {α : Type} (p : α → Bool) : List α → Option (α × List α)
  | [] => none
  | x :: xs =>
    if p x then some (x, xs)
    else match takeFirst p xs with
      | some (y, ys) => some (y, x :: ys)
      | none => none

/-! ### Fields of words -/

/-- Bits [lo + w − 1 : lo] of a number. -/
def bits (n lo w : Nat) : Nat := n / 2 ^ lo % 2 ^ w

/-- Bit `i` of a number. -/
def bit (n i : Nat) : Bool := n / 2 ^ i % 2 == 1

/-- The number 1 or 0 of a Boolean. -/
def b2n (b : Bool) : Nat := if b then 1 else 0

/-- A number read as a signed `w`-bit number. -/
def signed (w n : Nat) : Int := if n % 2 ^ w < 2 ^ (w - 1) then (n % 2 ^ w : Nat) else (n % 2 ^ w : Nat) - (2 ^ w : Nat)

/-- Little-endian bytes of a number. -/
def toLE : Nat → Nat → List Byte
  | 0, _ => []
  | n + 1, v => BitVec.ofNat 8 v :: toLE n (v / 256)

/-- The number of little-endian bytes. -/
def ofLE : List Byte → Nat
  | [] => 0
  | b :: bs => b.toNat + 256 * ofLE bs

/-- The bytes of big-endian order (Ethernet, PTP). -/
def ofBE (bs : List Byte) : Nat := ofLE bs.reverse

/-- Bytes of a list from an offset. -/
def slice {α : Type} (l : List α) (off n : Nat) : List α := (l.drop off).take n

/-- A little-endian field of a byte list: byte offset, number of bytes. -/
def fieldLE (l : List Byte) (off n : Nat) : Nat := ofLE (slice l off n)

/-- A ceiling division. -/
def cdiv (a b : Nat) : Nat := (a + b - 1) / b

/-- A number rounded up to a multiple. -/
def alignUp (a b : Nat) : Nat := cdiv a b * b

/-! ### Identifiers (R2 to R5, R38, R223) -/

/-- The kinds of engine of R2. -/
inductive EngKind where
  | bay | core | dma | fabric | hubDma | warden | time | griros | mac | invalid
  deriving DecidableEq, Repr

/-- The kind of an engine identifier (R2, R3). -/
def engKind (e : Nat) : EngKind :=
  let d := e / 256
  let l := e % 256
  if d < 8 then
    if l < 0x20 then .bay else if l < 0x30 then .core else if l < 0x40 then .dma else .invalid
  else if d = 8 then
    if l < 0x04 then .fabric
    else if 0x10 ≤ l ∧ l < 0x20 then .hubDma
    else if l = 0x20 ∨ l = 0x21 then .warden
    else if l = 0x30 then .time
    else if 0x40 ≤ l ∧ l < 0x4C then .griros
    else if 0x50 ≤ l ∧ l < 0x60 then .mac
    else .invalid
  else .invalid

/-- The engine identifier of a bay (R17). -/
def bayEng (b : Nat) : Nat := b / 32 * 256 + b % 32

/-- The bay number of a bay's engine identifier. -/
def engBay (e : Nat) : Nat := e / 256 * 32 + e % 256

/-- The engine identifier of fabric f (R18). -/
def fabEng (f : Nat) : Nat := 0x800 + f

/-- The engine identifier of control-core instance i (R487: 16 × die + c, or 128 and 129 for the warden cores). -/
def coreEng (i : Nat) : Nat := if i < 128 then i / 16 * 256 + 0x20 + i % 16 else 0x820 + (i - 128)

/-- The control-core instance of a hart: harts 2i and 2i + 1 of instance i below 128; 256 and 257 are the warden harts. -/
def hartCore (h : Nat) : Nat := if h < 256 then h / 2 else 128 + (h - 256)

/-- The hart number on its core. -/
def hartNum (h : Nat) : Nat := if h < 256 then h % 2 else 0

/-- The engine identifier of the core of a hart. -/
def hartEng (h : Nat) : Nat := coreEng (hartCore h)

/-- The hart `n` of a control-core engine identifier, if there is one. -/
def engHart (e n : Nat) : Option Nat :=
  if engKind e = .core ∧ n < 2 then some ((e / 256 * 16 + (e % 256 - 0x20)) * 2 + n)
  else if engKind e = .warden ∧ n = 0 then some (256 + (e % 256 - 0x20))
  else none

/-- The barrier participant index of an engine (R4). -/
def participant (e : Nat) : Nat := e / 256 * 64 + e % 256 % 64

/-- A hub participant index of R5. -/
def hubParticipant (p : Nat) : Bool :=
  (512 ≤ p && p ≤ 515) || (528 ≤ p && p ≤ 543) || p == 544 || p == 545 || p == 560

/-- The instance of a DMA engine's page (R487). -/
def dmaInst (e : Nat) : Nat := if e / 256 < 8 then e / 256 * 16 + (e % 256 - 0x30) else 128 + (e % 256 - 0x10)

/-- Entries of each queue of an engine, and how many queues it has (R48). -/
def queueDepth (e : Nat) : Nat :=
  match engKind e with
  | .bay => 32
  | .dma | .hubDma | .fabric => 64
  | _ => 0

def queueCount (e : Nat) : Nat :=
  match engKind e with
  | .bay | .fabric => 1
  | .dma | .hubDma => 4
  | _ => 0

/-- Base of the bay windows, of hub SRAM, of host memory, of CXL .mem and of the register pages (R223). -/
def baySramBase : Nat := 0x1000_0000_0000
def hubSramBase : Nat := 0x1100_0000_0000
def hostBase : Nat := 0x2000_0000_0000
def cxlBase : Nat := 0x3000_0000_0000
def pageBase : Nat := 0xF000_0000_0000

/-- Bytes of a slice that a bay offers (R38). -/
def sliceBytes : Nat := 3112960

/-- The address of an offset of a bay's slice. -/
def bayAddr (b off : Nat) : Nat := baySramBase + b * 0x40_0000 + off

/-- The address of an offset of a control core's memory (R38, R509). -/
def coreMemAddr (i off : Nat) : Nat :=
  if i < 128 then bayAddr (i / 16 * 32 + 2 * (i % 16) + off / 0x8000 % 2) (sliceBytes + off % 0x8000)
  else hubSramBase + 0x3FE_0000 + (i - 128) * 0x1_0000 + off

/-- The control core whose memory a bay holds (R38, R477). -/
def bayCore (b : Nat) : Nat := b / 32 * 16 + b % 32 / 2

/-- The ranges of R223. -/
inductive Range where
  | stack (n : Nat)
  | slice (b off : Nat)
  | coreMem (i : Nat)
  | hubSram
  | wardenMem (w : Nat)
  | host
  | cxl
  | page (n off : Nat)
  | unmapped
  deriving DecidableEq, Repr

/-- Where an address lies (R223, R38, R509). A fenced bay's slice reads as unmapped elsewhere (R478). -/
def rangeOf (a : Nat) : Range :=
  if a < 0x180_0000_0000 then .stack (a / 0x18_0000_0000)
  else if baySramBase ≤ a ∧ a < baySramBase + 0x4000_0000 then
    let b := (a - baySramBase) / 0x40_0000
    let off := (a - baySramBase) % 0x40_0000
    if off < sliceBytes then .slice b off
    else if off < 0x30_0000 then .coreMem (bayCore b)
    else .unmapped
  else if hubSramBase ≤ a ∧ a < hubSramBase + 0x3FE_0000 then .hubSram
  else if hubSramBase + 0x3FE_0000 ≤ a ∧ a < hubSramBase + 0x400_0000 then
    .wardenMem ((a - hubSramBase - 0x3FE_0000) / 0x1_0000)
  else if hostBase ≤ a ∧ a < cxlBase then .host
  else if cxlBase ≤ a ∧ a < 0x4000_0000_0000 then .cxl
  else if pageBase ≤ a ∧ a < pageBase + 0x1000_0000 then .page ((a - pageBase) / 4096) (a % 4096)
  else .unmapped

/-- Page numbers by block type and instance (R486). -/
def pageOf (typ inst : Nat) : Nat := typ * 1024 + inst

/-- The page of the time unit. -/
def timePage : Nat := pageOf 6 0

/-! ### Accessors of State -/

def State.ctx (s : State) (n : Nat) : Ctx := tget {} s.ctxs n
def State.setCtx (s : State) (n : Nat) (c : Ctx) : State := { s with ctxs := tset {} s.ctxs n c }
def State.hart (s : State) (h : Nat) : Hart := tget {} s.harts h
def State.setHart (s : State) (h : Nat) (x : Hart) : State := { s with harts := tset {} s.harts h x }
def State.pan (s : State) (b : Nat) : Pan := tget {} s.pans b
def State.setPan (s : State) (b : Nat) (p : Pan) : State := { s with pans := tset {} s.pans b p }
def State.sal (s : State) (d : Nat) : Sal := tget {} s.sals d
def State.setSal (s : State) (d : Nat) (x : Sal) : State := { s with sals := tset {} s.sals d x }
def State.vec (s : State) (b : Nat) : Vec := tget {} s.vecs b
def State.setVec (s : State) (b : Nat) (v : Vec) : State := { s with vecs := tset {} s.vecs b v }
def State.flag (s : State) (k : Nat) : Flag := tget {} s.flags k
def State.setFlag (s : State) (k : Nat) (f : Flag) : State := { s with flags := tset {} s.flags k f }
def State.barrier (s : State) (k : Nat) : Barrier := tget {} s.barriers k
def State.setBarrier (s : State) (k : Nat) (b : Barrier) : State := { s with barriers := tset {} s.barriers k b }
def State.credit (s : State) (k : Nat) : Credit := tget {} s.credits k
def State.setCredit (s : State) (k : Nat) (c : Credit) : State := { s with credits := tset {} s.credits k c }
def State.link (s : State) (k : Nat) : Link := tget {} s.links k
def State.setLink (s : State) (k : Nat) (l : Link) : State := { s with links := tset {} s.links k l }
def State.jobSlot (s : State) (k : Nat) : Job := tget {} s.jobs k
def State.setJob (s : State) (k : Nat) (j : Job) : State := { s with jobs := tset {} s.jobs k j }
def State.mac (s : State) (m : Nat) : Mac := tget {} s.macs m
def State.setMac (s : State) (m : Nat) (x : Mac) : State := { s with macs := tset {} s.macs m x }
def State.fabric (s : State) (f : Nat) : Fabric := tget {} s.fabrics f
def State.setFabric (s : State) (f : Nat) (x : Fabric) : State := { s with fabrics := tset {} s.fabrics f x }
/-- Die 8, the hub, runs whenever it has power; salterns start OFF (R436, R511). -/
def dieDefault (d : Nat) : DiePower := if d = 8 then { req := 0, state := 0 } else {}
def State.die (s : State) (d : Nat) : DiePower := tget (dieDefault d) s.dies d
def State.setDie (s : State) (d : Nat) (x : DiePower) : State := { s with dies := tset (dieDefault d) s.dies d x }
def State.stack (s : State) (n : Nat) : Stack := tget {} s.hbms n
def State.setStack (s : State) (n : Nat) (x : Stack) : State := { s with hbms := tset {} s.hbms n x }
def State.sensor (s : State) (n : Nat) : Sensor := tget {} s.sensors n
def State.setSensor (s : State) (n : Nat) (x : Sensor) : State := { s with sensors := tset {} s.sensors n x }
/-- The queue `q` of engine `e`: its descriptors, oldest first. -/
def State.queue (s : State) (e q : Nat) : List Op := tget [] s.queues (e * 4 + q)
def State.setQueue (s : State) (e q : Nat) (l : List Op) : State := { s with queues := tset [] s.queues (e * 4 + q) l }
/-- The operation under way on unit `u` of engine `e`. -/
def State.run (s : State) (e u : Nat) : Option Op := tfind s.running (e * 2 + u)
def State.setRun (s : State) (e u : Nat) (o : Op) : State := { s with running := tput s.running (e * 2 + u) o }
def State.clearRun (s : State) (e u : Nat) : State := { s with running := tdel s.running (e * 2 + u) }
/-- The context that holds queue `q` of engine `e` (R48); a queue that is not assigned is the warden's, context 0. -/
def State.ownerOf (s : State) (e q : Nat) : Option Nat := tfind s.owner (e * 4 + q)
/-- The context a bay is assigned to. -/
def State.bayCtx (s : State) (b : Nat) : Option Nat := s.ownerOf (bayEng b) 0

/-! ### The die mesh (R22 to R24, R27) -/

/-- The saltern through which a saltern reaches the hub (R24). -/
def hubGate (d : Nat) : Nat := [1, 1, 2, 2, 5, 5, 6, 6].getD d 1

/-- The salterns on the way from one to another, the first left out (R24): along the source row, then to the destination row. -/
def rowPath (a b : Nat) : List Nat :=
  let c := b % 4
  let steps := if a % 4 ≤ c then (List.range (c - a % 4)).map fun i => a + i + 1 else (List.range (a % 4 - c)).map fun i => a - i - 1
  steps ++ if a / 4 = b / 4 then [] else [b]

/-- The dies on the way from die `a` to die `b`, the first left out (R24). Die 8 is the hub. -/
def meshPath (a b : Nat) : List Nat :=
  if a = b ∨ 8 < a ∨ 8 < b then []
  else if a = 8 then hubGate b :: rowPath (hubGate b) b
  else if b = 8 then rowPath a (hubGate a) ++ [8]
  else rowPath a b

/-- The connection between two dies that touch, as R472 numbers them: 0 to 5 rows, 6 to 9 columns, 10 to 13 the hub's. -/
def meshConn (a b : Nat) : Nat :=
  let lo := min a b
  let hi := max a b
  if hi = 8 then 10 + [1, 2, 5, 6].idxOf lo
  else if hi = lo + 4 then 6 + lo
  else if lo < 4 then lo else lo - 1

/-- The directions of connections that the dies of a path cross: connection × 2, and one more for direction B (R510). -/
def meshHops : Nat → List Nat → List Nat
  | _, [] => []
  | a, b :: rest => (meshConn a b * 2 + if a < b then 0 else 1) :: meshHops b rest

/-- Traffic between two dies: requests one way and responses the other cross the connections of their routes (R24, R25). -/
def State.cross (s : State) (a b : Nat) : State :=
  let hops := meshHops a (meshPath a b) ++ meshHops b (meshPath b a)
  { s with crossed := hops.foldl (fun l k => if l.contains k then l else l ++ [k]) s.crossed }

/-- The die on which an address lies: the hub for its SRAM and for what lies beyond the host port. -/
def addrDie (a : Nat) : Nat :=
  match rangeOf a with
  | .stack n => n / 2
  | .slice b _ => b / 32
  | .coreMem i => i / 16
  | _ => 8

/-- Traffic between a die and the memory of an interval of addresses. -/
def State.crossMem (s : State) (d a n : Nat) : State :=
  (List.range 9).foldl (fun s x => if addrDie a ≤ x ∧ x ≤ addrDie (a + (n - 1)) then s.cross d x else s) s

/-- A connection has failed: the device is unusable until a cold reset (R27). -/
def State.dead (s : State) : Bool := !s.meshFailed.isEmpty

/-! ### Memory (R223) -/

/-- What an address that nothing has written reads as (DESIGN CHOICE, log entry 5). -/
def memDefault : Byte := 0

/-- The canonical form of memory. -/
def Memory.wf (m : List Host.Cell) : Bool := tblOk memDefault m

/-- One byte of memory. -/
def rdByte (m : List Host.Cell) (a : Nat) : Byte := tget memDefault m a

/-- Write one byte of memory. -/
def wrByte (m : List Host.Cell) (a : Nat) (v : Byte) : List Host.Cell := tset memDefault m a v

/-- Bytes of memory from an address. -/
def rdBytes (m : List Host.Cell) (a : Nat) : Nat → List Byte
  | 0 => []
  | n + 1 => rdByte m a :: rdBytes m (a + 1) n

/-- Write bytes from an address. -/
def wrBytes (m : List Host.Cell) (a : Nat) : List Byte → List Host.Cell
  | [] => m
  | b :: bs => wrBytes (wrByte m a b) (a + 1) bs

/-- Bytes of the store as they stand in it. -/
def State.raw (s : State) (a n : Nat) : List Byte := rdBytes s.mem a n

/-- Write bytes into the store. -/
def State.setRaw (s : State) (a : Nat) (bs : List Byte) : State := { s with mem := wrBytes s.mem a bs }

/-- Bytes of a control core's memory from an offset: its halves lie in two slices (R38). -/
def coreRead (s : State) (i off n : Nat) : List Byte := (List.range n).map fun j => rdByte s.mem (coreMemAddr i (off + j))

/-- A little-endian number of the store. -/
def State.rawLE (s : State) (a n : Nat) : Nat := ofLE (s.raw a n)

/-! ### Registers (R14, R15, R494) -/

/-- The stored bits of a register. -/
def regGet (s : State) (page off : Nat) : Word := tget (regReset page off) s.regs (page * 4096 + off)

/-- Set the stored bits of a register. -/
def regPut (s : State) (page off : Nat) (v : Word) : State :=
  { s with regs := tset (regReset page off) s.regs (page * 4096 + off) v }

/-- Bits [lo + w − 1 : lo] of a register. -/
def regField (s : State) (page off lo w : Nat) : Nat := bits (regGet s page off).toNat lo w

/-- Set bits of a register. -/
def regOr (s : State) (page off : Nat) (v : Word) : State := regPut s page off (regGet s page off ||| v)

/-- EVT_PEND of a page (R494). -/
def evtPend (s : State) (page : Nat) : Word := regGet s page 0x10 &&& regGet s page 0x14

/-- Latch MSI-X vector 0 of the physical function when EVT_PEND of the SEC, BOOT or SVC page has become non-zero while its
bit of HOST_IRQ_EN is 1 (R500). Vectors are recorded as function × 2 + vector (log entry 13). -/
def irqAfter (s : State) (page : Nat) (was : Word) : State :=
  let b := if page = pageOf 3 0 then 1 else if page = pageOf 2 0 then 2 else if page = pageOf 5 0 then 4 else 0
  if was = 0 ∧ evtPend s page ≠ 0 ∧ (regGet s (pageOf 1 0) 0x50).toNat / b % 2 = 1 ∧ b ≠ 0
  then { s with host := { s.host with msix := s.host.msix ++ [0] } } else s

/-- Set an event bit of a page (R496). -/
def evt (s : State) (page i : Nat) : State :=
  irqAfter (regOr s page 0x10 (BitVec.ofNat 32 (2 ^ i))) page (evtPend s page)

/-- A wake event reaches a die (R439): a sleeping die starts its resume, one on its way into NAP abandons it; WAKE is posted. -/
def wakeDie (s : State) (d : Nat) : State :=
  let x := s.die d
  if (x.state = 1 ∨ x.state = 2) ∧ x.target = none ∨ x.target = some 2
  then evt (s.setDie d { x with target := some 0 }) (pageOf 4 0) 4 else s

/-- A push, a release or a signal crosses from die `a` to die `b`, which it wakes (R24, R439). -/
def State.reach (s : State) (a b : Nat) : State := wakeDie (s.cross a b) b

/-- An access through BAR0 or BAR2 to a die wakes it and the hub (R439). -/
def hostReach (s : State) (d : Nat) : State := wakeDie (s.reach 8 d) 8

/-- Write ERR_CODE, ERR_INFO0 and ERR_INFO1 of a page (R494, R496): COUNT rises by one, stopping at 0xFFFF. -/
def pageErr (s : State) (page code : Nat) (i0 i1 : Nat) : State :=
  let c := bits (regGet s page 0x1C).toNat 16 16
  let c' := if c < 0xFFFF then c + 1 else c
  regPut (regPut (regPut s page 0x1C (BitVec.ofNat 32 (c' * 65536 + code))) page 0x20 (BitVec.ofNat 32 i0)) page 0x24
    (BitVec.ofNat 32 i1)

/-! ### 48-bit counters (R141) -/

/-- The register and bit of a counter's OVF flag. Counters of selected items use index item × 8 + counter on the MESH page,
item × 2 + counter on the BOOT page, and the counter number elsewhere. -/
def cntOvf (page idx : Nat) : Nat × Nat :=
  match page / 1024 with
  | 1 => (0x60, idx)
  | 2 => (0x70, idx % 2)
  | 5 => (0xA8, 0)
  | 6 => (0xF8, idx)
  | 7 => (0x54, idx / 8)
  | 10 => (0x70, idx)
  | 11 => (0x78, idx)
  | 12 => (0x98, idx)
  | 13 => (0x88, idx)
  | 14 => (0x60, idx)
  | 15 => (0xA8, idx)
  | 16 => (0x98, idx)
  | 17 => (0xB4, if idx < 10 then 0 else if idx < 16 then 1 else if idx < 20 then 2 else if idx < 32 then 3 else 4)
  | 18 => if page % 1024 < 4 then (0xA4, idx) else (0x64, idx)
  | _ => (0, 0)

/-- The largest value of a statistics counter (R474). -/
def cntMax : Nat := 2 ^ 48 - 1

/-- Count `n` on counter `idx` of a page: it stops at 2^48 − 1 and sets its OVF bit (R141). -/
def bump (s : State) (page idx n : Nat) : State :=
  let c := tget 0 s.cnts (page * 256 + idx)
  if c + n < cntMax then { s with cnts := tset 0 s.cnts (page * 256 + idx) (c + n) }
  else if n = 0 then s
  else regOr { s with cnts := tset 0 s.cnts (page * 256 + idx) cntMax } page (cntOvf page idx).1
    (BitVec.ofNat 32 (2 ^ (cntOvf page idx).2))

/-! ### Time (R63, R413) -/

/-- TB3. -/
def State.tb3 (s : State) : TimeBase := tget {} s.time.tb 3

/-- The compact stamp (R63). -/
def stamp (s : State) : Word := BitVec.ofNat 32 (s.tb3.sec.toNat * 1000000000 + s.tb3.ns)

/-! ### Free values -/

/-- Draw the next free value of the device. -/
def drawFree (s : State) : Dword × State := (Config.draw s.free, { s with free := s.free + 1 })

/-- `n` doublewords of the device's draws, from the k-th on, as bytes: the bytes of a key (R449). -/
def drawnBytes (k n : Nat) : List Byte := (List.range n).flatMap fun i => toLE 8 (Config.draw (k + i)).toNat

/-- Advance a counter by a free number, where what it counts lies outside the model (log entry 9). -/
def bumpFree (s : State) (page idx : Nat) : State :=
  let t := bump s page idx (drawFree s).1.toNat
  { s with cnts := t.cnts, regs := t.regs, free := s.free + 1 }

/-- Write ERR_CODE of a page where the spec names no contents of the INFO words: they are free (log entry 27). -/
def pageErrOpen (s : State) (page code : Nat) : State :=
  pageErr { s with free := s.free + 2 } page code (Config.draw s.free).toNat (Config.draw (s.free + 1)).toNat

/-! ### Harts -/

/-- Write a destination register of a hart; x0 discards. -/
def wrX (h : Hart) (rd : Nat) (v : Dword) : Hart := if rd = 0 then h else { h with x := tset 0 h.x rd v }

/-- A trap taken by a hart (R42, R224). -/
def trapHart (s : State) (h : Nat) (t : Trap) : State := s.setHart h { s.hart h with trap := some t }

/-- The context a hart runs for: warden harts run for context 0 (R37). -/
def hartCtx (s : State) (h : Nat) : Option Nat :=
  if h = 256 ∨ h = 257 then some 0 else if (s.hart h).bound then some (s.hart h).ctx else none

/-- The harts bound to a context, in ascending core engine identifier, hart 0 first (R45). -/
def boundHarts (s : State) (n : Nat) : List Nat :=
  (List.range 258).filter fun h => hartCtx s h == some n

/-- A hart can issue a command: its die is in RUN (R436), it is not blocked, stopped or halted, and it is a warden hart whose core
runs the firmware (R508, R518), or it is bound to a context in RUN or ABORTED (R37). -/
def hartRuns (s : State) (h : Nat) : Bool :=
  h < 258 && (s.die (hartEng h / 256)).state == 0 && (!s.dead || hartCtx s h == some 0) &&
  (if 256 ≤ h then s.boot.wdnRun == 2
   else match hartCtx s h with
    | some n => (s.ctx n).st == .run || (s.ctx n).st == .aborted
    | none => false) &&
  (s.hart h).blocked.isNone && !(s.hart h).stopped && !(s.hart h).halted

/-! ### Tags (R54 to R57) -/

/-- The quota of a context on a saltern (R55): context 0 holds 32 from reset. -/
def quotaOf (s : State) (n d : Nat) : Nat := tget (if n = 0 then 32 else 0) s.quota (n * 8 + d)

/-- Set a quota. -/
def setQuota (s : State) (n d q : Nat) : State :=
  { s with quota := tset (if n = 0 then 32 else 0) s.quota (n * 8 + d) q }

/-- Tags of a context in use on a saltern. -/
def tagsInUse (s : State) (n d : Nat) : Nat := s.tags.countP fun p => p.2.ctx == n && p.1 / 1024 == d

/-- Tags that a hart holds (R56). -/
def hartTags (s : State) (h : Nat) : Nat := s.tags.countP fun p => p.2.hart == h

/-- The saltern whose pool a push of a hart draws from (R54). -/
def tagDie (h e : Nat) : Nat := if h < 256 then h / 32 else if e / 256 < 8 then e / 256 else 0

/-- The tags of saltern `d` that are not in use (R54, R57). -/
def freeTags (s : State) (d : Nat) : List Nat := ((List.range 1024).map (d * 1024 + ·)).filter fun t => (tfind s.tags t).isNone

/-- A push of hart `h` for context `n` can take a tag on a saltern: its quota, its hart's 256 and the pool leave one (R54 to R56). -/
def tagFree (s : State) (n h d : Nat) : Bool := tagsInUse s n d < quotaOf s n d && hartTags s h < 256 && !(freeTags s d).isEmpty

/-- Assign a tag of saltern `d`: one that is not in use (R57); which one is free (DESIGN CHOICE, log entry 12). -/
def takeTag (s : State) (n h d : Nat) : Nat × State :=
  let avail := freeTags s d
  let t := avail.getD (Config.pickTag s.free % avail.length) 0
  (t, { s with tags := tput s.tags t { ctx := n, hart := h, recorded := false }, free := s.free + 1 })

/-- Free a tag. -/
def dropTag (s : State) (t : Nat) : State := { s with tags := tdel s.tags t }

/-! ### Images (R457, R481) -/

/-- The key of an instance of an image kind. -/
def instKey (kind inst : Nat) : Nat := kind * 65536 + inst

/-- The VERSION of the image that an instance runs (R481, R487). -/
def instVersion (s : State) (kind inst : Nat) : Word :=
  match tfind s.svc.instVer (instKey kind inst) with
  | some v => v
  | none => (tget {} s.sec.running kind).version

/-! ### Error records (R471, R472) -/

/-- The words of an error record (R471), with `epoch` 0 and `ctx` 0 when it is charged to every context. -/
def errWords (s : State) (code ctx : Nat) (all aborts : Bool) (eng epoch addr info : Nat) : List Word :=
  [ BitVec.ofNat 32 (code + ctx * 2 ^ 16 + b2n all * 2 ^ 22 + b2n aborts * 2 ^ 23),
    BitVec.ofNat 32 (eng + epoch * 2 ^ 16),
    BitVec.ofNat 32 addr,
    BitVec.ofNat 32 (addr / 2 ^ 32 % 2 ^ 20),
    BitVec.ofNat 32 s.tb3.ns,
    BitVec.ofNat 32 s.tb3.sec.toNat,
    BitVec.ofNat 32 (s.tb3.sec.toNat / 2 ^ 32 + s.svc.seq.toNat * 2 ^ 16),
    BitVec.ofNat 32 info ]

/-- Append an error record to the log, or drop and count it when the log is full; SEQ counts both (R471). -/
def errRecord (s : State) (code ctx : Nat) (all aborts : Bool) (eng epoch addr info : Nat) : State :=
  let w := errWords s code ctx all aborts eng epoch addr info
  let s1 := { s with svc := { s.svc with seq := s.svc.seq + 1 } }
  if s.svc.log.length < 1024 then
    evt { s1 with svc := { s1.svc with log := s1.svc.log ++ [{ words := w }] } } (pageOf 5 0) 0
  else bump s1 (pageOf 5 0) 0 1

/-! ### Page event queues -/

/-- A name of a context maps no object: the fault names both (R9); no register shows it (log entry 67). -/
def nameFault (s : State) (ctx vid : Nat) : State :=
  { s with nameFaults := s.nameFaults ++ [{ ctx := ctx, vid := vid % 16384 }] }

/-- Post an event to the SYNC page (R286): 256 entries, an overflow is counted; EVT_RAW bit code − 1 (R287). -/
def syncEvent (s : State) (ctx code : Nat) (info : Nat) : State :=
  let s1 := if s.syncEvq.length < 256
    then { s with syncEvq := s.syncEvq ++ [{ ctx := ctx, code := code, info := BitVec.ofNat 32 info }] }
    else bump s (pageOf 15 8) 4 1
  evt s1 (pageOf 15 8) (code - 1)

end Sys2Proof.Machine
end

