-- ==== Sys2Proof/Machine/Sha384.lean ====
section
/-! DEFINITION. SHA-384 (R447), used for image digests and measurements. -/

namespace Sys2Proof.Machine

open Sys2Proof

/-- The first 64 fraction bits of the cube roots of the primes of a table of ten, the first prime leftmost, sixteen digits each. -/
def shaRoots (digits : Nat) : List Dword :=
  (List.range 10).map fun i => BitVec.ofNat 64 (digits / 2 ^ (64 * (9 - i)))

/-- Cube roots of primes 1 to 10. -/
def shaRoots0 : List Dword := shaRoots
  0x428a2f98d728ae227137449123ef65cdb5c0fbcfec4d3b2fe9b5dba58189dbbc3956c25bf348b53859f111f1b605d019923f82a4af194f9bab1c5ed5da6d8118d807aa98a303024212835b0145706fbe

/-- Cube roots of primes 11 to 20. -/
def shaRoots1 : List Dword := shaRoots
  0x243185be4ee4b28c550c7dc3d5ffb4e272be5d74f27b896f80deb1fe3b1696b19bdc06a725c71235c19bf174cf692694e49b69c19ef14ad2efbe4786384f25e30fc19dc68b8cd5b5240ca1cc77ac9c65

/-- Cube roots of primes 21 to 30. -/
def shaRoots2 : List Dword := shaRoots
  0x2de92c6f592b02754a7484aa6ea6e4835cb0a9dcbd41fbd476f988da831153b5983e5152ee66dfaba831c66d2db43210b00327c898fb213fbf597fc7beef0ee4c6e00bf33da88fc2d5a79147930aa725

/-- Cube roots of primes 31 to 40. -/
def shaRoots3 : List Dword := shaRoots
  0x06ca6351e003826f142929670a0e6e7027b70a8546d22ffc2e1b21385c26c9264d2c6dfc5ac42aed53380d139d95b3df650a73548baf63de766a0abb3c77b2a881c2c92e47edaee692722c851482353b

/-- Cube roots of primes 41 to 50. -/
def shaRoots4 : List Dword := shaRoots
  0xa2bfe8a14cf10364a81a664bbc423001c24b8b70d0f89791c76c51a30654be30d192e819d6ef5218d69906245565a910f40e35855771202a106aa07032bbd1b819a4c116b8d2d0c81e376c085141ab53

/-- Cube roots of primes 51 to 60. -/
def shaRoots5 : List Dword := shaRoots
  0x2748774cdf8eeb9934b0bcb5e19b48a8391c0cb3c5c95a634ed8aa4ae3418acb5b9cca4f7763e373682e6ff3d6b2b8a3748f82ee5defb2fc78a5636f43172f6084c87814a1f0ab728cc702081a6439ec

/-- Cube roots of primes 61 to 70. -/
def shaRoots6 : List Dword := shaRoots
  0x90befffa23631e28a4506cebde82bde9bef9a3f7b2c67915c67178f2e372532bca273eceea26619cd186b8c721c0c207eada7dd6cde0eb1ef57d4f7fee6ed17806f067aa72176fba0a637dc5a2c898a6

/-- Cube roots of primes 71 to 80. -/
def shaRoots7 : List Dword := shaRoots
  0x113f9804bef90dae1b710b35131c471b28db77f523047d8432caab7b40c724933c9ebe0a15c9bebc431d67c49c100d4c4cc5d4becb3e42b6597f299cfc657e2a5fcb6fab3ad6faec6c44198c4a475817

/-- The round constants of SHA-512, which SHA-384 shares. -/
def shaK : List Dword :=
  [shaRoots0, shaRoots1, shaRoots2, shaRoots3, shaRoots4, shaRoots5, shaRoots6, shaRoots7].flatten

/-- The initial hash value: the first 64 fraction bits of the square roots of the ninth to sixteenth primes, sixteen digits each. -/
def shaInit : List Dword :=
  (List.range 8).map fun i => BitVec.ofNat 64
    (0xcbbb9d5dc1059ed8629a292a367cd5079159015a3070dd17152fecd8f70e593967332667ffc00b318eb44a8768581511db0c2e0d64f98fa747b5481dbefa4fa4 / 2 ^ (64 * (7 - i)))

/-- Big-endian 64-bit words of a byte list whose length is a multiple of 8. -/
def beWords : Nat → List Byte → List Dword
  | 0, _ => []
  | n + 1, l => BitVec.ofNat 64 (ofBE (l.take 8)) :: beWords n (l.drop 8)

/-- The padding of a message of `n` bytes: 0x80, zeros, and the bit count as 16 big-endian bytes. -/
def shaPad (n : Nat) : List Byte :=
  0x80 :: (List.replicate ((239 - n % 128) % 128) (0 : Byte) ++ (toLE 16 (8 * n)).reverse)

/-- The exclusive or of a word rotated right by each of a list of amounts. -/
def rotations (amounts : List Nat) (x : Dword) : Dword := (amounts.map x.rotateRight).foldl (· ^^^ ·) 0

/-- The message schedule, latest word first: `n` words on from those given. A word is the sum of four earlier ones, two of them mixed. -/
def shaSchedule : Nat → List Dword → List Dword
  | 0, w => w
  | n + 1, w =>
    let mixed := fun (i : Nat) (amounts : List Nat) (down : Nat) => rotations amounts (w.getD i 0) ^^^ (w.getD i 0 >>> down)
    shaSchedule n (([w.getD 6 0, w.getD 15 0, mixed 1 [19, 61] 6, mixed 14 [1, 8] 7].foldl (· + ·) 0) :: w)

/-- One round. The working variables a to d are the four latest values of one sequence and e to h those of another, latest first. -/
def shaRound (v : List Dword × List Dword) (kw : Dword × Dword) : List Dword × List Dword :=
  match v with
  | (a :: as, e :: es) =>
    let b := as.getD 0 0
    let f := es.getD 0 0
    let pick := ((f ^^^ es.getD 1 0) &&& e) ^^^ es.getD 1 0
    let most := (b &&& as.getD 1 0) ||| (a &&& (b ||| as.getD 1 0))
    let t := kw.1 + kw.2 + es.getD 2 0 + pick + rotations [14, 18, 41] e
    ((t + most + rotations [28, 34, 39] a) :: a :: as.take 2, (t + as.getD 2 0) :: e :: es.take 2)
  | _ => v

/-- The compression of one block of 128 bytes. -/
def shaBlock (h : List Dword) (block : List Byte) : List Dword :=
  let w := (shaSchedule 64 (beWords 16 block).reverse).reverse
  let v := (shaK.zip w).foldl shaRound (h.take 4, h.drop 4)
  List.zipWith (· + ·) h (v.1 ++ v.2)

/-- The blocks of a padded message. -/
def shaBlocks : Nat → List Dword → List Byte → List Dword
  | 0, h, _ => h
  | n + 1, h, l => shaBlocks n (shaBlock h (l.take 128)) (l.drop 128)

/-- SHA-384: 48 bytes. -/
def sha384 (m : List Byte) : List Byte :=
  let p := m ++ shaPad m.length
  (((shaBlocks (p.length / 128) shaInit p).take 6).map fun w => (toLE 8 w.toNat).reverse).flatten

end Sys2Proof.Machine
end

