-- ==== Sys2Proof/Machine/Aes.lean ====
section
/-! DEFINITION. AES-256 (R447) in the modes that the device uses: XTS for stacked memory (R238), GCM for sealed pages, sealed objects,
links and MACsec (R240, R298, R340, R454), and HKDF with SHA-384 (R298, R449). Keys and blocks are byte lists. -/

namespace Sys2Proof.Machine

open Sys2Proof

/-! ### The block cipher -/

/-- The substitution of FIPS 197, two digits a byte, that of 0 leftmost. -/
def aesSubst : Nat :=
  0x637c777bf26b6fc53001672bfed7ab76ca82c97dfa5947f0add4a2af9ca472c0b7fd9326363ff7cc34a5e5f171d8311504c723c31896059a071280e2eb27b27509832c1a1b6e5aa0523bd6b329e32f8453d100ed20fcb15b6acbbe394a4c58cfd0efaafb434d338545f9027f503c9fa851a3408f929d38f5bcb6da2110fff3d2cd0c13ec5f974417c4a77e3d645d197360814fdc222a908846eeb814de5e0bdbe0323a0a4906245cc2d3ac629195e479e7c8376d8dd54ea96c56f4ea657aae08ba78252e1ca6b4c6e8dd741f4bbd8b8a703eb5664803f60e613557b986c11d9ee1f8981169d98e949b1e87e9ce5528df8ca1890dbfe6426841992d0fb054bb16

/-- The inverse substitution. -/
def aesSubstInv : Nat :=
  0x52096ad53036a538bf40a39e81f3d7fb7ce339829b2fff87348e4344c4dee9cb547b9432a6c2233dee4c950b42fac34e082ea16628d924b2765ba2496d8bd12572f8f66486689816d4a45ccc5d65b6926c704850fdedb9da5e154657a78d9d8490d8ab008cbcd30af7e45805b8b34506d02c1e8fca3f0f02c1afbd0301138a6b3a9111414f67dcea97f2cfcef0b4e67396ac7422e7ad3585e2f937e81c75df6e47f11a711d29c5896fb7620eaa18be1bfc563e4bc6d279209adbc0fe78cd5af41fdda8338807c731b11210592780ec5f60517fa919b54a0d2de57a9f93c99cefa0e03b4dae2af5b0c8ebbb3c83539961172b047eba77d626e169146355210c7d

/-- A byte of a table of 256. -/
def tableByte (table : Nat) (x : Byte) : Byte := BitVec.ofNat 8 (table / 256 ^ (255 - x.toNat))

/-- The exclusive or of two byte lists, as long as the shorter. -/
def xorBytes (a b : List Byte) : List Byte := List.zipWith (· ^^^ ·) a b

/-- Doubling in the field of AES. -/
def fieldDouble (x : Byte) : Byte := if x.getLsbD 7 then (x <<< 1) ^^^ 0x1B else x <<< 1

/-- `k` times a byte in the field of AES, for `k` below 16. -/
def fieldTimes (k : Nat) (x : Byte) : Byte :=
  ((List.range 4).map fun i => if bit k i then Nat.repeat fieldDouble i x else 0).foldl (· ^^^ ·) 0

/-- Rotate the rows of a block; row r moves by r × `step` columns. -/
def aesRows (step : Nat) (l : List Byte) : List Byte :=
  (List.range 16).map fun i => l.getD (i % 4 + 4 * ((i / 4 + step * (i % 4)) % 4)) 0

/-- Mix the columns of a block by the coefficients of a row. -/
def aesColumns (coeffs : List Nat) (l : List Byte) : List Byte :=
  (List.range 16).map fun i =>
    (coeffs.zipIdx.map fun c => fieldTimes c.1 (l.getD (i / 4 * 4 + (i + c.2) % 4) 0)).foldl (· ^^^ ·) 0

/-- The words of the key schedule, latest first: the key's eight, and `n` more. -/
def aesSchedule (key : List Byte) : Nat → List (List Byte)
  | 0 => ((List.range 8).map fun i => slice key (4 * i) 4).reverse
  | n + 1 =>
    let w := aesSchedule key n
    let last := w.headD []
    let turned := (last.drop 1 ++ last.take 1).map (tableByte aesSubst)
    let g :=
      if n % 8 = 0 then xorBytes turned [BitVec.ofNat 8 (2 ^ (n / 8)), 0, 0, 0]
      else if n % 8 = 4 then last.map (tableByte aesSubst) else last
    xorBytes (w.getD 7 []) g :: w

/-- The fifteen round keys of a 256-bit key. -/
def aesKeys (key : List Byte) : List (List Byte) :=
  let w := (aesSchedule key 52).reverse
  (List.range 15).map fun i => (slice w (4 * i) 4).flatten

/-- One block encrypted. -/
def aesEncrypt (key block : List Byte) : List Byte :=
  let ks := aesKeys key
  let mid := (slice ks 1 13).foldl
    (fun b k => xorBytes (aesColumns [2, 3, 1, 1] (aesRows 1 (b.map (tableByte aesSubst)))) k) (xorBytes block (ks.headD []))
  xorBytes (aesRows 1 (mid.map (tableByte aesSubst))) (ks.getD 14 [])

/-- One block decrypted. -/
def aesDecrypt (key block : List Byte) : List Byte :=
  let ks := aesKeys key
  let mid := (slice ks 1 13).reverse.foldl
    (fun b k => aesColumns [14, 11, 13, 9] (xorBytes ((aesRows 3 b).map (tableByte aesSubstInv)) k)) (xorBytes block (ks.getD 14 []))
  xorBytes ((aesRows 3 mid).map (tableByte aesSubstInv)) (ks.headD [])

/-! ### XTS (R238) -/

/-- The next tweak of a data unit: the previous one times x. -/
def xtsNext (t : List Byte) : List Byte :=
  let n := 2 * ofLE t
  toLE 16 (if n < 2 ^ 128 then n else (n - 2 ^ 128) ^^^ 0x87)

/-- A data unit of whole blocks under a 512-bit key: `cipher` encrypts or decrypts each block with the first half of the key; the tweak is
encrypted with the second. -/
def xtsUnit (cipher : List Byte → List Byte → List Byte) (key : List Byte) (unit : Nat) (data : List Byte) : List Byte :=
  let t0 := aesEncrypt (key.drop 32) (toLE 16 unit)
  ((List.range (data.length / 16)).map fun i =>
    let t := Nat.repeat xtsNext i t0
    xorBytes (cipher (key.take 32) (xorBytes (slice data (16 * i) 16) t)) t).flatten

/-! ### GCM (R240, R298, R340, R454) -/

/-- Multiplication in the field of GHASH, the first bit of a block the most significant: `n` bits of x are still to come, `z` is the sum so
far and `v` the multiple of y due. -/
def ghashTimes : Nat → BitVec 128 → BitVec 128 → BitVec 128 → BitVec 128
  | 0, _, z, _ => z
  | n + 1, x, z, v =>
    ghashTimes n x (if x.getLsbD n then z ^^^ v else z)
      (if v.getLsbD 0 then (v >>> 1) ^^^ BitVec.ofNat 128 (0xE1 * 2 ^ 120) else v >>> 1)

/-- Bytes padded with zeros to whole blocks of 16. -/
def padBlocks (l : List Byte) : List Byte := l ++ List.replicate ((16 - l.length % 16) % 16) 0

/-- GHASH of whole blocks. -/
def ghash (h : BitVec 128) : Nat → BitVec 128 → List Byte → BitVec 128
  | 0, y, _ => y
  | n + 1, y, l => ghash h n (ghashTimes 128 (y ^^^ BitVec.ofNat 128 (ofBE (l.take 16))) 0 h) (l.drop 16)

/-- Big-endian bytes of a number. -/
def toBE (n v : Nat) : List Byte := (toLE n v).reverse

/-- The key stream of a 96-bit IV from counter 2 on, exclusive-ored onto data: GCM encrypts and decrypts so. -/
def gcmStream (key iv data : List Byte) : List Byte :=
  xorBytes data ((List.range (cdiv data.length 16)).map fun i => aesEncrypt key (iv ++ toBE 4 (i + 2))).flatten

/-- The 128-bit tag of a 96-bit IV, additional data and ciphertext. -/
def gcmTag (key iv aad cipher : List Byte) : List Byte :=
  let h := BitVec.ofNat 128 (ofBE (aesEncrypt key (List.replicate 16 0)))
  let text := padBlocks aad ++ padBlocks cipher ++ toBE 8 (8 * aad.length) ++ toBE 8 (8 * cipher.length)
  xorBytes (toBE 16 (ghash h (text.length / 16) 0 text).toNat) (aesEncrypt key (iv ++ toBE 4 1))

/-! ### HKDF with SHA-384 (R298, R449) -/

/-- HMAC with SHA-384, for keys of at most 128 bytes. -/
def hmac384 (key msg : List Byte) : List Byte :=
  let k := padTo 0 128 key
  sha384 (k.map (· ^^^ 0x5C) ++ sha384 (k.map (· ^^^ 0x36) ++ msg))

/-- `n` bytes, at most 48 × 255, of HKDF from a salt, a secret and a label. -/
def hkdf384 (salt secret label : List Byte) (n : Nat) : List Byte :=
  let prk := hmac384 salt secret
  let out := (List.range (cdiv n 48)).foldl
    (fun (o : List Byte × List Byte) i => let t := hmac384 prk (o.2 ++ label ++ [BitVec.ofNat 8 (i + 1)]); (o.1 ++ t, t)) ([], [])
  out.1.take n

end Sys2Proof.Machine
end

