-- ==== Sys2Proof/Machine/Num.lean ====
section
/-! DEFINITION. Number formats, exact values, rounding, flakes, and the stochastic-rounding generator (03). -/

namespace Sys2Proof.Machine

open Sys2Proof

/-! ### Exact values -/

/-- An exact value: NaN, an infinity, or ± n / d. A zero keeps its sign (R72, R84). -/
inductive Val where
  | nan
  | inf (neg : Bool)
  | fin (neg : Bool) (n d : Nat)
  deriving DecidableEq, Repr

/-- +0. -/
def Val.zero : Val := .fin false 0 1

/-- |v|. -/
def Val.abs : Val → Val
  | .nan => .nan
  | .inf _ => .inf false
  | .fin _ n d => .fin false n d

/-- −v. -/
def Val.neg : Val → Val
  | .nan => .nan
  | .inf s => .inf !s
  | .fin s n d => .fin (!s) n d

/-- v is NaN. -/
def Val.isNan : Val → Bool
  | .nan => true
  | _ => false

/-- v is an infinity. -/
def Val.isInf : Val → Bool
  | .inf _ => true
  | _ => false

/-- v is finite. -/
def Val.isFin : Val → Bool
  | .fin _ _ _ => true
  | _ => false

/-- v is a zero of either sign. -/
def Val.isZero : Val → Bool
  | .fin _ n _ => n == 0
  | _ => false

/-- The sign of v. -/
def Val.sign : Val → Bool
  | .nan => false
  | .inf s => s
  | .fin s _ _ => s

/-- The exact sum, with the signed zeros and infinities of IEEE 754 under RNE: x + (−x) is +0. -/
def Val.add : Val → Val → Val
  | .nan, _ => .nan
  | _, .nan => .nan
  | .inf a, .inf b => if a = b then .inf a else .nan
  | .inf a, _ => .inf a
  | _, .inf b => .inf b
  | .fin a n d, .fin b m e =>
    if n = 0 ∧ m = 0 then .fin (a && b) 0 1
    else if a = b then .fin a (n * e + m * d) (d * e)
    else if m * d ≤ n * e then .fin (if m * d = n * e then false else a) (n * e - m * d) (d * e)
    else .fin b (m * d - n * e) (d * e)

/-- The exact product. -/
def Val.mul : Val → Val → Val
  | .nan, _ => .nan
  | _, .nan => .nan
  | .inf a, .inf b => .inf (a != b)
  | .inf a, .fin b m _ => if m = 0 then .nan else .inf (a != b)
  | .fin a n _, .inf b => if n = 0 then .nan else .inf (a != b)
  | .fin a n d, .fin b m e => .fin (a != b) (n * m) (d * e)

/-- The exact quotient; a quotient by zero is an infinity, and 0 / 0 is NaN. -/
def Val.div : Val → Val → Val
  | .nan, _ => .nan
  | _, .nan => .nan
  | .inf _, .inf _ => .nan
  | .inf a, .fin b _ _ => .inf (a != b)
  | .fin a _ _, .inf b => .fin (a != b) 0 1
  | .fin a n d, .fin b m e =>
    if m = 0 then (if n = 0 then .nan else .inf (a != b)) else .fin (a != b) (n * e) (d * m)

/-- x < y of exact values that are not NaN; zeros of either sign are equal. -/
def Val.lt : Val → Val → Bool
  | .nan, _ => false
  | _, .nan => false
  | .inf a, .inf b => a && !b
  | .inf a, _ => a
  | _, .inf b => !b
  | .fin a n d, .fin b m e =>
    let x : Int := if a then -(n * e : Nat) else (n * e : Nat)
    let y : Int := if b then -(m * d : Nat) else (m * d : Nat)
    decide (x < y)

/-- x = y as numbers; NaN equals nothing. -/
def Val.eq (x y : Val) : Bool := !x.isNan && !y.isNan && !x.lt y && !y.lt x

/-- 2^k. -/
def Val.pow2 (k : Int) : Val := if 0 ≤ k then .fin false (2 ^ k.toNat) 1 else .fin false 1 (2 ^ (-k).toNat)

/-- An integer. -/
def Val.ofInt (k : Int) : Val := .fin (decide (k < 0)) k.natAbs 1

/-! ### Formats (R71) -/

/-- A format: exponent and mantissa bits, bias, a sign bit, the largest finite magnitude code, whether the next code is
infinity, and the canonical NaN (R85). Magnitude codes above are NaN. -/
structure Fmt where
  eb : Nat
  mb : Nat
  bias : Nat
  sgn : Bool
  top : Nat
  inf : Bool
  nan : Nat
  deriving DecidableEq, Repr

def fF4 : Fmt := { eb := 2, mb := 1, bias := 1, sgn := true, top := 7, inf := false, nan := 0 }
def fF8 : Fmt := { eb := 4, mb := 3, bias := 7, sgn := true, top := 0x7E, inf := false, nan := 0x7F }
def fF8W : Fmt := { eb := 5, mb := 2, bias := 15, sgn := true, top := 0x7B, inf := true, nan := 0x7E }
def fBF16 : Fmt := { eb := 8, mb := 7, bias := 127, sgn := true, top := 0x7F7F, inf := true, nan := 0x7FC0 }
def fFP16 : Fmt := { eb := 5, mb := 10, bias := 15, sgn := true, top := 0x7BFF, inf := true, nan := 0x7E00 }
def fFP32 : Fmt := { eb := 8, mb := 23, bias := 127, sgn := true, top := 0x7F7FFFFF, inf := true, nan := 0x7FC00000 }
def fU16E : Fmt := { eb := 6, mb := 10, bias := 31, sgn := false, top := 0xFBFF, inf := false, nan := 0xFFFF }

/-- m × 2^k as an exact value. -/
def scaled (neg : Bool) (m : Nat) (k : Int) : Val :=
  if 0 ≤ k then .fin neg (m * 2 ^ k.toNat) 1 else .fin neg m (2 ^ (-k).toNat)

/-- The value of a code (R71 to R78). -/
def decodeFmt (f : Fmt) (c : Nat) : Val :=
  let mag := c % 2 ^ (f.eb + f.mb)
  let neg := f.sgn && bit c (f.eb + f.mb)
  if f.top < mag then (if f.inf ∧ mag = f.top + 1 then .inf neg else .nan)
  else
    let e := mag / 2 ^ f.mb
    let m := mag % 2 ^ f.mb
    if e = 0 then scaled neg m (1 - (f.bias : Int) - f.mb)
    else scaled neg (2 ^ f.mb + m) ((e : Int) - f.bias - f.mb)

/-! ### Rounding (R84 to R88) -/

/-- The rounding modes of R84. -/
inductive Rnd where
  | rne | rz | sr
  deriving DecidableEq, Repr

/-- The mode of a descriptor's RND code: 0 RNE, 1 RZ, 2 SR. -/
def rndOf (n : Nat) : Rnd := if n = 1 then .rz else if n = 2 then .sr else .rne

/-- floor(log2(n / d)) for n, d above 0. -/
def log2q (n d : Nat) : Int :=
  let k : Int := (Nat.log2 n : Int) - (Nat.log2 d : Int)
  let le := if 0 ≤ k then decide (d * 2 ^ k.toNat ≤ n) else decide (d ≤ n * 2 ^ (-k).toNat)
  if le then k else k - 1

/-- Magnitude code of n / d rounded in a mode, with the exponent unbounded above: codes of a format rise with the magnitude, and
code + 1 is the next magnitude. `r` holds the 16 random bits of R94. -/
def roundMag (f : Fmt) (mode : Rnd) (r n d : Nat) : Nat :=
  if n = 0 then 0
  else
    let emin : Int := 1 - f.bias
    let k := log2q n d
    let e := if k < emin then emin else k
    let s := e - f.mb
    let num := if 0 ≤ s then n else n * 2 ^ (-s).toNat
    let den := if 0 ≤ s then d * 2 ^ s.toNat else d
    let q := num / den
    let rest := num % den
    let lo := (e - emin).toNat * 2 ^ f.mb + q
    let up := match mode with
      | .rne => decide (den < 2 * rest) || (2 * rest == den && lo % 2 == 1)
      | .rz => false
      | .sr => decide (r < rest * 65536 / den)
    if up then lo + 1 else lo

/-- The sign bit of a code. -/
def signBit (f : Fmt) (neg : Bool) : Nat := if f.sgn && neg then 2 ^ (f.eb + f.mb) else 0

/-- n / d lies above the largest finite value of a format. -/
def aboveTop (f : Fmt) (n d : Nat) : Bool := Val.lt (decodeFmt f f.top) (.fin false n d)

/-- Convert an exact value into a format (R84 to R88): the code, and whether a finite magnitude was clamped to the largest
value of a format without infinity (the saturation of R86). -/
def convert (f : Fmt) (mode : Rnd) (r : Nat) : Val → Nat × Bool
  | .nan => (f.nan, false)
  | .inf s => if f.inf then (f.top + 1 + signBit f s, false) else (f.nan, false)
  | .fin s n d =>
    if !f.sgn && s && n != 0 then (f.nan, false)
    else
      let c := roundMag f mode r n d
      let big := decide (f.top < c)
      let mag := if big then (if f.inf ∧ mode ≠ .rz then f.top + 1 else f.top) else c
      (mag + signBit f s, !f.inf && aboveTop f n d)

/-- Convert to a code. -/
def code (f : Fmt) (mode : Rnd) (r : Nat) (v : Val) : Nat := (convert f mode r v).1

/-! ### FP32 arithmetic: one rounding, RNE (R85, R108) -/

/-- The value of an FP32 word. -/
def f32 (w : Word) : Val := decodeFmt fFP32 w.toNat

/-- The FP32 word of a value, rounded RNE. -/
def toF32 (v : Val) : Word := BitVec.ofNat 32 (code fFP32 .rne 0 v)

def fadd (a b : Word) : Word := toF32 ((f32 a).add (f32 b))
def fmul (a b : Word) : Word := toF32 ((f32 a).mul (f32 b))
def ffma (a b c : Word) : Word := toF32 (((f32 a).mul (f32 b)).add (f32 c))

/-- The BF16 code of an FP32 word, RNE. -/
def bf16Of (w : Word) : BitVec 16 := BitVec.ofNat 16 (code fBF16 .rne 0 (f32 w))

/-- The larger value; a NaN wins (canonical), and +0 is above −0. -/
def vmax (a b : Word) : Word :=
  let x := f32 a
  let y := f32 b
  if x.isNan || y.isNan then 0x7FC00000
  else if x.isZero && y.isZero then (if x.sign && y.sign then 0x80000000 else 0)
  else if x.lt y then b else a

/-- The smaller value; a NaN wins (canonical), and −0 is below +0. -/
def vmin (a b : Word) : Word :=
  let x := f32 a
  let y := f32 b
  if x.isNan || y.isNan then 0x7FC00000
  else if x.isZero && y.isZero then (if x.sign || y.sign then 0x80000000 else 0)
  else if y.lt x then b else a

/-! ### The generator (R94) -/

/-- One round of Philox4x32: the four counter words and the two key words. -/
def philoxRound (c : Word × Word × Word × Word) (k0 k1 : Word) : Word × Word × Word × Word :=
  let (c0, c1, c2, c3) := c
  let p0 := c0.toNat * 0xD2511F53
  let p1 := c2.toNat * 0xCD9E8D57
  (BitVec.ofNat 32 (p1 / 2 ^ 32) ^^^ c1 ^^^ k0, BitVec.ofNat 32 p1, BitVec.ofNat 32 (p0 / 2 ^ 32) ^^^ c3 ^^^ k1, BitVec.ofNat 32 p0)

/-- `n` rounds, the key rising between rounds. -/
def philox : Nat → Word × Word × Word × Word → Word → Word → Word × Word × Word × Word
  | 0, c, _, _ => c
  | n + 1, c, k0, k1 => philox n (philoxRound c k0 k1) (k0 + 0x9E3779B9) (k1 + 0xBB67AE85)

/-- The 16 random bits of an element (R94). -/
def srBits (seed : Dword) (tid step : Word) (idx : Nat) : Nat :=
  let (o0, o1, o2, o3) := philox 10 (tid, step, BitVec.ofNat 32 (idx / 8), BitVec.ofNat 32 (idx / 8 / 2 ^ 32 % 2 ^ 13))
    (BitVec.ofNat 32 seed.toNat) (BitVec.ofNat 32 (seed.toNat / 2 ^ 32))
  let j := idx % 8
  let w := match j / 2 with
    | 0 => o0
    | 1 => o1
    | 2 => o2
    | _ => o3
  if j % 2 = 0 then w.toNat % 65536 else w.toNat / 65536

/-! ### Flakes (R77, R81, R89, R90) -/

/-- The value of an S8 code with exponent 1 to 30: (8 + m) × 2^(e − 18). -/
def s8Val (c : Nat) : Val := scaled false (8 + c % 8) ((c / 8 % 32 : Nat) - 18)

/-- |C| of a BF16 crust scale. -/
def crustAbs (c : BitVec 16) : Val := (decodeFmt fBF16 c.toNat).abs

/-- C has exponent field 0. -/
def crustZero (c : BitVec 16) : Bool := c.toNat / 128 % 256 == 0

/-- C is infinite or NaN. -/
def crustNonfin (c : BitVec 16) : Bool := c.toNat / 128 % 256 == 255

/-- The exact value of an element (R81): flake scale `s8` (none in CRUST_ONLY), crust scale `c`. -/
def elemVal (f : Fmt) (elem : Nat) (s8 : Option Nat) (c : BitVec 16) : Val :=
  match s8 with
  | some s =>
    if s / 8 = 0 then .zero
    else if s / 8 = 31 then .nan
    else if crustZero c then .zero
    else if crustNonfin c then .nan
    else ((decodeFmt f elem).mul (s8Val s)).mul (crustAbs c)
  | none =>
    if crustZero c then .zero else if crustNonfin c then .nan else (decodeFmt f elem).mul (crustAbs c)

/-- The largest magnitude of a list of values. -/
def maxAbs : List Val → Val
  | [] => .zero
  | v :: vs => let m := maxAbs vs; if m.lt v.abs then v.abs else m

/-- The largest value M of an element format (R89). -/
def fmtMax (f : Fmt) : Val := decodeFmt f f.top

/-- The smallest S8 code whose value is at least n / d; 0xF8 where no S8 value is (R89). -/
def s8Ceil (n d : Nat) : Nat :=
  let k := log2q n d
  let e : Int := if k < -14 then -14 else k
  let s := e - 3
  let num := if 0 ≤ s then n else n * 2 ^ (-s).toNat
  let den := if 0 ≤ s then d * 2 ^ s.toNat else d
  let lo := (e + 14).toNat * 8 + num / den
  let c := if num % den = 0 then lo else lo + 1
  if c < 8 then 8 else if 0xF7 < c then 0xF8 else c

/-- A quantised flake: the S8 code, the element codes, whether it saturated (R89 step 5), whether it is non-finite (step 1). -/
structure QFlake where
  s8 : Nat
  codes : List Nat
  sat : Bool
  nonfin : Bool
  deriving DecidableEq, Repr

/-- The codes of the elements of a flake against a divisor: each exact quotient converted, and clamped to ±M where it exceeds M. -/
def flakeCodes (f : Fmt) (mode : Rnd) (div : Val) : List (Val × Nat) → List Nat
  | [] => []
  | (x, r) :: xs =>
    let q := x.div div
    let c := if (fmtMax f).lt q.abs then f.top + signBit f x.sign else code f mode r q
    c :: flakeCodes f mode div xs

/-- Quantise a flake (R89). `scaleOf` holds the values that A is taken over (the elements that remain, R124), and each element
comes with its random bits. -/
def quantFlake (f : Fmt) (mode : Rnd) (c : BitVec 16) (scaleOf : List Val) (xs : List (Val × Nat)) : QFlake :=
  let zeros := xs.map fun _ => 0
  if crustNonfin c || xs.any (fun p => !p.1.isFin) then { s8 := 0xF8, codes := zeros, sat := false, nonfin := true }
  else
    match maxAbs scaleOf with
    | .fin _ n d =>
      if n = 0 ∨ crustZero c then { s8 := 0, codes := zeros, sat := false, nonfin := false }
      else
        match (Val.fin false n d).div ((fmtMax f).mul (crustAbs c)) with
        | .fin _ qn qd =>
          let s := s8Ceil qn qd
          let sat := s == 0xF8
          let s8 := if sat then 0xF7 else s
          { s8 := s8, codes := flakeCodes f mode ((s8Val s8).mul (crustAbs c)) xs, sat := sat, nonfin := false }
        | _ => { s8 := 0, codes := zeros, sat := false, nonfin := false }
    | _ => { s8 := 0xF8, codes := zeros, sat := false, nonfin := true }

/-- Quantise an element into CRUST_ONLY form (R90): the code and whether it saturated. -/
def quantCrust (f : Fmt) (mode : Rnd) (c : BitVec 16) (x : Val) (r : Nat) : Nat × Bool :=
  if crustZero c || crustNonfin c then (0, false) else convert f mode r (x.div (crustAbs c))

/-! ### Planes (R82, R83) -/

/-- A dimension padded to a multiple of 128. -/
def pad128 (n : Nat) : Nat := alignUp n 128

/-- A quantised tensor in memory: element format, form, padded shape, the dimension of reduction (along a row, or down a
column), and where its planes start. -/
structure Planes where
  fmt : Fmt
  flaked : Bool
  prows : Nat
  pcols : Nat
  alongRow : Bool
  elems : Nat
  flakes : Nat
  crusts : Nat
  deriving DecidableEq, Repr

/-- Elements of F4 take half a byte. -/
def isF4 (f : Fmt) : Bool := f.eb == 2

/-- The byte address of an element, and for F4 whether it stands in bits [7:4]. -/
def elemAt (p : Planes) (r c : Nat) : Nat × Bool :=
  let i := r * p.pcols + c
  if isF4 p.fmt then (p.elems + i / 2, i % 2 == 1) else (p.elems + i, false)

/-- The address of the flake scale of an element: in the order of the flakes' first elements. -/
def flakeAt (p : Planes) (r c : Nat) : Nat :=
  p.flakes + if p.alongRow then r * (p.pcols / 32) + c / 32 else r / 32 * p.pcols + c

/-- The address of the crust scale of an element. -/
def crustAt (p : Planes) (r c : Nat) : Nat := p.crusts + 2 * (r / 128 * (p.pcols / 128) + c / 128)

/-- Bytes of the element plane, the flake-scale plane and the crust-scale plane. -/
def elemBytes (p : Planes) : Nat := if isF4 p.fmt then p.prows * p.pcols / 2 else p.prows * p.pcols
def flakeBytes (p : Planes) : Nat := p.prows * p.pcols / 32
def crustBytes (p : Planes) : Nat := p.prows * p.pcols / 8192

/-- Read an element code through a byte reader. -/
def readElem (rd : Nat → Byte) (p : Planes) (r c : Nat) : Nat :=
  let (a, hi) := elemAt p r c
  let b := (rd a).toNat
  if isF4 p.fmt then (if hi then b / 16 else b % 16) else b

/-- The exact value of an element of a quantised tensor. -/
def readQVal (rd : Nat → Byte) (p : Planes) (r c : Nat) : Val :=
  let ca := crustAt p r c
  let cs : BitVec 16 := BitVec.ofNat 16 ((rd ca).toNat + 256 * (rd (ca + 1)).toNat)
  elemVal p.fmt (readElem rd p r c) (if p.flaked then some (rd (flakeAt p r c)).toNat else none) cs

/-! ### Microscaling (R99 to R101) -/

/-- 2^(X − 127). -/
def e8m0 (x : Nat) : Val := Val.pow2 ((x : Int) - 127)

/-- emax of an MX element format (R101). -/
def mxEmax (f : Fmt) : Int := if f.eb = 2 then 2 else if f.eb = 4 then 8 else 15

/-- The scale code of an MX block whose largest magnitude is n / d (R101). -/
def mxScale (f : Fmt) (n d : Nat) : Nat :=
  let x := log2q n d - mxEmax f + 127
  if n = 0 ∨ x < 0 then 0 else if 254 < x then 254 else x.toNat

/-- An element of an MX block over its scale (R101): its code, and whether a finite quotient was clamped. -/
def mxElem (f : Fmt) (mode : Rnd) (x : Nat) (p : Val × Nat) : Nat × Bool :=
  let q := p.1.div (e8m0 x)
  if q.isFin && (fmtMax f).lt q.abs then (f.top + signBit f q.sign, true) else (code f mode p.2 q, false)

/-- Export of a flake as an MX block (R101), from decoded values and random bits: the scale code, the element codes, and how many
elements saturated (R93). A flake whose every element is NaN is a NaN flake, and so is one with a value that is not finite
where F4, which has no code for it, is the destination (R87). Elsewhere a single NaN or infinity keeps its own code, and the scale is
that of the finite elements. DESIGN CHOICE (log entry 70). -/
def mxExport (f : Fmt) (mode : Rnd) (xs : List (Val × Nat)) : Nat × List Nat × Nat :=
  let zeros := xs.map fun _ => 0
  if xs.all (·.1.isNan) || (isF4 f && xs.any (fun p => !p.1.isFin)) then (0xFF, zeros, 0)
  else if xs.all (·.1.isZero) then (0, zeros, 0)
  else
    match maxAbs ((xs.map (·.1)).filter (·.isFin)) with
    | .fin _ n d =>
      let cs := xs.map (mxElem f mode (mxScale f n d))
      (mxScale f n d, cs.map (·.1), cs.countP (·.2))
    | _ => (0xFF, zeros, 0)

/-! ### CRC-32C (R235) -/

/-- One bit of the reflected CRC-32C. -/
def crcBit (c : Word) : Word := if c.toNat % 2 = 1 then (c >>> 1) ^^^ 0x82F63B78 else c >>> 1

/-- One byte. -/
def crcByte (c : Word) (b : Byte) : Word :=
  let x := c ^^^ BitVec.ofNat 32 b.toNat
  crcBit (crcBit (crcBit (crcBit (crcBit (crcBit (crcBit (crcBit x)))))))

/-- CRC-32C of a list of bytes. -/
def crc32c (bs : List Byte) : Word := (bs.foldl crcByte 0xFFFFFFFF) ^^^ 0xFFFFFFFF

end Sys2Proof.Machine
end

