-- ==== Sys2Proof/Machine/GrlSend.lean ====
section
/-! DEFINITION. Griros: which links a job may use, messages and flits as bytes, and how they are sent (10, R288 to R294, R300, R301). -/

namespace Sys2Proof.Machine

open Sys2Proof

/-- A link carries traffic: it is in UP or RECAL (R297). -/
def linkUp (l : Link) : Bool := l.state == 6 || l.state == 7

/-- GRL_BIND of a link: the job slot it is bound to (R318). -/
def linkSlot (s : State) (k : Nat) : Option Nat :=
  if bit (regGet s (pageOf 16 k) 0x4C).toNat 6 then some (regField s (pageOf 16 k) 0x4C 0 6) else none

/-- The job slot that binds a context (R299). -/
def jobOf (s : State) (n : Nat) : Option Nat :=
  (s.jobs.find? fun p => p.2.valid && p.2.ctx == n).map (·.1)

/-- The links of a neighbour that a job names, in ascending order (R301): those of its LINKS mask that are bound to the slot. -/
def nbrLinks (s : State) (slot node : Nat) : List Nat :=
  let j := s.jobSlot slot
  match j.nbrNode.find? fun p => p.2.toNat == node with
  | none => []
  | some (i, _) =>
    (List.range 12).filter fun k => bit (tget 0 j.nbrLinks i).toNat k && linkSlot s k == some slot

/-- The links bound to a slot. -/
def jobLinks (s : State) (slot : Nat) : List Nat := (List.range 12).filter fun k => linkSlot s k == some slot

/-- A job's links carry its traffic: it was admitted, and all of them have been in UP since (R300). -/
def jobOpen (s : State) (slot : Nat) : Bool := (s.jobSlot slot).waitUp == some []

/-- The links of a neighbour in UP or RECAL that carry the job's traffic (R300, R301). -/
def usableLinks (s : State) (slot node : Nat) : List Nat :=
  if jobOpen s slot then (nbrLinks s slot node).filter fun k => linkUp (s.link k) else []

/-! ### Messages and flits as bytes (R288 to R290) -/

/-- The 32 bytes of a message header (R290). -/
def msgHeader (m : Msg) : List Byte :=
  toLE 2 m.mtype ++ toLE 2 m.jobTag.toNat ++ toLE 4 (m.epoch.toNat + b2n m.mark * 2 ^ 16) ++ toLE 8 m.addr ++ toLE 4 m.len ++
  toLE 4 m.xfer ++ toLE 4 (m.sigId + m.sigMode * 2 ^ 14 + b2n m.sigEn * 2 ^ 16) ++ toLE 4 m.xferBytes

/-- The payload bytes of a message: its header, then its data. -/
def msgBytes (m : Msg) : List Byte := msgHeader m ++ m.data

/-- The flit header (R289). -/
def flitHeader (f : Flit) : List Byte :=
  toLE 16 (f.ftype.toNat + f.vc.toNat * 2 ^ 4 + b2n f.keyPhase * 2 ^ 6 + f.seq.toNat * 2 ^ 8 + f.ack.toNat * 2 ^ 32 + b2n f.nak * 2 ^ 56 +
    f.crVc.toNat * 2 ^ 58 + f.crCount.toNat * 2 ^ 60 + f.lenM1.toNat * 2 ^ 72 + f.msg.toNat * 2 ^ 80)

/-- A flit from its header bytes and its payload in clear; LEN_M1 says how much of the payload is in use. -/
def parseFlit (h payload : List Byte) : Flit :=
  let n := ofLE h
  { ftype := BitVec.ofNat 4 n, vc := BitVec.ofNat 2 (n / 2 ^ 4), keyPhase := bit n 6, seq := BitVec.ofNat 24 (n / 2 ^ 8),
    ack := BitVec.ofNat 24 (n / 2 ^ 32), nak := bit n 56, crVc := BitVec.ofNat 2 (n / 2 ^ 58), crCount := BitVec.ofNat 12 (n / 2 ^ 60),
    lenM1 := BitVec.ofNat 8 (n / 2 ^ 72), msg := BitVec.ofNat 16 (n / 2 ^ 80),
    reservedBits := bit n 7 || bit n 57 || n / 2 ^ 96 != 0, payload := payload.take (bits n 72 8 + 1) }

/-- The nonce of a flit (R298): the salt of its direction and its transmit count. -/
def flitNonce (k : LinkKey) (count : Nat) : List Byte := toLE 4 k.salt.toNat ++ toLE 8 count

/-- Bytes 16 to 251 of a flit (R288): the payload encrypted and its tag under a key; before there are keys, the payload in clear and no
tag (log entry 84). -/
def flitBody (key : Option LinkKey) (count : Nat) (f : Flit) : List Byte :=
  let p := padTo 0 224 f.payload
  match key with
  | some k =>
    let c := gcmStream (toLE 32 k.key.toNat) (flitNonce k count) p
    c ++ (gcmTag (toLE 32 k.key.toNat) (flitNonce k count) (flitHeader f) c).take 12
  | none => p ++ List.replicate 12 0

/-- The 256 bytes of a flit (R288). -/
def flitImage (key : Option LinkKey) (count : Nat) (f : Flit) : List Byte :=
  let b := flitHeader f ++ flitBody key count f
  b ++ toLE 4 (crc32c b).toNat

/-- Bytes 252 to 255 are the CRC-32C of the others. -/
def flitCrcOk (image : List Byte) : Bool := fieldLE image 252 4 == (crc32c (image.take 252)).toNat

/-- The flit of an image under a key and a count, if its tag is right. -/
def openFlit (key : Option LinkKey) (count : Nat) (image : List Byte) : Option Flit :=
  let h := image.take 16
  let c := slice image 16 224
  match key with
  | some k =>
    if (gcmTag (toLE 32 k.key.toNat) (flitNonce k count) h c).take 12 = slice image 240 12
    then some (parseFlit h (gcmStream (toLE 32 k.key.toNat) (flitNonce k count) c)) else none
  | none => some (parseFlit h c)

/-! ### Sending (R292 to R294) -/

/-- Receive buffer of a VC in flits (R292). -/
def vcBuffer (vc : Nat) : Nat := if vc = 0 then 64 else 1536

/-- Flits of a message: 32 header bytes and the data, 224 payload bytes a flit (R288, R290). -/
def msgFlits (m : Msg) : Nat := cdiv (32 + m.data.length) 224

/-- The VC that a link may send on: VC 0 always before AGREE ends, the others in UP and RECAL (R297). -/
def vcOpen (l : Link) (vc : Nat) : Bool := linkUp l || (vc == 0 && (l.state == 3 || l.state == 4 || l.state == 5))

/-- A flit leaves with the acknowledgement of what has come, NAK if one is due, and the present key (R289, R294, R298). -/
def transmit (l : Link) (f : SentFlit) : SentFlit × Link :=
  let h := { f.hdr with ack := l.rxSeq - 1, nak := l.nakDue, keyPhase := l.keyPhaseTx }
  ({ f with hdr := h, image := flitImage l.keyTx l.txCount h }, { l with nakDue := false, txCount := l.txCount + 1 })

/-- A new flit leaves: it takes the next SEQ and the credits of the lowest VC that has any to return, and is kept until it is
acknowledged (R293, R294). -/
def emit (l : Link) (f : SentFlit) : Link :=
  let vc := ([0, 1, 2, 3].find? fun v => tget 0 l.freed v != 0).getD 0
  let n := min 4095 (tget 0 l.freed vc)
  let h := { f.hdr with seq := l.txSeq, crVc := BitVec.ofNat 2 vc, crCount := BitVec.ofNat 12 n, lenM1 := BitVec.ofNat 8 (f.hdr.payload.length - 1) }
  let (g, l1) := transmit l { f with hdr := h }
  { l1 with retryBuf := l1.retryBuf ++ [g], txSeq := l1.txSeq + 1, freed := tset 0 l1.freed vc (tget 0 l1.freed vc - n) }

/-- The VC after one of VCs 1 to 3 in the round (R292). -/
def nextVc (vc : Nat) : Nat := if vc = 3 then 1 else vc + 1

/-- One flit of the first queued message of a VC leaves, if the VC has credit and the retry buffer of 2,048 flits has room
(R292 to R294). `want` counts the flits of the message still to send. -/
def sendFlit (l : Link) (vc : Nat) : Option Link :=
  match takeFirst (fun t => t.msg.vc == vc) l.txq with
  | none => none
  | some (t, rest) =>
    if vcOpen l vc && tget 0 l.spent vc < vcBuffer vc && l.retryBuf.length < 2048 then
      let i := msgFlits t.msg - t.msg.want
      let f : Flit := { ftype := if vc = 0 then 3 else if i = 0 then 1 else 2, vc := BitVec.ofNat 2 vc, msg := t.msg.num,
                        payload := slice (msgBytes t.msg) (224 * i) 224 }
      let l1 := emit l { hdr := f, xfer := t.msg.xfer, job := t.msg.jobTag, mtype := t.msg.mtype, rel := t.rel }
      let last := decide (t.msg.want ≤ 1)
      some { l1 with spent := tset 0 l1.spent vc (tget 0 l1.spent vc + 1),
                     turn := if vc = 0 then l1.turn else if last then nextVc vc else vc,
                     txq := if last then rest else { t with msg := { t.msg with want := t.msg.want - 1 } } :: rest }
    else none

/-- A flit of VC 0 if it can be sent, else of VCs 1 to 3 round-robin by message: the VC in turn, or the next that can send (R292). -/
def sendNext (l : Link) : Option Link :=
  [0, l.turn, nextVc l.turn, nextVc (nextVc l.turn)].findSome? (sendFlit l)

/-- Send flits while there are any that can be sent. -/
def pumpLink : Nat → Link → Link
  | 0, l => l
  | f + 1, l =>
    match sendNext l with
    | some l' => pumpLink f l'
    | none => l

/-- Send what can be sent on link `k`, unless it is asked to quiesce (R495); GRL_CNT_TX counts the flits. -/
def pump (s : State) (k : Nat) : State :=
  let l := s.link k
  let l' := if bit (regGet s (pageOf 16 k) 8).toNat 1 then l else pumpLink 4096 l
  bump (s.setLink k l') (pageOf 16 k) 0 (l'.txCount - l.txCount)

/-- Answer a flit: what can be sent goes, and an IDLE flit where nothing can; it carries ACK, NAK and credits (R289, log entry 83). -/
def answerFlit (s : State) (k : Nat) : State :=
  let s1 := pump s k
  let l := s1.link k
  if l.txCount = (s.link k).txCount ∧ l.retryBuf.length < 2048
  then bump (s1.setLink k (emit l { hdr := { ftype := 0, payload := [0] } })) (pageOf 16 k) 0 1 else s1

/-- Queue a message on a link and send what can be sent; it takes the next number of its VC (R289). -/
def sendMsg (s : State) (k : Nat) (m : Msg) (rel : Option Nat) : State :=
  let l := s.link k
  let n := tget 0 l.msgNum m.vc
  let t : TxMsg := { msg := { m with num := n, want := msgFlits m }, rel := rel }
  pump (s.setLink k { l with txq := l.txq ++ [t], msgNum := tset 0 l.msgNum m.vc (n + 1) }) k

/-- A SIGNAL message (R274, R290): identifier and mode on the remote device, the sender's epoch and the mark. -/
def signalMsg (s : State) (slot vc : Nat) (sid mode : Nat) (mark : Bool) : Msg :=
  let j := s.jobSlot slot
  { vc := vc, mtype := 0x04, jobTag := j.tag, epoch := (s.ctx j.ctx).epoch, mark := mark, sigId := sid, sigMode := mode, sigEn := true }

/-- Send ABORT_NOTICE with a node and the aborted epoch on every link bound to the slot but one (R305). -/
def sendNotice (s : State) (slot node : Nat) (epoch : BitVec 16) (except : Option Nat) : State :=
  let m : Msg := { vc := 0, mtype := 0x06, jobTag := (s.jobSlot slot).tag, epoch := epoch, addr := node }
  ((List.range 12).filter fun k => linkSlot s k == some slot && some k != except).foldl (fun s k => sendMsg s k m none) s

/-- This device's node identifier (R319). -/
def nodeId (s : State) : Nat := regField s (pageOf 16 12) 0x40 0 20

end Sys2Proof.Machine
end

