-- ==== Sys2Proof/Machine/Sync.lean ====
section
/-! DEFINITION. Mladaz: objects, waiters, signals, and what follows from them in one command: completions of operations
with their records and signals, and epoch aborts (02, 09, 17). -/

namespace Sys2Proof.Machine

open Sys2Proof

/-! ### Error codes (R64, R285, R473) -/

def cBadEngine : Nat := 0x1001
def cNotAssigned : Nat := 0x1002
def cBadDescriptor : Nat := 0x1003
def cAbortedEpoch : Nat := 0x1004
def cEngineFenced : Nat := 0x1005
def cCtxReleased : Nat := 0x1006
def cSyncUnmapped : Nat := 0x6001
def cSyncBadOp : Nat := 0x6002
def cSyncTimeout : Nat := 0x6003
def cSyncDeadlock : Nat := 0x6004
def cCreditUnder : Nat := 0x6005
def cCreditOver : Nat := 0x6006
def cCreditFaulted : Nat := 0x6007
def cBarrierLap : Nat := 0x6008
def cNotParticipant : Nat := 0x6009
def cConfBad : Nat := 0x600A
def cReconf : Nat := 0x600B
def cMapBad : Nat := 0x600C
def cEpochMismatch : Nat := 0x7004

/-- The SYNC page. -/
def syncPage : Nat := pageOf 15 8

/-- Where a signalling operation comes from (R284): engine identifier or remote node, the debug view's operation code, and
whether it carries an epoch mark (R307). -/
structure Src where
  eng : Nat
  op : Nat
  remote : Bool := false
  mark : Bool := false
  /-- The barrier participant that arrives (R263): an index of R4, or 576 + i for remote participant i. -/
  part : Nat := 0
  deriving DecidableEq, Repr

/-- What one effect makes follow within the same command. -/
inductive Work where
  /-- An operation completes with a status (R53). -/
  | complete (op : Op) (status : Nat)
  /-- A signal of an operation (R53) or of a barrier release (R265): context, identifier, mode; refusals name engine and tag. -/
  | raise (src : Src) (ctx vid mode eng tag : Nat)
  /-- An aborting event is charged to a context (R468): code, engine, address, INFO. -/
  | charge (code ctx eng addr info : Nat)
  deriving DecidableEq, Repr

/-! ### Names (R8, R252) -/

/-- The class of a virtual identifier. -/
def vidClass (v : Nat) : Nat := v / 4096 % 4

/-- The class that a SIG_MODE acts on (R8, R49): 0 sets a flag, 1 produces on a credit channel, 2 arrives at a barrier; 3 is
reserved. -/
def modeClass (mode : Nat) : Nat := if mode = 0 then 0 else if mode = 1 then 2 else if mode = 2 then 1 else 4

/-- The physical object of a translation entry of a class, as die × objects per die + index. -/
def entryObj (cls : Nat) (e : Word) : Nat :=
  let die := bits e.toNat 1 4
  let idx := bits e.toNat 5 13
  die * (if cls = 0 then 8192 else if cls = 1 then 128 else 2048) + idx

/-- The die that homes an object of a class. -/
def objDie (cls key : Nat) : Nat := key / (if cls = 0 then 8192 else if cls = 1 then 128 else 2048)

/-- Translate an identifier of a context: its object, or nothing for class 0b11 and unmapped entries (R9). -/
def translate (s : State) (ctx vid : Nat) : Option Nat :=
  if vidClass vid = 3 then none
  else
    let e := tget 0 (s.ctx ctx).map (vid % 16384)
    if bit e.toNat 0 then some (entryObj (vidClass vid) e) else none

/-- The entry of an identifier accepts remote signal writes (R252 bit 18). -/
def mapRemote (s : State) (ctx vid : Nat) : Bool := bit (tget 0 (s.ctx ctx).map (vid % 16384)).toNat 18

/-- An object of a context has changed (R278). -/
def touch (s : State) (cls key ctx : Nat) : State :=
  let t := objDie cls key * 64 + ctx
  { s with touched := if s.touched.contains t then s.touched else s.touched ++ [t],
           ctxs := tset {} s.ctxs ctx { s.ctx ctx with stopped := false, dlRun := 0, dlQuiet := [] } }

/-- The last signalling operation (R284). -/
def lastSig (s : State) (src : Src) : LastSig :=
  { source := BitVec.ofNat 20 src.eng, op := BitVec.ofNat 8 src.op, remote := src.remote, stamp := stamp s }

/-- The source of the clearing or consuming end of a waiter's wait (R284). -/
def waiterSrc (w : WaitEnt) (zsyncOp : Nat) : Src :=
  match w.who with
  | .hart h => { eng := hartEng h, op := zsyncOp }
  | .vec b => { eng := bayEng b, op := 0xF3 }
  | .head e _ => { eng := e, op := 0xF3 }
  | .pan b _ => { eng := bayEng b, op := 0xF4 }

/-- The die on which a waiter is. -/
def waiterDie : Waiter → Nat
  | .hart h => hartEng h / 256
  | .vec b | .pan b _ => b / 32
  | .head e _ => e / 256

/-- A waiter that is a pan or a vector unit (R282). -/
def waiterLends : Waiter → Bool
  | .vec _ | .pan _ _ => true
  | .hart _ | .head _ _ => false

/-- The die that a signalling operation comes from: the hub for another device's. -/
def Src.die (x : Src) : Nat := if x.remote ∨ 8 < x.eng / 256 then 8 else x.eng / 256

/-! ### Releasing a waiter -/

/-- The result word of ZSYNC (R254): RESULT is 0 whenever STATUS is not OK (R255). -/
def syncWord (result status : Nat) : Dword :=
  BitVec.ofNat 64 ((if status = 0 then result % 2 ^ 32 else 0) + status * 2 ^ 32)

/-- The words of the running block are discarded up to its trailer (R177). -/
def discardBlock : List VItem → List VItem
  | [] => []
  | .close op :: r => .close op :: r
  | .word _ :: r => discardBlock r

/-- What the release of a waiter tells its die: the home's answer crosses the mesh, and with a pan's or a vector unit's wait the
lending of the context's bays on the die ends (R282). -/
def endLend (s : State) (w : WaitEnt) : State :=
  let d := waiterDie w.who
  let s1 := match translate s w.ctx w.vid with
    | some key => s.reach (objDie (vidClass w.vid) key) d
    | none => s
  { s1 with lends := if waiterLends w.who then s1.lends.filter (· != d * 64 + w.ctx) else s1.lends }

/-- A waiter leaves its wait with a result and a status (R259, R265, R270, R277, R65). A marked flag gives FWAIT and FWAITC
EPOCH_MISMATCH, and marks a descriptor that it starts (R307). -/
def relWaiter (s0 : State) (w : WaitEnt) (result status : Nat) (marked : Bool) : State × List Work :=
  let s := endLend s0 w
  match w.who with
  | .hart h =>
    match (s.hart h).blocked with
    | some (.sync rd) =>
      let st := if status = 0 ∧ marked then cEpochMismatch else status
      (s.setHart h { wrX (s.hart h) rd (syncWord result st) with blocked := none }, [])
    | _ => (s, [])
  | .vec b =>
    let v := s0.vec b
    let s := bumpFree s (pageOf 11 b) 4
    if status = 0 then
      (bump (bump (s.setVec b { v with held := false, q := v.q.drop 1, words := v.words + 1 }) (pageOf 11 b) 0 1) (pageOf 11 b) 2 1, [])
    else
      let f : Option VFault :=
        if v.stop = 0#16 ∧ status / 4096 = 6 then some { code := BitVec.ofNat 16 status, word := v.words, lane := none } else none
      let stop : BitVec 16 := if v.stop = 0#16 then BitVec.ofNat 16 status else v.stop
      (s.setVec b { v with held := false, stop := stop, fault := v.fault.or f, q := discardBlock v.q }, [])
  | .head e q =>
    match s.queue e q with
    | [] => (s, [])
    | op :: rest =>
      if status = 0 then (s.setQueue e q ({ op with phase := 2, mark := op.mark || marked } :: rest), [])
      else (s.setQueue e q rest, [.complete { op with kind := 4 } status])
  | .pan b i =>
    let p := s.pan b
    let p1 := if i = 0 then { p with a := { p.a with waits := false } } else { p with b := { p.b with waits := false } }
    if status = 0 then (s.setPan b p1, [])
    else
      match s.run (bayEng b) 0 with
      | some op => ((s.setPan b p1).setRun (bayEng b) 0
          { op with stop := if op.stop = 0 then BitVec.ofNat 16 status else op.stop }, [])
      | none => (s, [])

/-- Release a list of waiters. -/
def relAll (s : State) (result status : Nat) (marked : Bool) : List WaitEnt → State × List Work
  | [] => (s, [])
  | w :: ws =>
    let (s1, k1) := relWaiter s w result status marked
    let (s2, k2) := relAll s1 result status marked ws
    (s2, k1 ++ k2)

/-! ### Flags (R258, R259) -/

/-- Set a flag: absorbed when set; otherwise every WAIT_SET waiter is released, then the oldest clearing waiter takes the set. -/
def flagSet (s : State) (key ctx : Nat) (src : Src) : State × List Work :=
  let f := s.flag key
  let f1 := { f with last := lastSig s src, mark := f.mark || src.mark }
  if f.set then
    let f2 := { f1 with coalesce := if f.coalesce = 0xFFFF then f.coalesce else f.coalesce + 1 }
    (touch (bump (s.setFlag key f2) syncPage 3 1) 0 key ctx, [])
  else
    let clearing := f.waiters.find? (·.clears)
    let keep := match takeFirst (fun w : WaitEnt => w.clears) f.waiters with
      | some (_, rest) => rest.filter (·.clears)
      | none => []
    let f2 := match clearing with
      | some w => { f1 with set := false, mark := false, waiters := keep, last := lastSig s (waiterSrc w 0x05) }
      | none => { f1 with set := true, waiters := keep }
    let out := f.waiters.filter (fun w => !w.clears) ++ clearing.toList
    relAll (touch (s.setFlag key f2) 0 key ctx) 1 0 f1.mark out

/-- Clear a flag; its mark goes with it (R307). -/
def flagClear (s : State) (key ctx : Nat) (src : Src) : State :=
  touch (s.setFlag key { s.flag key with set := false, mark := false, last := lastSig s src }) 0 key ctx

/-! ### Barriers (R261 to R267) -/

/-- EXPECTED (R262). -/
def expected (c : BarConf) : Nat := c.mask.length + c.remote.length

/-- A participant of a configuration: an index of the mask, or 576 + i for remote participant i (R263). -/
def isParticipant (c : BarConf) (p : Nat) : Bool :=
  if p < 576 then c.mask.contains p else decide (p - 576 < c.remote.length)

/-- The signed difference GEN − g (R267). -/
def genDiff (gen : BitVec 16) (g : Nat) : Int := signed 16 (gen.toNat + 65536 - g % 65536)

/-- The release signal to REL_NODE (R266): on VC 1 of the first usable link to it; lost, posted and counted when there is none. -/
def relRemote (s : State) (ctx vid : Nat) (c : BarConf) (mark : Bool) : State :=
  let lost := syncEvent (bump s syncPage 2 1) ctx 7 (vid % 4096 + c.relNode * 4096)
  match jobOf s ctx with
  | none => lost
  | some slot =>
    match usableLinks s slot c.relNode with
    | [] => lost
    | k :: _ => sendMsg s k (signalMsg s slot 1 c.relRid c.relMode mark) (some (ctx * 2 ^ 32 + vid % 4096 + c.relNode * 4096))

/-- Release waiters of a barrier: BWAIT returns GEN, BARRW the generation it arrived for. -/
def relBarWaiters (s : State) (gen : BitVec 16) (marked : Bool) : List WaitEnt → State × List Work
  | [] => (s, [])
  | w :: ws =>
    let (s1, k1) := relWaiter s w (if w.clears then w.arg else gen.toNat) 0 marked
    let (s2, k2) := relBarWaiters s1 gen marked ws
    (s2, k1 ++ k2)

/-- Release generations while the arrival set holds EXPECTED participants (R265); the lap set can give a second release. -/
def barRelease : Nat → State → Nat → Nat → Nat → Src → State × List Work
  | 0, s, _, _, _, _ => (s, [])
  | n + 1, s, key, ctx, vid, src =>
    let b := s.barrier key
    if 0 < expected b.conf ∧ b.arr.length = expected b.conf then
      let gen := b.gen + 1
      let out := b.waiters.filter fun w => decide (1 ≤ genDiff gen w.arg)
      let b1 := { b with gen := gen, arr := b.lap, lap := [], mark := b.lapMark, lapMark := false,
                         waiters := b.waiters.filter fun w => !decide (1 ≤ genDiff gen w.arg) }
      let (s1, k1) := relBarWaiters (s.setBarrier key b1) gen b.mark out
      let k2 := if b.conf.relFlagEn
        then [Work.raise { src with op := 0xF0, mark := b.mark } ctx b.conf.relFlag 0 src.eng 0] else []
      let s2 := if b.conf.relRemoteEn then relRemote s1 ctx vid b.conf b.mark else s1
      let (s3, k3) := barRelease n s2 key ctx vid src
      (s3, k1 ++ k2 ++ k3)
    else (s, [])

/-- An arrival (R263, R264): the status and the generation arrived for. A mark is for the generation that the arrival counts for. -/
def barArrive (s : State) (key ctx vid : Nat) (src : Src) : State × Nat × Nat × List Work :=
  let b := s.barrier key
  let p := src.part
  if !isParticipant b.conf p then (s, cNotParticipant, 0, [])
  else if !b.arr.contains p then
    let s1 := touch (s.setBarrier key { b with arr := b.arr ++ [p], last := lastSig s src, mark := b.mark || src.mark }) 1 key ctx
    let (s2, k) := barRelease 2 s1 key ctx vid src
    (s2, 0, b.gen.toNat, k)
  else if !b.lap.contains p then
    let s1 := touch (s.setBarrier key { b with lap := b.lap ++ [p], last := lastSig s src, lapMark := b.lapMark || src.mark }) 1 key ctx
    (s1, 0, (b.gen + 1).toNat, [])
  else (syncEvent (bump s syncPage 1 1) ctx 4 (vid % 16384 + p * 2 ^ 14), cBarrierLap, 0, [])

/-! ### Credit channels (R268 to R270) -/

/-- D, read as signed (R268). -/
def creditDiff (c : Credit) : Int := signed 32 (c.p.toNat + 2 ^ 32 - c.c.toNat)

/-- Release the waiters that D covers: every CWAIT waiter, then CWAITC waiters in order while D allows (R270). -/
def creditServe : List WaitEnt → Credit → Credit × List (WaitEnt × Nat)
  | [], c => (c, [])
  | w :: ws, c =>
    if (w.arg : Int) ≤ creditDiff c then
      let c1 := { c with c := c.c + BitVec.ofNat 32 w.arg }
      let (c2, out) := creditServe ws c1
      (c2, (w, (creditDiff c1).toNat) :: out)
    else (c, [])

/-- Release waiters with a result each. -/
def relEach (s : State) : List (WaitEnt × Nat) → State × List Work
  | [] => (s, [])
  | (w, r) :: ws =>
    let (s1, k1) := relWaiter s w r 0 false
    let (s2, k2) := relEach s1 ws
    (s2, k1 ++ k2)

/-- Serve the waiters of a channel after D has risen or a waiter has left (R270). -/
def creditWake (s : State) (key ctx : Nat) : State × List Work :=
  let c := s.credit key
  let d := creditDiff c
  let ready := c.waiters.filter fun w => !w.clears && decide ((w.arg : Int) ≤ d)
  let takers := c.waiters.filter (·.clears)
  let (c1, served) := creditServe takers c
  let left := c.waiters.filter fun w => !(ready.contains w) && !(served.any fun p => p.1 == w)
  let c2 := { c1 with waiters := left,
                      last := match served.getLast? with | some p => lastSig s (waiterSrc p.1 0x24) | none => c1.last }
  let s1 := if served.isEmpty then s.setCredit key c2 else touch (s.setCredit key c2) 2 key ctx
  relEach s1 (ready.map (fun w => (w, d.toNat)) ++ served)

/-- A credit fault (R269): FAULTED, the waiters, the event, the count, and the charge to the owner. -/
def creditFault (s : State) (key ctx vid : Nat) (produce : Bool) (src : Src) (code : Nat) (d : Int) : State × List Work :=
  let c := s.credit key
  let s1 := touch (s.setCredit key { c with faulted := true, waiters := [] }) 2 key ctx
  let (s2, k) := relAll s1 0 cCreditFaulted false c.waiters
  let info := vid % 16384 + b2n produce * 2 ^ 14 + (if src.remote then 0xFFFF else src.eng) * 2 ^ 16
  let s3 := syncEvent (bump s2 syncPage 1 1) ctx 3 info
  (s3, k ++ [.charge code ctx (if src.remote then 0xFFF else src.eng) 0 (d % 2 ^ 32).toNat])

/-- A produce or a consume of n (R269): status, difference after, and what follows. -/
def creditOp (s : State) (key ctx vid : Nat) (produce : Bool) (n : Nat) (src : Src) : State × Nat × Nat × List Work :=
  let c := s.credit key
  if c.faulted then (s, cCreditFaulted, 0, [])
  else
    let c1 := if produce then { c with p := c.p + BitVec.ofNat 32 n } else { c with c := c.c + BitVec.ofNat 32 n }
    let d := creditDiff c1
    if d < 0 then
      let (s1, k) := creditFault s key ctx vid produce src cCreditUnder d
      (s1, cCreditUnder, 0, k)
    else if (c.cap : Int) < d then
      let (s1, k) := creditFault s key ctx vid produce src cCreditOver d
      (s1, cCreditOver, 0, k)
    else
      let s1 := touch (s.setCredit key { c1 with last := lastSig s src }) 2 key ctx
      let (s2, k) := if produce then creditWake s1 key ctx else (s1, [])
      (s2, 0, (creditDiff (s2.credit key)).toNat, k)

/-! ### Signals of operations -/

/-- The object's home die is OFF: what is addressed to it completes with ENGINE_FENCED (R437). -/
def homeOff (s : State) (vid key : Nat) : Bool := (s.die (objDie (vidClass vid) key)).state == 3

/-- Apply a signal in SIG_MODE 0 to 2 to an identifier of a context: the status of the home's verdict. -/
def applySig (s0 : State) (ctx vid mode : Nat) (src : Src) : State × Nat × List Work :=
  match translate s0 ctx vid with
  | none => (nameFault s0 ctx vid, cSyncUnmapped, [])
  | some key =>
    let s := s0.reach src.die (objDie (vidClass vid) key)
    if homeOff s vid key then (s, cEngineFenced, [])
    else if mode = 0 then let (s1, k) := flagSet s key ctx src; (s1, 0, k)
    else if mode = 1 then let (s1, st, _, k) := creditOp s key ctx vid true 1 src; (s1, st, k)
    else let (s1, st, _, k) := barArrive s key ctx vid src; (s1, st, k)

/-- SIG_REJECT of a local operation (R273, R286). -/
def sigReject (s : State) (ctx eng tag : Nat) : State := syncEvent s ctx 5 (eng + tag * 4096)

/-! ### Completion records (R53, R58, R59) -/

/-- The address of slot `i` of a hart's ring (R38). -/
def ringAddr (h i : Nat) : Nat := coreMemAddr (hartCore h) (0xC000 + hartNum h * 0x2000 + i * 32)

/-- The 32 bytes of a record (R59). -/
def recordBytes (op : Op) (status stmp rflags : Nat) : List Byte :=
  toLE 4 (op.tag + status * 2 ^ 16) ++ toLE 4 (op.epoch.toNat + op.ctx * 2 ^ 16) ++ toLE 4 stmp ++
  toLE 4 (op.engine % 4096 + op.kind * 2 ^ 12 + rflags * 2 ^ 16) ++
  ((padTo 0 4 op.payload).map fun w => toLE 4 w.toNat).flatten

/-- The value of ZCWAIT and ZCNEXT (R41): ring index and status of a record. -/
def recordWord (s : State) (h i : Nat) : Dword := BitVec.ofNat 64 (i + s.rawLE (ringAddr h i + 2) 2 * 2 ^ 32)

/-- Wake a hart that waits for a record (R41): ZCWAIT for its tag, ZCNEXT for the head. -/
def wakeRecord (s : State) (h tag idx : Nat) : State :=
  let x := s.hart h
  match x.blocked with
  | some (.cwait rd t) => if t = tag then s.setHart h { wrX x rd (recordWord s h idx) with blocked := none } else s
  | some (.cnext rd) => s.setHart h { wrX x rd (recordWord s h x.head.toNat) with blocked := none }
  | _ => s

/-- Write a record at the slot after the last one (R58), and wake its hart. -/
def writeRecord (s : State) (op : Op) (status rflags : Nat) : State :=
  let h := op.hart
  let x := s.hart h
  let i := x.tail.toNat
  let s0 := s.cross (op.engine / 256) (hartEng h / 256)
  let s1 := s0.setRaw (ringAddr h i) (recordBytes op status (stamp s).toNat (rflags + b2n x.tailPhase * 2 ^ 15))
  let s2 := s1.setHart h { x with tail := x.tail + 1, tailPhase := if x.tail = 255 then !x.tailPhase else x.tailPhase,
                                  ring := x.ring ++ [op.tag] }
  let s3 := match tfind s2.tags op.tag with
    | some t => { s2 with tags := tput s2.tags op.tag { t with recorded := true } }
    | none => s2
  wakeRecord s3 h op.tag i

/-- The signal fields of a header are well formed in themselves (R51). -/
def sigWell (hdr : Dword) : Bool :=
  let mode := bits hdr.toNat 62 2
  let cls := bits hdr.toNat 60 2
  mode != 3 && (cls == 3 || cls == modeClass mode)

/-- Complete an operation (R51, R53): the signal's translation, the record unless CREC_ERR_ONLY suppresses it, then the signal. A
signal whose name maps nothing raises the fault of R9; SIG_REJECT reports it where the operation has ended with a status of its own
before, so not for one refused at the head for a name (phase 5). -/
def finish (s : State) (op : Op) (status : Nat) : State × List Work :=
  let sigEn := bit op.hdr.toNat 31 && sigWell op.hdr
  let vid := bits op.hdr.toNat 48 14
  let mode := bits op.hdr.toNat 62 2
  let mapped := (translate s op.ctx vid).isSome
  let st0 := if status = 0 ∧ op.mark then cEpochMismatch else status
  let st := if sigEn ∧ !mapped ∧ st0 = 0 then cSyncUnmapped else st0
  let raised := sigEn && mapped
  let s0 := if sigEn ∧ !mapped ∧ op.phase ≠ 5 then nameFault s op.ctx vid else s
  let s1 := if sigEn ∧ !mapped ∧ st0 ≠ 0 ∧ op.phase ≠ 5 then sigReject s0 op.ctx op.engine op.tag else s0
  let s2 := if bit op.hdr.toNat 29 ∧ st = 0 then dropTag s1 op.tag
    else writeRecord s1 op st (op.rflags.toNat + b2n raised * 8)
  (s2, if raised then [.raise { eng := op.engine, op := 0xF0 + mode, mark := op.mark, part := participant op.engine } op.ctx vid mode op.engine op.tag]
    else [])

/-! ### Ending waits and queued work of a context (R36, R65) -/

/-- Every wait of a context on a table of objects ends with a status. -/
def endWaitsOf (ctx status : Nat) (s : State) (ws : List WaitEnt) : State × List Work :=
  relAll s 0 status false (ws.filter fun w => w.ctx == ctx)

/-- Every Mladaz wait of a context ends with a status. -/
def endWaits (s : State) (ctx status : Nat) : State × List Work :=
  let ws := s.flags.flatMap (·.2.waiters) ++ s.barriers.flatMap (·.2.waiters) ++ s.credits.flatMap (·.2.waiters)
  let others := fun (l : List WaitEnt) => l.filter fun w => w.ctx != ctx
  let s1 := { s with
    flags := s.flags.foldl (fun t p => tset {} t p.1 { p.2 with waiters := others p.2.waiters }) [],
    barriers := s.barriers.foldl (fun t p => tset {} t p.1 { p.2 with waiters := others p.2.waiters }) [],
    credits := s.credits.foldl (fun t p => tset {} t p.1 { p.2 with waiters := others p.2.waiters }) [] }
  endWaitsOf ctx status s1 ws

/-- Remove one waiter from every object, with the channels it waited on. -/
def dropWaiter (s : State) (w : Waiter) : State :=
  let others := fun (l : List WaitEnt) => l.filter fun x => x.who != w
  { s with
    flags := s.flags.foldl (fun t p => tset {} t p.1 { p.2 with waiters := others p.2.waiters }) [],
    barriers := s.barriers.foldl (fun t p => tset {} t p.1 { p.2 with waiters := others p.2.waiters }) [],
    credits := s.credits.foldl (fun t p => tset {} t p.1 { p.2 with waiters := others p.2.waiters }) [] }

/-- The words of a vector queue up to and with the first trailer, and what follows. -/
def firstBlock : List VItem → List VItem × List VItem
  | [] => ([], [])
  | .close op :: r => ([.close op], r)
  | .word w :: r => let (a, b) := firstBlock r; (.word w :: a, b)

/-- The closed blocks of a vector queue. -/
def closedOps (l : List VItem) : List Op := l.filterMap fun i => match i with | .close op => some op | .word _ => none

/-- A bay's vector work is stopped with a status: the executing block at its next word (R65); closed blocks behind it are
queued operations and complete at once. -/
def stopVec (s : State) (b status : Nat) : State × List Work :=
  let v := s.vec b
  if v.q.isEmpty ∧ v.owner.isNone then (s, [])
  else
    let (run, rest) := firstBlock v.q
    (s.setVec b { v with q := run, stop := if v.stop = 0 then BitVec.ofNat 16 status else v.stop },
     (closedOps rest).map fun op => .complete { op with kind := 4 } status)

/-- The queued descriptors of one queue that `p` selects complete with a status and KIND 0x4; running ones are marked to stop. -/
def stopQueue (s : State) (e q : Nat) (p : Op → Bool) (status : Nat) : State × List Work :=
  let l := s.queue e q
  (s.setQueue e q (l.filter fun o => !p o), (l.filter p).map fun op => .complete { op with kind := 4 } status)

/-- Mark the running operations that `p` selects to stop at their next boundary; one whose work is done keeps its status. -/
def stopRunning (s : State) (p : Op → Bool) (status : Nat) : State :=
  let mark := fun (o : Op) => if p o && o.stop == 0 && !o.done then { o with stop := BitVec.ofNat 16 status } else o
  { s with running := s.running.map (fun r => (r.1, mark r.2)) }

/-- Stop the queues of a list of keys engine × 4 + queue. -/
def stopQueues (p : Op → Bool) (status : Nat) : List Nat → State → State × List Work
  | [], s => (s, [])
  | k :: ks, s =>
    let (s1, w1) := stopQueue s (k / 4) (k % 4) p status
    let (s2, w2) := stopQueues p status ks s1
    (s2, w1 ++ w2)

/-- Stop the vector work of a list of bays. -/
def stopVecs (status : Nat) : List Nat → State → State × List Work
  | [], s => (s, [])
  | b :: bs, s =>
    let (s1, w1) := stopVec s b status
    let (s2, w2) := stopVecs status bs s1
    (s2, w1 ++ w2)

/-- The bays assigned to a context. -/
def ctxBays (s : State) (n : Nat) : List Nat := (List.range 256).filter fun b => s.bayCtx b == some n

/-- The queued and running work and the waits of a context end with a status (R36, R65). -/
def endCtxWork (s : State) (n status : Nat) : State × List Work :=
  let (s1, w1) := endWaits s n status
  let (s2, w2) := stopQueues (fun o => o.ctx == n) status (s1.queues.map (·.1)) s1
  let s3 := stopRunning s2 (fun o => o.ctx == n) status
  let (s4, w3) := stopVecs status (ctxBays s3 n) s3
  (s4, w1 ++ w2 ++ w3)

/-- The fabrics of a context start a harvest when it enters ABORTED (R384); one that sleeps is harvested and closed. -/
def abortFabrics (s : State) (n : Nat) : State :=
  (List.range 4).foldl (fun s f =>
    let x := s.fabric f
    if x.ctx = some n ∧ x.pstate < 2 then s.setFabric f { x with harvesting := true, ingress := false } else s) s

/-- A fabric reopens ingress on its active slot (R378, R384): every fault clears, queues stay. One that sleeps stays closed. -/
def reopenFabric (x : Fabric) : Fabric :=
  if x.pstate < 2 then
    { x with ingress := x.active.isSome, stalled := false, reopenDue := false,
             tiles := x.tiles.map fun t => (t.1, { t.2 with fault := false }) }
  else { x with reopenDue := false }

/-! ### The end of a live update (R482) -/

/-- The service page. -/
def svcPage : Nat := pageOf 5 0

def cUpdateFail : Nat := 0xD003
def cQuiesceTmo : Nat := 0xD004

/-- An instance that was quiesced for an update runs again (R480, R481): harts of a core that no fence holds, a fabric's ingress. -/
def resumeInst (s : State) (kind inst : Nat) : State :=
  match kind with
  | 0 => { s with boot := { s.boot with wdnRun := 2 } }
  | 1 =>
    let c := inst / 256 * 32 + (inst - 0x20) % 16 * 2
    if s.svc.bays.contains c ∨ s.svc.bays.contains (c + 1) then s
    else { s with harts := tmap {} (fun h x => if hartEng h = inst then { x with stopped := false } else x) s.harts }
  | 3 => s.setFabric (inst % 4) (reopenFabric (s.fabric (inst % 4)))
  | 4 => if 256 ≤ inst then s.setFabric (inst % 4) (reopenFabric (s.fabric (inst % 4))) else s
  | _ => s

/-- The apply stops: its instance keeps the old image, and the update reads failed (R482). -/
def failApply (s : State) (code : Nat) : State :=
  if s.svc.updState = 1 then
    let s1 := { s with svc := { s.svc with updState := 3, updLeft := [] } }
    evt (pageErrOpen (resumeInst s1 s.svc.updKind s.svc.updAt) svcPage code) svcPage 2
  else s

/-- The instance being updated works for a context (R482). -/
def updServes (s : State) (n : Nat) : Bool :=
  let i := s.svc.updAt
  s.svc.updState == 1 &&
  match s.svc.updKind with
  | 0 => n == 0
  | 1 => (boundHarts s n).any fun h => hartEng h == i
  | 3 => (s.fabric i).ctx == some n
  | 4 => if i < 256 then s.bayCtx i == some n else (s.fabric (i - 256)).ctx == some n
  | _ => false

/-- A context in RUN enters ABORTED (R65); its job is told (R305): with this device's node, or with the node and past the link
of the notice that aborts it. -/
def abortCtx (s : State) (n : Nat) (notice : Option (Nat × Nat)) : State × List Work :=
  let s0 := if updServes s n then failApply s cUpdateFail else s
  let c := s0.ctx n
  let (s1, w) := endCtxWork (s0.setCtx n { c with st := .aborted }) n cAbortedEpoch
  let s2 := abortFabrics s1 n
  match jobOf s2 n with
  | some slot =>
    if (s2.jobSlot slot).abortProp then
      match notice with
      | none => (sendNotice s2 slot (nodeId s2) c.epoch none, w)
      | some (node, k) => (sendNotice s2 slot node c.epoch (some k), w)
    else (s2, w)
  | none => (s2, w)

/-- An aborting event charged to one context (R468, R470): its record, and the abort of a context in RUN. -/
def charge (s : State) (code n eng addr info : Nat) : State × List Work :=
  let c := s.ctx n
  let aborts := c.st == .run || c.st == .aborted
  let s1 := errRecord s code n false aborts eng c.epoch.toNat addr info
  if c.st = .run then abortCtx s1 n none else (s1, [])

/-- One item of work. -/
def doWork (s : State) : Work → State × List Work
  | .complete op status => finish s op status
  | .raise src ctx vid mode eng tag =>
    let (s1, st, k) := applySig s ctx vid mode src
    (if st = 0 then s1 else sigReject s1 ctx eng tag, k)
  | .charge code n eng addr info => charge s code n eng addr info

/-- Carry out all that follows, in order; an item's own consequences come before the next item. The bound is above what a
state can hold: each tag completes once, each completion signals once, each signal charges once (log entry 17). -/
def drain : Nat → List Work → State → State
  | 0, _, s => s
  | _, [], s => s
  | n + 1, w :: ws, s =>
    let (s1, k) := doWork s w
    drain n (k ++ ws) s1

/-- Carry out what follows from an effect. -/
def settle (r : State × List Work) : State := drain 65536 r.2 r.1

/-- Aborting events charged to a list of contexts, one record each. -/
def chargeAll (code eng addr : Nat) (info : Nat) (ns : List Nat) : List Work := ns.map fun n => .charge code n eng addr info

/-- An event charged to every context writes one record with ALLCTX and aborts each context in RUN that it covers (R470). -/
def chargeEvery (s : State) (code eng info : Nat) (but0 : Bool) : State :=
  let ns := (List.range 64).filter fun n => (s.ctx n).st == .run && !(but0 && n == 0)
  let s1 := errRecord s code 0 true true eng 0 0 info
  ns.foldl (fun s n => settle (abortCtx s n none)) s1

end Sys2Proof.Machine
end

