-- ==== Sys2Proof/Machine/Access.lean ====
section
/-! DEFINITION. Who accesses a register page, and the generic outcomes of an access (R15, R489, R490). -/

namespace Sys2Proof.Machine

open Sys2Proof

/-- The context an accessor stands for (R489): the host stands for none. -/
def accCtx (s : State) : Acc → Option Nat
  | .hart h => hartCtx s h
  | .vf n => some n
  | .host => none

/-- The accessor is a hart of context 0 (R489). -/
def isWarden (s : State) : Acc → Bool
  | .hart h => hartCtx s h == some 0
  | _ => false

/-- The accessor is a hart that can make accesses, or a function of a host port that is up (R499, R505). -/
def accLive (s : State) : Acc → Bool
  | .hart h => hartRuns s h
  | .vf n => s.host.up && decide (n ≠ 0 ∧ n ≤ s.host.vfs)
  | .host => s.host.up

/-- The accessor is a PCIe function (R14, R490). -/
def isFn : Acc → Bool
  | .hart _ => false
  | _ => true

/-- The key of an accessor's last value read. -/
def accKey : Acc → Nat
  | .hart h => h
  | .vf n => 1000 + n
  | .host => 2000

/-- Record the value that a read returned. -/
def setRead (s : State) (a : Acc) (v : Word) : State := { s with readVal := tset 0 s.readVal (accKey a) v }

/-- A closed register (R490): a function's access is counted DENIED; a read returns 0. -/
def denied (s : State) (a : Acc) : State := if isFn a then bump s (pageOf 1 0) 1 1 else s

/-- The read of a register closed to the accessor. -/
def deniedRead (s : State) (a : Acc) : State := setRead (denied s a) a 0

/-- Act on behalf of the warden; any other accessor is denied. -/
def wardenOnly (s : State) (a : Acc) (f : State → State) : State :=
  if isWarden s a ∧ accLive s a then f s else denied s a

/-- The RW bits of a register as they become when `v` is written (R15): RW bits are set, W1C bits cleared where `v` has ones. -/
def swValue (s : State) (page off : Nat) (v : Word) : Word :=
  match regInfo page off with
  | none => regGet s page off
  | some r =>
    let old := regGet s page off
    (old &&& ~~~(r.rw ||| r.w1c)) ||| (v &&& r.rw) ||| (old &&& r.w1c &&& ~~~v)

/-- A plain write of a register by its access types. -/
def plainWrite (s : State) (page off : Nat) (v : Word) : State := regPut s page off (swValue s page off v)

/-- A number with bits [lo + w − 1 : lo] replaced. -/
def setBits (n lo w v : Nat) : Nat := n - bits n lo w * 2 ^ lo + v % 2 ^ w * 2 ^ lo

/-- Replace bits of a register. -/
def regSet (s : State) (page off lo w v : Nat) : State :=
  regPut s page off (BitVec.ofNat 32 (setBits (regGet s page off).toNat lo w v))

/-- The engine identifier of a signal or record that no engine made (R471). -/
def noEng : Nat := 0xFFF

/-- Read a 48-bit counter (R141): the low bits are returned, the high bits captured into the HI register, the counter cleared. -/
def readCounter (s : State) (a : Acc) (page idx hiOff : Nat) : State :=
  let c := tget 0 s.cnts (page * 256 + idx)
  let s1 := regPut { s with cnts := tset 0 s.cnts (page * 256 + idx) 0 } page hiOff (BitVec.ofNat 32 (c / 2 ^ 32))
  setRead s1 a (BitVec.ofNat 32 c)

end Sys2Proof.Machine
end

