-- ==== Sys2Proof/Machine/Bases.lean ====
section
/-! DEFINITION. Time bases: their values, their increments, and what they read some ticks ago or ahead (14, R413 to R419). -/

namespace Sys2Proof.Machine

open Sys2Proof

def State.setTime (s : State) (t : TimeUnit) : State := { s with time := t }
def TimeUnit.base (t : TimeUnit) (k : Nat) : TimeBase := tget {} t.tb k
def TimeUnit.setBase (t : TimeUnit) (k : Nat) (b : TimeBase) : TimeUnit := { t with tb := tset {} t.tb k b }
def TimeUnit.st (t : TimeUnit) (k : Nat) : Steer := tget {} t.steer k
def TimeUnit.setSt (t : TimeUnit) (k : Nat) (v : Steer) : TimeUnit := { t with steer := tset {} t.steer k v }

/-! ### Counting (R413, R414, R417) -/

/-- A base as a number of units of 2^−32 ns. -/
def TimeBase.units (t : TimeBase) : Int := (t.sec.toNat * 1000000000 + t.ns : Nat) * (2 ^ 32 : Int) + t.frac.toNat

/-- A base advanced by an increment in units of 2^−32 ns (R414): at most one carry into SEC. -/
def TimeBase.advance (t : TimeBase) (inc : Int) : TimeBase :=
  let n := ((t.ns : Int) * 2 ^ 32 + t.frac.toNat + inc).toNat
  let ns := n / 2 ^ 32
  if ns < 1000000000 then { t with ns := ns, frac := BitVec.ofNat 32 n }
  else { sec := t.sec + 1, ns := ns - 1000000000, frac := BitVec.ofNat 32 n }

/-- The limit of a rate (R417). -/
def rateLimit : Int := 4194304

/-- A rate within its limits. -/
def clampRate (r : Int) : Int := if r < -rateLimit then -rateLimit else if rateLimit < r then rateLimit else r

/-- The increment of a tick without rate: 2 ns. -/
def tickUnits : Int := 2 ^ 33

/-- The rate terms of a base in this tick (R415, R417). -/
def rateOf (t : TimeUnit) (k : Nat) : Int :=
  if k = 1 ∨ k = 2 then
    let x := t.st k
    clampRate (x.rate + if 0 < x.slewTicks then x.slewRate else 0)
  else 0

/-- The base with a number of units of 2^−32 ns. -/
def TimeBase.ofUnits (n : Nat) : TimeBase :=
  { sec := BitVec.ofNat 48 (n / 2 ^ 32 / 1000000000), ns := n / 2 ^ 32 % 1000000000, frac := BitVec.ofNat 32 n }

/-- What a base reads `ticks` from now, or so long ago if negative, at its present increment (R419, log entry 88). TB3 counts as the base
that it follows. -/
def baseAt (s : State) (k : Nat) (ticks : Int) : TimeBase :=
  let t := s.time
  TimeBase.ofUnits ((t.base k).units + ticks * (tickUnits + rateOf t (if k = 3 then t.active else k))).toNat

/-- A base as a number of units of 2^−16 ns. -/
def baseUnits (t : TimeBase) : Nat := (t.sec.toNat * 1000000000 + t.ns) * 65536 + t.frac.toNat / 65536

end Sys2Proof.Machine
end

