-- ==== Sys2Proof/Machine/Scale.lean ====
section
/-! DEFINITION. Choosing crust scales, and what a salinometer does with requests, steps, observations and corrections (05). -/

namespace Sys2Proof.Machine

open Sys2Proof

/-! ### Scales (R150 to R152, R154) -/

/-- The smallest BF16 not below a non-negative value (R150). -/
def bf16Ceil (v : Val) : BitVec 16 :=
  match v with
  | .fin _ n d =>
    let lo := roundMag fBF16 .rz 0 n d
    BitVec.ofNat 16 (if Val.lt (decodeFmt fBF16 lo) (.fin false n d) then lo + 1 else lo)
  | _ => 0x7F80

/-- The BF16 code of 2^c for −126 ≤ c ≤ 127. -/
def scaleCode (c : Int) : BitVec 16 := BitVec.ofNat 16 ((c + 127).toNat * 128)

/-- The exponent c of a power-of-two crust scale. -/
def scaleExp (c : BitVec 16) : Int := (c.toNat / 128 % 256 : Nat) - 127

/-- The element format of an effective format code: 0 F4, 1 F8, 2 F8W. -/
def effFmt (e : Nat) : Fmt := if e = 0 then fF4 else if e = 1 then fF8 else fF8W

/-- The smallest integer c for which v ≤ 61,440 × M × 2^c, v above 0. -/
def scaleFor (f : Fmt) (v : Val) : Int :=
  match v.div ((fmtMax f).mul (.fin false 61440 1)) with
  | .fin _ n d =>
    let k := log2q n d
    if (Val.pow2 k).lt (.fin false n d) then k + 1 else k
  | _ => 127

/-- c clamped to −126 to 127 (R151). -/
def clampExp (c : Int) : Int := if c < -126 then -126 else if 127 < c then 127 else c

/-- C of R151 for a valid history of largest value E, with headroom H. -/
def chooseScale (f : Fmt) (e : Val) (h : Nat) : BitVec 16 := scaleCode (clampExp (scaleFor f (e.mul (Val.pow2 h))))

/-- C of a cold pass from the scanned amax (R154). -/
def coldScale (f : Fmt) (amax : Val) : BitVec 16 :=
  if amax.isZero then 0x3F80 else chooseScale f (decodeFmt fBF16 (bf16Ceil amax).toNat) 0

/-- The corrected scale of R152: the smallest c' above c under which the magnitude fits; the clamp 2^127 where there is none. -/
def correctScale (f : Fmt) (base : BitVec 16) (amax : Val) : BitVec 16 :=
  let c1 := scaleExp base + 1
  let c2 := scaleFor f amax
  let c := if c1 < c2 then c2 else c1
  scaleCode (if 127 < c then 127 else c)

/-! ### Tensor entries (R142 to R149) -/

/-- The SAL page of a die. -/
def salPage (d : Nat) : Nat := pageOf 12 d

/-- The home of a tensor (R142). -/
def salHome (tid : Word) : Nat := tid.toNat % 8

/-- The key of a tensor entry of a salinometer: context and tensor. -/
def salKey (n tid : Nat) : Nat := n * 2 ^ 32 + tid

/-- The salinometer takes requests: it is enabled and not quiesced for update or held in block reset (R129). -/
def salServes (s : State) (d : Nat) : Bool :=
  bit (regGet s (salPage d) 8).toNat 0 && !bit (regGet s (salPage d) 0xC).toNat 3

/-- Post a tensor event (R161): the queue holds 256; a full queue drops and counts it. -/
def salEvent (s : State) (d n code : Nat) (tid : Word) : State :=
  let x := s.sal d
  let s1 := if x.evq.length < 256 then s.setSal d { x with evq := x.evq ++ [{ ctx := n, code := code, info := tid }] }
    else bump s (salPage d) 4 1
  evt s1 (salPage d) (code - 1)

/-- Post a list of tensor events. -/
def salEvents (s : State) (d n : Nat) (tid : Word) (codes : List Nat) : State :=
  codes.foldl (fun s c => salEvent s d n c tid) s

/-- Count on counter `i` of an entry (R159). -/
def entryCount (e : SalEntry) (i n : Nat) : SalEntry :=
  let c := tget 0 e.cnt i
  if n = 0 then e
  else if c + n < cntMax then { e with cnt := tset 0 e.cnt i (c + n) }
  else { e with cnt := tset 0 e.cnt i cntMax, ovf := e.ovf ||| BitVec.ofNat 6 (2 ^ i) }

/-- The largest history value E (R150). -/
def histMax (h : List (BitVec 16)) : Nat := h.foldl (fun m x => if m < x.toNat then x.toNat else m) 0

/-- The history is valid (R150). -/
def histValid (e : SalEntry) : Bool := 0 < histMax e.hist

/-- The rung after a SILENT_TENSOR under a policy (R158). -/
def policyRung (policy rung : Nat) : Nat :=
  match policy with
  | 0 => rung
  | 1 => if rung < 1 then 1 else rung
  | 2 => if rung + 1 < 2 then rung + 1 else 2
  | _ => 2

/-- Action 1 of R147. -/
def closeHist (e : SalEntry) : SalEntry :=
  { e with hist := (bf16Ceil (f32 e.pendAmax) :: e.hist).take e.histLen }

/-- Action 2 of R147: the zero-fraction watch (R155, R156, R158). -/
def closeZero (e : SalEntry) : SalEntry × List Nat :=
  if e.zeroFrac * e.pendN < e.pendZ * 256 then
    if e.uflow ≤ e.silentRun + 1 then ({ e with silentRun := 0, rung := policyRung e.policy e.rung }, [1])
    else ({ e with silentRun := e.silentRun + 1 }, [])
  else ({ e with silentRun := 0 }, [])

/-- Action 3 of R147: the saturation streak (R153). -/
def closeSat (e : SalEntry) : SalEntry × List Nat :=
  if e.satSteps = 0 ∨ !e.pendCorr then ({ e with satRun := 0 }, [])
  else if e.satSteps ≤ e.satRun + 1 then
    ({ e with satRun := 0, headroom := if e.headroom < 7 then e.headroom + 1 else 7 }, [2])
  else ({ e with satRun := e.satRun + 1 }, [])

/-- Action 4 of R147: staged writes (R163). -/
def closeStaged (e : SalEntry) : SalEntry :=
  let e1 := match e.staged with
    | some g => { e with headroom := g.headroom, histLen := g.histLen, policy := g.policy, zeroFrac := g.zeroFrac,
                         uflow := g.uflow, satSteps := g.satSteps, satRun := if g.satSteps = 0 then 0 else e.satRun,
                         hist := e.hist.take g.histLen, staged := none }
    | none => e
  let e2 := if e1.invalidate then { e1 with hist := [], invalidate := false } else e1
  if e2.clearRung then { e2 with rung := 0, silentRun := 0, satRun := 0, clearRung := false } else e2

/-- Close the current step of an entry and set the next one (R147): the entry and the events, in order. -/
def closeStep (e : SalEntry) (next : Word) : SalEntry × List Nat :=
  let (e1, v) :=
    if e.pend then
      let (e2, v2) := closeZero (closeHist e)
      let (e3, v3) := closeSat e2
      (e3, v2 ++ v3)
    else (e, [])
  ({ closeStaged e1 with step := next, pend := false, pendAmax := 0, pendN := 0, pendZ := 0, pendCorr := false }, v)

/-- A new entry from SAL_DEF0 and SAL_DEF1 (R144). -/
def newEntry (s : State) (d : Nat) (step : Word) : SalEntry :=
  let d0 := (regGet s (salPage d) 0x40).toNat
  let d1 := (regGet s (salPage d) 0x44).toNat
  { step := step, headroom := bits d0 0 3, histLen := bits d0 3 4 + 1, policy := bits d0 7 2, zeroFrac := bits d0 16 8,
    uflow := bits d1 0 12, satSteps := bits d1 16 4 }

/-- Bring the home entry to step `t` for a request or an observation (R146): the state and the entry. -/
def stepTo (s : State) (d n : Nat) (tid t : Word) (e : SalEntry) : State × SalEntry :=
  let diff := signed 32 (t.toNat + 2 ^ 32 - e.step.toNat)
  if 0 < diff then
    let (e1, v) := closeStep e t
    let x := s.sal d
    (bump (salEvents (s.setSal d { x with entries := tput x.entries (salKey n tid.toNat) e1 }) d n tid v) (salPage d) 1 1, e1)
  else (s, e)

/-- The effective format of a request (R157): 0 F4, 1 F8, 2 F8W, 3 wide. Outputs and vector quantisation keep their format. -/
def effOf (load : Bool) (fmt rung : Nat) : Nat :=
  if !load || fmt == 2 then fmt
  else if rung = 0 then fmt else if rung = 1 then 1 else 3

/-- An answer (R151, R154, R157) from a history, its headroom and the rung: C, effective format, cold. -/
def scaleAnswer (hist : List (BitVec 16)) (headroom rung : Nat) (load : Bool) (fmt : Nat) : BitVec 16 × Nat × Bool :=
  let eff := effOf load fmt rung
  if eff = 3 then (0, 3, false)
  else if 0 < histMax hist then (chooseScale (effFmt eff) (decodeFmt fBF16 (histMax hist)) headroom, eff, false)
  else (0x3F80, eff, true)

/-- The answer of an entry. -/
def entryAnswer (e : SalEntry) (load : Bool) (fmt : Nat) : BitVec 16 × Nat × Bool := scaleAnswer e.hist e.headroom e.rung load fmt

/-- The answer of a cached copy (R145). -/
def copyAnswer (c : SalCopy) (load : Bool) (fmt : Nat) : BitVec 16 × Nat × Bool := scaleAnswer c.hist c.headroom c.rung load fmt

/-- The copy of an entry that a fetch brings (R145). -/
def copyOf (k : Nat) (e : SalEntry) : SalCopy := { key := k, step := e.step, hist := e.hist, headroom := e.headroom, rung := e.rung }

/-- The request is for a quantisation on load of a pan. -/
def reqLoads (r : SalReq) : Bool := r.unit == 0 && r.operand != 2

/-- A home serves a request (R144, R146): the answer, and the entry it comes from, if there is one. -/
def serveRequest (s : State) (d : Nat) (r : SalReq) : State × (BitVec 16 × Nat × Bool) × Option SalEntry :=
  let x := s.sal d
  let k := salKey r.ctx r.tid.toNat
  match tfind x.entries k with
  | some e =>
    let (s1, e1) := stepTo s d r.ctx r.tid r.step e
    (s1, entryAnswer e1 (reqLoads r) r.fmt, some e1)
  | none =>
    if x.entries.length < 16384 then
      let e := newEntry s d r.step
      (s.setSal d { x with entries := tput x.entries k e }, entryAnswer e (reqLoads r) r.fmt, some e)
    else (salEvent (bump s (salPage d) 3 1) d r.ctx 3 r.tid, (0x3F80, r.fmt, true), none)

/-- Deliver an answer to the engine that asked: the operand of its pan, or the VSTQ of its vector unit. -/
def deliverScale (s : State) (r : SalReq) (a : BitVec 16 × Nat × Bool) : State :=
  let sc : OpScale := { c := a.1, eff := a.2.1, cold := a.2.2, asked := true, known := true }
  let b := engBay r.engine
  if r.unit = 1 then s.setVec b { s.vec b with stqScale := sc }
  else
    let p := s.pan b
    match r.operand with
    | 0 => s.setPan b { p with a := { p.a with scale := sc } }
    | 1 => s.setPan b { p with b := { p.b with scale := sc } }
    | _ => s.setPan b { p with d := { p.d with scale := sc } }

/-- Give a saturated crust its corrected scale. -/
def fixCrust (l : List SatCrust) (crust : Nat) (c : BitVec 16) : List SatCrust :=
  l.map fun x => if x.crust = crust then { x with scale := some c } else x

/-- Deliver a corrected scale to the pan (R128). -/
def deliverCorrection (s : State) (r : SalReq) (c : BitVec 16) : State :=
  let b := engBay r.engine
  let p := s.pan b
  match r.operand with
  | 0 => s.setPan b { p with a := { p.a with sat := fixCrust p.a.sat r.crust c } }
  | 1 => s.setPan b { p with b := { p.b with sat := fixCrust p.b.sat r.crust c } }
  | _ => s.setPan b { p with d := { p.d with sat := fixCrust p.d.sat r.crust c } }

/-- Add an observation to the home entry (R146, R150, R153, R159). -/
def addObs (e : SalEntry) (o : SalObs) : SalEntry :=
  let e1 := entryCount (entryCount e 2 o.replayed) 3 o.late
  if o.statOnly then e1
  else
    let big := (f32 e1.pendAmax).lt (f32 o.obs.amax)
    let e2 := { e1 with pend := true, pendAmax := if big then o.obs.amax else e1.pendAmax, pendN := e1.pendN + o.obs.n,
                        pendZ := e1.pendZ + o.obs.z, pendCorr := e1.pendCorr || o.corr }
    entryCount (entryCount (entryCount (entryCount e2 0 o.obs.sat) 1 o.obs.nonfin) 4 o.obs.z) 5 (b2n o.cold)

/-- Requests of an engine unit that wait anywhere are dropped: a later answer is discarded (R129). -/
def dropRequests (s : State) (eng unit : Nat) : State :=
  let d := eng / 256
  let x := s.sal d
  let keep := fun (r : SalReq) => !(r.engine == eng && r.unit == unit)
  s.setSal d { x with reqs := x.reqs.filter keep, corr := x.corr.filter keep }

/-- Ask the die's salinometer for a scale (R143): the request takes the next place in the order of arrival. -/
def askScale (s : State) (r : SalReq) : State :=
  let d := r.engine / 256
  let x := s.sal d
  { s.setSal d { x with reqs := x.reqs ++ [{ r with seq := s.waitSeq }] } with waitSeq := s.waitSeq + 1 }

/-- Report a saturated crust to the die's salinometer (R128). -/
def askCorrection (s : State) (r : SalReq) : State :=
  let d := r.engine / 256
  let x := s.sal d
  s.setSal d { x with corr := x.corr ++ [r] }

/-- Send an observation from an engine of die `from_` to its home (R145, R150). -/
def sendObs (s : State) (from_ : Nat) (o : SalObs) : State :=
  let d := salHome o.tid
  let x := s.sal d
  (s.cross from_ d).setSal d { x with obs := x.obs ++ [o] }

/-! ### The cache (R145) -/

/-- The cache after a use of a copy: the least recently used one leaves; 2,048 are held. -/
def cacheUse (c : List SalCopy) (k : SalCopy) : List SalCopy := (k :: c.filter (·.key != k.key)).take 2048

/-- The copy that serves a request of die `d`: of its tensor, in its step. -/
def cached (s : State) (d : Nat) (r : SalReq) : Option SalCopy :=
  (s.sal d).cache.find? fun c => c.key == salKey r.ctx r.tid.toNat && c.step == r.step

/-! ### The events of a salinometer -/

/-- The salinometer that serves a request of die `d`: its own where its cache holds the copy (R145), and otherwise the home. -/
def servesAt (s : State) (d : Nat) (r : SalReq) : Nat :=
  if salHome r.tid ≠ d ∧ (cached s d r).isSome then d else salHome r.tid

/-- The oldest unanswered request of die `d` that salinometer `h` serves. -/
def dieRequest (s : State) (h d : Nat) : Option (Nat × SalReq × List SalReq) :=
  if salServes s d then
    (takeFirst (fun r : SalReq => r.answer.isNone && servesAt s d r == h) (s.sal d).reqs).map fun x => (d, x.1, x.2)
  else none

/-- The one that arrived first (R129); of two at once, that of the lower die (R146). -/
def firstRequest : List (Nat × SalReq × List SalReq) → Option (Nat × SalReq × List SalReq)
  | [] => none
  | x :: xs =>
    match firstRequest xs with
    | none => some x
    | some y => if y.2.1.seq < x.2.1.seq then some y else some x

/-- The request that salinometer `h` serves next. -/
def nextRequest (s : State) (h : Nat) : Option (Nat × SalReq × List SalReq) := firstRequest ((List.range 8).filterMap (dieRequest s h))

/-- SAL_SCALE_REQUEST (R144 to R147): the salinometer serves the next request that it holds. A request of its own die is answered
at once, from its entry or from its cached copy; another die's answer comes with SAL_FETCH_DONE. -/
def execSalScaleRequest (h : Nat) (s : State) : Out :=
  .next (
    if salServes s h then
      match nextRequest s h with
      | some (d, r, rest) =>
        if salHome r.tid ≠ h then
          match cached s h r with
          | some c => deliverScale (s.setSal h { s.sal h with reqs := rest, cache := cacheUse (s.sal h).cache c }) r
              (copyAnswer c (reqLoads r) r.fmt)
          | none => s
        else
          let (s1, a, e) := serveRequest s h r
          let x := s1.sal d
          if d = h then deliverScale (s1.setSal d { x with reqs := rest }) r a
          else (s1.cross d h).setSal d { x with reqs := x.reqs.map fun y =>
            if y == r then { r with answer := some a, copy := e.map (copyOf (salKey r.ctx r.tid.toNat)) } else y }
      | none => s
    else s)

/-- SAL_FETCH_DONE (R145): the oldest fetched answer reaches the tile that waits for it, and the entry stays in the cache when it is
that of the request's step. An untracked tensor has no entry to hold. -/
def execSalFetchDone (d : Nat) (s : State) : Out :=
  .next (
    if salServes s d then
      match takeFirst (fun r : SalReq => r.answer.isSome) (s.sal d).reqs with
      | some (r, rest) =>
        let x := s.sal d
        let cache := match r.copy with
          | some c => if c.step = r.step then cacheUse x.cache c else x.cache
          | none => x.cache
        let s1 := s.setSal d { x with reqs := rest, cache := cache }
        deliverScale s1 r (r.answer.getD (0x3F80, r.fmt, true))
      | none => s
    else s)

/-- SAL_OBSERVATION (R146, R150): the oldest observation joins its home entry; an untracked tensor's is dropped (R144). -/
def execSalObservation (d : Nat) (s : State) : Out :=
  .next (
    match (s.sal d).obs with
    | [] => s
    | o :: rest =>
      let x := s.sal d
      let s1 := s.setSal d { x with obs := rest }
      let k := salKey o.ctx o.tid.toNat
      match tfind x.entries k with
      | none => s1
      | some e =>
        let late := decide (signed 32 (o.step.toNat + 2 ^ 32 - e.step.toNat) < 0) && !o.statOnly
        let (s2, e1) := if o.statOnly then (s1, e) else stepTo s1 d o.ctx o.tid o.step e
        let y := s2.sal d
        let s3 := s2.setSal d { y with entries := tput y.entries k (addObs e1 o) }
        if late then bump s3 (salPage d) 2 1 else s3)

/-- SAL_CORRECTION (R152): the die's own salinometer answers the oldest report of a saturated crust. -/
def execSalCorrection (d : Nat) (s : State) : Out :=
  .next (
    if salServes s d then
      match (s.sal d).corr with
      | [] => s
      | r :: rest =>
        let x := s.sal d
        let s1 := bump (s.setSal d { x with corr := rest }) (salPage d) 0 1
        deliverCorrection s1 r (correctScale (effFmt r.fmt) r.base (f32 r.amax))
    else s)

end Sys2Proof.Machine
end

