-- ==== Sys2Proof/Machine/PanDesc.lean ====
section
/-! DEFINITION. The pan descriptor: its fields, operand formats, regions, checks and guarded granules (04, R105 to R118, R229). -/

namespace Sys2Proof.Machine

open Sys2Proof

/-! ### Fields (R113) -/

/-- The fields of a pan descriptor; bases in bytes. -/
structure PanDesc where
  op : Nat
  aFmt : Nat
  bFmt : Nat
  aT : Bool
  bT : Bool
  dT : Bool
  evict : Bool
  fallback : Nat
  outEn : Bool
  addEn : Bool
  rot : Nat
  kseg : Nat
  m : Nat
  n : Nat
  crusts : Nat
  aRnd : Nat
  bRnd : Nat
  dRnd : Nat
  aBase : Nat
  bBase : Nat
  dBase : Nat
  eBase : Nat
  dFmt : Nat
  aSlots : Nat
  bSlots : Nat
  aStream : Bool
  bStream : Bool
  aCredit : Nat
  bCredit : Nat
  shadow : Nat
  aTid : Word
  bTid : Word
  dTid : Word
  step : Word
  rotTid : Word
  outThr : Nat
  blk : Nat
  gidx : Nat
  rows : Nat
  /-- The reserved bits are all 0. -/
  clean : Bool
  deriving DecidableEq, Repr

/-- Read the fields of a descriptor of 64 bytes. -/
def panDesc (body : List Byte) : PanDesc :=
  let w1 := fieldLE body 8 8
  let w2 := fieldLE body 0x10 8
  let w3 := fieldLE body 0x18 8
  let w6 := fieldLE body 0x30 8
  let w7 := fieldLE body 0x38 8
  { op := fieldLE body 0 1, aFmt := bits w1 0 4, bFmt := bits w1 4 4, aT := bit w1 8, bT := bit w1 9, dT := bit w1 10,
    evict := bit w1 11, fallback := bits w1 12 2, outEn := bit w1 14, addEn := bit w1 15, rot := bits w1 16 3,
    kseg := 128 * (bits w1 20 4 + 1), m := bits w1 24 8 + 1, n := bits w1 32 8 + 1, crusts := bits w1 40 16,
    aRnd := bits w1 56 2, bRnd := bits w1 58 2, dRnd := bits w1 60 2,
    aBase := bits w2 0 16 * 64, bBase := bits w2 16 16 * 64, dBase := bits w2 32 16 * 64, eBase := bits w2 48 16 * 64,
    dFmt := bits w3 0 4, aSlots := bits w3 4 4 + 1, bSlots := bits w3 8 4 + 1, aStream := bit w3 12, bStream := bit w3 13,
    aCredit := bits w3 16 14, bCredit := bits w3 32 14, shadow := bits w3 48 16 * 64,
    aTid := BitVec.ofNat 32 (fieldLE body 0x20 4), bTid := BitVec.ofNat 32 (fieldLE body 0x24 4),
    dTid := BitVec.ofNat 32 (fieldLE body 0x28 4), step := BitVec.ofNat 32 (fieldLE body 0x2C 4),
    rotTid := BitVec.ofNat 32 (bits w6 0 32), outThr := bits w6 32 16, blk := bits w6 48 16,
    gidx := bits w7 0 16 * 64, rows := bits w7 16 12 + 1,
    clean := !bit w1 19 && bits w1 62 2 == 0 && bits w3 14 2 == 0 && bits w3 30 2 == 0 && bits w3 46 2 == 0 && bits w7 28 36 == 0 }

/-- K. -/
def PanDesc.k (d : PanDesc) : Nat := d.crusts * 128

/-- Tiles of the reduction (R118). -/
def PanDesc.tiles (d : PanDesc) : Nat := cdiv d.k d.kseg

/-- First step and length of a tile. -/
def PanDesc.tileAt (d : PanDesc) (t : Nat) : Nat × Nat := (t * d.kseg, min d.kseg (d.k - t * d.kseg))

/-- The descriptor gathers rows of A (R134). -/
def PanDesc.gathers (d : PanDesc) : Bool := d.op == 2

/-- Rows of A as they are stored (R134). -/
def PanDesc.srcRows (d : PanDesc) : Nat := if d.gathers then d.rows else d.m

/-! ### Operand formats (R114, R115) -/

/-- The 16-bit source format of an operand code. -/
def srcFmt (c : Nat) : Option Fmt := if c ≤ 2 then some fBF16 else if c ≤ 5 then some fFP16 else none

/-- The operand is quantised on load; its target format (0 F4, 1 F8). -/
def loadFmt (c : Nat) : Option Nat := if c = 0 ∨ c = 3 then some 0 else if c = 1 ∨ c = 4 then some 1 else none

/-- Element format and form of a pre-quantised operand code. -/
def quantFmt (c : Nat) : Fmt × Bool :=
  if c = 6 then (fF4, true) else if c = 7 then (fF8, true) else if c = 8 then (fF8, false)
  else if c = 9 then (fF8W, true) else (fF8W, false)

/-- Element format, form and request format of a quantised output code (R115). -/
def outFmt (c : Nat) : Fmt × Bool × Nat :=
  if c = 2 then (fF8, true, 1) else if c = 3 then (fF8, false, 1) else if c = 4 then (fF8W, true, 2) else (fF8W, false, 2)

/-! ### Layout (R82, R83, R116) -/

/-- A quantised tensor of a shape at a base: element plane, flake scales at the next 64-byte boundary, crust scales at the next. -/
def planesAt (f : Fmt) (flaked : Bool) (rows cols : Nat) (alongRow : Bool) (base : Nat) : Planes :=
  let p : Planes := { fmt := f, flaked := flaked, prows := pad128 rows, pcols := pad128 cols, alongRow := alongRow,
                      elems := base, flakes := 0, crusts := 0 }
  let fl := alignUp (base + elemBytes p) 64
  let cr := if flaked then alignUp (fl + flakeBytes p) 64 else fl
  { p with flakes := fl, crusts := cr }

/-- The end of a quantised tensor's planes. -/
def planesEnd (p : Planes) : Nat := p.crusts + crustBytes p

/-- The planes of `k` steps of an operand of `rows` rows (A) or columns (B); `t` is its T bit, `isB` says which. -/
def operandPlanes (f : Fmt) (flaked isB t : Bool) (rows k base : Nat) : Planes :=
  if isB != t then planesAt f flaked k rows false base else planesAt f flaked rows k true base

/-- Bytes of `k` steps of an operand of code `c`. -/
def shareBytes (c : Nat) (isB t : Bool) (rows k : Nat) : Nat :=
  match srcFmt c with
  | some _ => rows * k * 2
  | none => planesEnd (operandPlanes (quantFmt c).1 (quantFmt c).2 isB t rows k 0)

/-- The slot size of a streamed operand (R118). -/
def slotBytes (c : Nat) (isB t : Bool) (rows kseg : Nat) : Nat := alignUp (shareBytes c isB t rows kseg) 64

/-- Bytes of an operand's region. -/
def operandBytes (d : PanDesc) (isB : Bool) : Nat :=
  if isB then
    if d.bStream then d.bSlots * slotBytes d.bFmt true d.bT d.n d.kseg else shareBytes d.bFmt true d.bT d.n d.k
  else
    if d.aStream then d.aSlots * slotBytes d.aFmt false d.aT d.srcRows d.kseg else shareBytes d.aFmt false d.aT d.srcRows d.k

/-- The planes of a quantised D. -/
def dPlanes (d : PanDesc) : Planes :=
  planesAt (outFmt d.dFmt).1 (outFmt d.dFmt).2.1 d.m d.n (!d.dT) d.dBase

/-- Bytes of D. -/
def dBytes (d : PanDesc) : Nat := if d.dFmt < 2 then d.m * d.n * 2 else planesEnd (dPlanes d) - d.dBase

/-- The planes of an operand's F8 share of `k` steps in a shadow half (R130); B follows A at a 64-byte boundary. -/
def shadowPlanes (d : PanDesc) (isB : Bool) (base k : Nat) : Planes :=
  let a := operandPlanes fF8 true false (d.aT && !d.gathers) d.m d.kseg base
  if isB then
    let start := if (loadFmt d.aFmt).isSome then alignUp (planesEnd a) 64 else base
    operandPlanes fF8 true true d.bT d.n k start
  else operandPlanes fF8 true false (d.aT && !d.gathers) d.m k base

/-- Bytes of one half of the shadow area (R130), a multiple of 64. -/
def shadowHalf (d : PanDesc) : Nat :=
  let e := if (loadFmt d.bFmt).isSome then planesEnd (shadowPlanes d true 0 d.kseg)
    else if (loadFmt d.aFmt).isSome then planesEnd (shadowPlanes d false 0 d.kseg) else 0
  alignUp e 64

/-- The regions of a descriptor, start and end; empty regions stand nowhere. -/
def panRegions (d : PanDesc) : List (Nat × Nat) :=
  ([(d.aBase, operandBytes d false), (d.bBase, operandBytes d true)] ++
   (if d.evict then [(d.shadow, 2 * shadowHalf d)] else []) ++
   (if d.gathers then [(d.gidx, 2 * d.m)] else [])).filterMap fun r => if r.2 = 0 then none else some (r.1, r.1 + r.2)

/-- Two regions share a byte. -/
def overlaps (x y : Nat × Nat) : Bool := decide (x.1 < y.2) && decide (y.1 < x.2)

/-- No two regions of a list overlap. -/
def disjoint : List (Nat × Nat) → Bool
  | [] => true
  | r :: rs => rs.all (fun q => !overlaps r q) && disjoint rs

/-- The regions pass R116: inside the slice, disjoint, D within E where they start together. -/
def regionsOk (d : PanDesc) : Bool :=
  let out := (d.dBase, d.dBase + dBytes d)
  let add := (d.eBase, d.eBase + d.m * d.n * 2)
  let rs := panRegions d
  let base := rs ++ [out]
  let all := if d.addEn then base ++ [add] else base
  all.all (fun r => decide (r.2 ≤ sliceBytes)) && disjoint base &&
  (!d.addEn || (rs.all (fun r => !overlaps r add) &&
    ((d.dBase == d.eBase && decide (out.2 ≤ add.2)) || !overlaps out add)))

/-! ### The checks of R117 -/

/-- An identifier's class is flag or barrier. -/
def badCreditClass (v : Nat) : Bool := vidClass v == 0 || vidClass v == 1

/-- Rounding RZ on a quantise to F4, or a mode on an operand that is not quantised on load (reason 4). -/
def badMode (fmt rnd : Nat) : Bool :=
  match loadFmt fmt with
  | some 0 => rnd == 1
  | some _ => false
  | none => rnd != 0

/-- OUT_THR is positive and finite. -/
def thrOk (t : Nat) : Bool := t < 0x8000 && t != 0 && t < 0x7F80

/-- The lowest reason of R117 that a descriptor meets; 0 when it passes. -/
def panCheck (body : List Byte) : Nat :=
  let d := panDesc body
  if 2 < d.op then 1
  else if !d.clean then 2
  else if d.op = 0 then 0
  else if 10 < d.aFmt ∨ 10 < d.bFmt ∨ 5 < d.dFmt ∨ 3 < d.rot ∨ d.fallback = 3 ∨ d.aRnd = 3 ∨ d.bRnd = 3 ∨ d.dRnd = 3 then 3
  else if badMode d.aFmt d.aRnd ∨ badMode d.bFmt d.bRnd then 4
  else if d.crusts = 0 ∨ 32768 < d.crusts then 5
  else if !regionsOk d then 6
  else if d.evict ∧ d.fallback ≠ 0 then 7
  else if d.outEn ∧ ((loadFmt d.aFmt).isNone ∨ !thrOk d.outThr) then 8
  else if d.gathers ∧ d.aT then 9
  else if (d.aStream ∧ badCreditClass d.aCredit) ∨ (d.bStream ∧ badCreditClass d.bCredit) then 10
  else 0

/-! ### Guarded granules (R229, R230) -/

/-- A byte of `k` steps of an operand, `at_` bytes from the start of that share, belongs to a row that the pan uses, and to a step of
at least `k0`. The scales of a crust plane are read by every tile; the padding of an element or flake plane by none. -/
def shareByteNeeded (c : Nat) (isB t : Bool) (rows k k0 at_ : Nat) (used : Nat → Bool) : Bool :=
  let byStep := isB != t
  match srcFmt c with
  | some _ =>
    let i := at_ / 2
    if byStep then decide (k0 ≤ i / rows) && used (i % rows) else decide (k0 ≤ i % k) && used (i / k)
  | none =>
    let p := operandPlanes (quantFmt c).1 (quantFmt c).2 isB t rows k 0
    let row := fun r => decide (r < rows) && used r
    let elem := fun i => if byStep then row (i % p.pcols) && decide (k0 ≤ i / p.pcols) else row (i / p.pcols) && decide (k0 ≤ i % p.pcols)
    if at_ < elemBytes p then (if isF4 p.fmt then elem (2 * at_) || elem (2 * at_ + 1) else elem at_)
    else if p.flaked ∧ p.flakes ≤ at_ ∧ at_ < p.flakes + flakeBytes p then
      let j := at_ - p.flakes
      if byStep then row (j % p.pcols) && decide (k0 < (j / p.pcols + 1) * 32)
      else row (j / (p.pcols / 32)) && decide (k0 < (j % (p.pcols / 32) + 1) * 32)
    else decide (p.crusts ≤ at_ ∧ at_ < planesEnd p)

/-- The pan may still read byte `o` of its slice for an operand (R229). `held` says that the slot of the running tile is held: a
streamed slot is guarded until it is released, also that of a 16-bit source under EVICT_OK (R230). -/
def operandGuards (d : PanDesc) (p : Pan) (isB : Bool) (o : Nat) : Bool :=
  let c := if isB then d.bFmt else d.aFmt
  let t := if isB then d.bT else d.aT
  let rows := if isB then d.n else d.srcRows
  let base := if isB then d.bBase else d.aBase
  let held := if isB then p.b.held else p.a.held
  let used := fun r => isB || !d.gathers || p.gidx.contains r
  if (if isB then d.bStream else d.aStream) then
    if held = 0 then false
    else
      let slot := base + p.tile % (if isB then d.bSlots else d.aSlots) * slotBytes c isB t rows d.kseg
      let len := (d.tileAt p.tile).2
      decide (slot ≤ o ∧ o < slot + shareBytes c isB t rows len) && shareByteNeeded c isB t rows len 0 (o - slot) used
  else if d.evict && (srcFmt c).isSome then false
  else decide (base ≤ o ∧ o < base + operandBytes d isB) && shareByteNeeded c isB t rows d.k (p.tile * d.kseg) (o - base) used

/-- The pan's reduction is still under way. -/
def panReduces (p : Pan) : Bool := 1 ≤ p.stage && p.stage ≤ 5

/-- The pan guards byte `o` of its slice. -/
def panGuards (d : PanDesc) (p : Pan) (o : Nat) : Bool :=
  (d.evict && decide (d.shadow ≤ o ∧ o < d.shadow + 2 * shadowHalf d) && p.stage != 9) ||
  (panReduces p && (operandGuards d p false o || operandGuards d p true o))

/-- A write of the vector port or the network port into bytes of a bay's slice: it hits a guarded granule or not (R230). -/
def guardWrite (s : State) (b off len : Nat) : State :=
  match s.run (bayEng b) 0 with
  | none => s
  | some op =>
    let d := panDesc op.body
    let p := s.pan b
    let g0 := off / 64 * 64
    let n := alignUp (off + len) 64 - g0
    if d.op ≠ 0 ∧ 0 < len ∧ 1 ≤ p.stage ∧ p.stage ≠ 9 ∧ (List.range n).any (fun i => panGuards d p (g0 + i))
    then s.setPan b { p with guardHit := true } else s

end Sys2Proof.Machine
end

