-- ==== Sys2Proof/Machine/Mem.lean ====
section
/-! DEFINITION. Memory: rights, encryption by granule, errors, patrols, region entries, stack fences, BAR2 (08, R223 to R250). -/

namespace Sys2Proof.Machine

open Sys2Proof

/-! ### Codes and pages -/

def cMemUnmapped : Nat := 0x5001
def cMemAccess : Nat := 0x5002
def cMemFenced : Nat := 0x5004
def cMemSealFail : Nat := 0x5005
def cUeSram : Nat := 0x5006
def cUeStack : Nat := 0x5007
def cDmaCrc : Nat := 0x5008
def cStackFenced : Nat := 0x5009
def cRgnBad : Nat := 0x500A

/-- The memory page of a die (R249). -/
def memPage (d : Nat) : Nat := pageOf 13 d

/-- Bytes of a stack (R20). -/
def stackBytes : Nat := 0x18_0000_0000

/-! ### Regions (R225, R226) -/

/-- A right or attribute bit of a region: 1 R, 2 W, 3 CLEAR, 4 HOSTW, 5 SEAL. -/
def Region.has (r : Region) (i : Nat) : Bool := bit r.attr.toNat i

/-- A valid entry covers an address. -/
def Region.covers (r : Region) (a : Nat) : Bool := r.valid && decide (r.base.toNat ≤ a) && decide (a ≤ r.limit.toNat)

/-- The entries of a context that cover an address. -/
def regionsAt (s : State) (n a : Nat) : List Region := ((s.ctx n).region.map (·.2)).filter fun r => r.covers a

/-- A region entry of a context covers an address with a right. -/
def regionHas (s : State) (n a i : Nat) : Bool := (regionsAt s n a).any fun r => r.has i

/-- The context whose entry covers an address of stacked memory or hub SRAM (R226), if one does. -/
def entryOwner (s : State) (a : Nat) : Option Nat := (List.range 64).find? fun n => !(regionsAt s n a).isEmpty

/-- A fenced bay is powered off, once its fence has ended (R478). -/
def bayOff (s : State) (b : Nat) : Bool :=
  s.svc.bays.contains b && s.svc.busy != some { kind := 0, part := b, on := true }

/-- The address is mapped for an engine or a hart (R223, R224, R478, R491). -/
def mapped (s : State) (a : Nat) : Bool :=
  match rangeOf a with
  | .slice b _ => !bayOff s b
  | .coreMem i => !bayOff s (i / 16 * 32 + i % 16 * 2) && !bayOff s (i / 16 * 32 + i % 16 * 2 + 1)
  | .page _ _ | .unmapped => false
  | _ => true

/-- A context may read (`w` false) or write an address (R225, R227). -/
def allowed (s : State) (n : Nat) (w : Bool) (a : Nat) : Bool :=
  n == 0 ||
  match rangeOf a with
  | .slice b _ => s.bayCtx b == some n
  | .coreMem _ | .wardenMem _ | .page _ _ | .unmapped => false
  | _ => regionHas s n a (if w then 2 else 1)

/-- The stack of an address is fenced, or takes no request (R247, R248). -/
def fencedAt (s : State) (a : Nat) : Bool :=
  match rangeOf a with
  | .stack n => (s.stack n).fenced || (s.stack n).fenceReq || (s.stack n).training
  | _ => false

/-- The address lies on a die that is OFF (R437). -/
def offAt (s : State) (a : Nat) : Bool :=
  match rangeOf a with
  | .stack n => (s.die (n / 2)).state == 3
  | .slice b _ => (s.die (b / 32)).state == 3
  | .coreMem i => (s.die (i / 16)).state == 3
  | _ => false

/-- One address of each aligned 32 KiB that an interval touches: rights are constant within them. -/
def blocks (a n : Nat) : List Nat :=
  if n = 0 then [] else (List.range ((a + n - 1) / 0x8000 - a / 0x8000 + 1)).map fun i => (a / 0x8000 + i) * 0x8000

/-- An interval of addresses that an operation reads or writes. -/
structure Ext where
  addr : Nat
  len : Nat
  write : Bool
  deriving DecidableEq, Repr

/-- The first of MEM_UNMAPPED, MEM_ACCESS and MEM_FENCED that applies anywhere in the extents of a context (R227), then
ENGINE_FENCED for traffic to an OFF die (R437); 0 when none does. -/
def extCheck (s : State) (n : Nat) (es : List Ext) : Nat :=
  let bad := fun (p : Ext → Nat → Bool) => es.any fun e => (blocks e.addr e.len).any fun a => !p e a
  if bad fun _ a => mapped s a then cMemUnmapped
  else if bad fun e a => allowed s n e.write a then cMemAccess
  else if bad fun _ a => !fencedAt s a then cMemFenced
  else if bad fun _ a => !offAt s a then cEngineFenced
  else 0

/-- The state with the region table that was in force when a descriptor started: entries written while it runs apply from the next one
onward (R227). -/
def State.asOf (s : State) (op : Op) : State := s.setCtx op.ctx { s.ctx op.ctx with region := op.rgn }

/-! ### Encryption of stacked memory (R237, R238) -/

/-- The key that an address of stacked memory is stored under: the memory key of its owner, or 0 for none in CLEAR regions. -/
def keyAt (s : State) (a : Nat) : Nat :=
  match entryOwner s a with
  | some n => if regionHas s n a 3 then 0 else (s.ctx n).memKey.getD 0
  | none => (s.ctx 0).memKey.getD 0

/-- The 64 bytes of a granule as the store holds them (R238, R239): the data where it was written under no key, else its AES-XTS-256
ciphertext, with the granule's number as the data unit. Key `k` is the 512 bits of the draws from the k-th on (R449). -/
def storedGranule (s : State) (g : Nat) : List Byte :=
  let t := tget 0 s.memTag g
  if t = 0 then s.raw (g * 64) 64 else xtsUnit aesEncrypt (drawnBytes t 8) g (s.raw (g * 64) 64)

/-- The 64 bytes that reading a stored granule under key `k` gives. -/
def readGranule (k g : Nat) (stored : List Byte) : List Byte :=
  if k = 0 then stored else xtsUnit aesDecrypt (drawnBytes k 8) g stored

/-- The byte that an access of the device reads: the data under the key that wrote it, and meaningless data under another (R238). -/
def loadByte (s : State) (a : Nat) : Byte :=
  match rangeOf a with
  | .stack _ =>
    let g := a / 64
    let k := keyAt s a
    let t := tget 0 s.memTag g
    if t = k then rdByte s.mem a else (readGranule k g (storedGranule s g)).getD (a % 64) 0
  | _ => rdByte s.mem a

/-- Read bytes as the device reads them. -/
def load (s : State) (a n : Nat) : List Byte := (List.range n).map fun i => loadByte s (a + i)

/-- Bring a granule under the key of its owner, with the contents that key reads. -/
def ownGranule (s : State) (a : Nat) : State :=
  let g := a / 64
  let k := keyAt s a
  if tget 0 s.memTag g = k then s
  else { s with mem := wrBytes s.mem (g * 64) (load s (g * 64) 64), memTag := tset 0 s.memTag g k }

/-- Write one byte as the device writes it. -/
def storeByte (s : State) (a : Nat) (b : Byte) : State :=
  match rangeOf a with
  | .stack _ => let s1 := ownGranule s a; { s1 with mem := wrByte s1.mem a b }
  | _ => { s with mem := wrByte s.mem a b }

/-- Write bytes as the device writes them. -/
def store (s : State) (a : Nat) (bs : List Byte) : State := (bs.zipIdx).foldl (fun s x => storeByte s (a + x.2) x.1) s

/-- A write of the network port: into a slice it meets the guarded granules of the bay's pan (R230). -/
def netStore (s : State) (a : Nat) (bs : List Byte) : State :=
  let s1 := match rangeOf a with
    | .slice b off => guardWrite s b off (min bs.length (sliceBytes - off))
    | _ => s
  store s1 a bs

/-! ### Errors in the stores (R233, R234) -/

/-- The page and the CE counter of the store of an address; UE follows CE. Host memory and CXL .mem have none. -/
def eccCounter (a : Nat) : Option (Nat × Nat) :=
  match rangeOf a with
  | .stack n => some (memPage (n / 2), n % 2 * 2)
  | .slice b _ => some (memPage (b / 32), 4)
  | .coreMem i => some (memPage (i / 16), 4)
  | .hubSram | .wardenMem _ => some (memPage 8, 4)
  | _ => none

/-- The contexts to which an uncorrectable error at an address is charged (R234): none where only the record is written. A granule
of context 0 that the patrol finds bad is in use when an entry of context 0 covers it (log entry 18). -/
def errOwners (s : State) (a : Nat) (patrol : Bool) : List Nat :=
  match rangeOf a with
  | .slice b _ => (s.bayCtx b).toList
  | .coreMem i => (([2 * i, 2 * i + 1].filterMap fun h => if (s.hart h).bound then some (s.hart h).ctx else none)).eraseDups
  | .wardenMem _ => [0]
  | .stack _ | .hubSram =>
    match entryOwner s a with
    | some n => [n]
    | none => if patrol then [] else [0]
  | _ => []

/-- Free values in place of `n` doublewords from an address: what an uncorrectable error leaves in the store. -/
def scramble : Nat → State → Nat → State
  | 0, s, _ => s
  | n + 1, s, a => let (v, s1) := drawFree s; scramble n (s1.setRaw a (toLE 8 v.toNat)) (a + 8)

/-- An uncorrectable error (R234): the count, the records, the aborts. INFO holds the bits or symbols in error, 0xFF unknown. -/
def uncorrectable (s : State) (eng a n : Nat) (patrol : Bool) : State :=
  match eccCounter a with
  | none => s
  | some (page, i) =>
    let stk := match rangeOf a with | .stack _ => true | _ => false
    let s1 := bump (if stk then scramble 8 s (a / 64 * 64) else scramble 1 s (a / 8 * 8)) page (i + 1) 1
    let code := if stk then cUeStack else cUeSram
    let info := if n < 256 then n else 0xFF
    match errOwners s1 a patrol with
    | [] => errRecord s1 code 0 false false eng (s1.ctx 0).epoch.toNat a info
    | ns => settle (s1, chargeAll code eng a info ns)

/-- What the code of a store finds at an address that is read. -/
def eccAt (s : State) (eng a : Nat) (e : Ecc) (patrol : Bool) : State :=
  match e with
  | .clean => s
  | .corrected => match eccCounter a with | some (page, i) => bump s page i 1 | none => s
  | .uncorrectable n => uncorrectable s eng a n patrol

/-! ### Patrols and refresh (R232, R236) -/

/-- SCRUB_STACK (R236): the patrol reads the stack's next granule. A write-back restores what the store holds already, so a
write that races with it changes nothing here. A fenced stack has no patrol (R247). -/
def execScrubStack (n : Nat) (e : Ecc) (_raced : Bool) (s : State) : Out :=
  .next (
    let x := s.stack n
    if 16 ≤ n ∨ x.fenced ∨ x.fenceReq ∨ x.training then s
    else eccAt (s.setStack n { x with scrub := (x.scrub + 1) % (stackBytes / 64) }) 0xFFF (n * stackBytes + x.scrub * 64) e true)

/-- SCRUB_SRAM (R236): the patrol reads the slice's next granule of 3 MiB. -/
def execScrubSram (b : Nat) (e : Ecc) (_raced : Bool) (s : State) : Out :=
  .next (
    let i := tget 0 s.sramScrub b
    if 256 ≤ b ∨ s.svc.bays.contains b then s
    else eccAt { s with sramScrub := tset 0 s.sramScrub b ((i + 1) % 49152) } 0xFFF (bayAddr b (i * 64)) e true)

/-- FORCED_REFRESH (R232): the bank's contents are kept, and no register counts it. -/
def execForcedRefresh (_stack _bank : Nat) (s : State) : Out := .next s

/-! ### Region entries (R226, R509) -/

/-- Two intervals share an address. -/
def Region.meets (r q : Region) : Bool := decide (r.base.toNat ≤ q.limit.toNat) && decide (q.base.toNat ≤ r.limit.toNat)

/-- The range of R223 that a region lies in: 1 stacked memory, 2 hub SRAM, 3 host memory, 4 CXL .mem; 0 none or several. -/
def regionRange (r : Region) : Nat :=
  let lo := r.base.toNat
  let hi := r.limit.toNat
  if hi < lo then 0
  else if hi < 0x180_0000_0000 then 1
  else if hubSramBase ≤ lo ∧ hi < hubSramBase + 0x3FE_0000 then 2
  else if hostBase ≤ lo ∧ hi < cxlBase then 3
  else if cxlBase ≤ lo ∧ hi < 0x4000_0000_0000 then 4
  else 0

/-- A region of stacked memory or hub SRAM overlaps a valid entry of another context. -/
def ownedElsewhere (s : State) (n : Nat) (r : Region) : Bool :=
  (List.range 64).any fun m => m != n && (s.ctx m).region.any fun p => p.2.valid && p.2.meets r

/-- The hub refuses an entry with VALID 1 (R226). -/
def regionBad (s : State) (n : Nat) (r : Region) : Bool :=
  let k := regionRange r
  let step := if k = 1 then 0x20_0000 else 0x1_0000
  k == 0 || r.base.toNat % step != 0 || (r.limit.toNat + 1) % step != 0 ||
  (decide (k ≤ 2) && ownedElsewhere s n r) ||
  (r.has 3 && decide (k ≤ 2) && n != 0) ||
  (r.has 4 && !(r.has 3 && k == 1)) ||
  (r.has 5 && k != 4)

/-- Apply an entry of a context's region table, valid or not: the state, and MEM_RGN_BAD with the page's ERR_CODE when it is
refused (R226). -/
def regionWrite (s : State) (n idx : Nat) (r : Region) : State × Nat :=
  if r.valid ∧ regionBad s n r then (pageErrOpen s (memPage 8) cRgnBad, cRgnBad)
  else
    let c := s.ctx n
    (s.setCtx n { c with region := tput c.region idx r }, 0)

/-- The entry as it is in force; every bit is 0 where none was written. -/
def regionEntry (s : State) (n idx : Nat) : Region := tget { valid := false, base := 0, limit := 0, attr := 0 } (s.ctx n).region idx

/-- A write of MEM_RGN_SEL (R226): the staging registers and MEM_RGN_ATTR take the selected entry. -/
def rgnSelWrite (v : Word) (s : State) : State :=
  let p := memPage 8
  let s1 := plainWrite s p 0x90 v
  let n := v.toNat % 64
  let r := regionEntry s1 n (bits v.toNat 8 6)
  let put := fun (s : State) (off x : Nat) => regPut s p off (BitVec.ofNat 32 x)
  let s2 := put (put s1 0x94 (r.base.toNat % 2 ^ 32)) 0x98 (r.base.toNat / 2 ^ 32)
  let s3 := put (put s2 0x9C (r.limit.toNat % 2 ^ 32 / 65536 * 65536)) 0xA0 (r.limit.toNat / 2 ^ 32)
  put s3 0xA4 (r.attr.toNat / 2 * 2 + b2n r.valid)

/-- MEM_RGN_SEL (R226). -/
def execMemRgnSel (a : Acc) (v : Word) (s : State) : Out := .next (wardenOnly s a (rgnSelWrite v))

/-- A write of MEM_RGN_ATTR (R226): the staged entry with the written attributes is applied as one change, or refused. -/
def rgnAttrWrite (v : Word) (s : State) : State :=
  let p := memPage 8
  let sel := (regGet s p 0x90).toNat
  let part := fun off => (regGet s p off).toNat
  let r : Region := { valid := bit v.toNat 0, base := BitVec.ofNat 52 (part 0x94 + part 0x98 * 2 ^ 32),
                      limit := BitVec.ofNat 52 (part 0x9C + 65535 + part 0xA0 * 2 ^ 32), attr := BitVec.ofNat 6 v.toNat }
  let (s1, st) := regionWrite s (sel % 64) (bits sel 8 6) r
  if st = 0 then plainWrite s1 p 0xA4 v else s1

/-- MEM_RGN_ATTR (R226). -/
def execMemRgnAttr (a : Acc) (v : Word) (s : State) : Out := .next (wardenOnly s a (rgnAttrWrite v))

/-! ### Fencing a stack (R247, R248) -/

/-- Contexts that hold a valid entry covering a granule of a stack. -/
def stackOwners (s : State) (k : Nat) : List Nat :=
  (List.range 64).filter fun n => (s.ctx n).region.any fun p =>
    p.2.valid && decide (p.2.base.toNat < (k + 1) * stackBytes) && decide (k * stackBytes ≤ p.2.limit.toNat)

/-- A write of FENCE of a stack (R247, R248): 1 stops new requests, 0 retrains a fenced stack; ignored while TRAINING is 1. -/
def stackFenceWrite (k : Nat) (on : Bool) (s : State) : State :=
  let x := s.stack k
  if k < 16 ∧ !x.training then
    s.setStack k (if on then { x with fenceReq := true } else { x with fenceReq := false, training := x.fenced })
  else s

/-- STACK_FENCE (R247): FENCE written 1. -/
def execStackFence (a : Acc) (k : Nat) (s : State) : Out := .next (wardenOnly s a (stackFenceWrite k true))

/-- STACK_FENCED (R247): the requests in flight have completed; each owner is charged. FENCE_DONE is posted (R476). -/
def execStackFenced (k : Nat) (s : State) : Out :=
  .next (
    let x := s.stack k
    if k < 16 ∧ x.fenceReq ∧ !x.fenced then
      let s1 := evt (s.setStack k { x with fenced := true }) (pageOf 5 0) 1
      settle (s1, chargeAll cStackFenced 0xFFF (k * stackBytes) 0 (stackOwners s1 k))
    else s)

/-- STACK_UNFENCE (R248): FENCE written 0. -/
def execStackUnfence (a : Acc) (k : Nat) (s : State) : Out := .next (wardenOnly s a (stackFenceWrite k false))

/-- Zeros over a stack, with no encryption (R248). -/
def zeroStack (s : State) (k : Nat) : State :=
  { s with mem := s.mem.filter fun c => !(decide (k * stackBytes ≤ c.1) && decide (c.1 < (k + 1) * stackBytes)),
           memTag := s.memTag.filter fun c => !(decide (k * stackBytes ≤ c.1 * 64) && decide (c.1 * 64 < (k + 1) * stackBytes)) }

/-- STACK_TRAIN_DONE (R248): a stack that trained is zeroed and released; one that failed stays FENCED. -/
def execStackTrainDone (k : Nat) (trained : Bool) (s : State) : Out :=
  .next (
    let x := s.stack k
    if k < 16 ∧ x.training then
      if trained then (zeroStack s k).setStack k { x with training := false, fenced := false, trainFail := false }
      else s.setStack k { x with training := false, fenced := true, trainFail := true }
    else s)

/-! ### BAR2 (R239, R498) -/

/-- The size of BAR2 in units of 64 GiB: the smallest of R497 that reaches an offset (log entry 19). -/
def bar2Units (o : Nat) : Nat :=
  let u := o / 2 ^ 36
  if u < 1 then 1 else if u < 2 then 2 else if u < 4 then 4 else if u < 8 then 8 else if u < 16 then 16 else 32

/-- The address of an offset of BAR2. -/
def bar2Addr (s : State) (o : Nat) : Nat :=
  let base := regField s (pageOf 1 0) 0x4C 0 5
  (base / bar2Units o * bar2Units o) * 2 ^ 36 + o

/-- The byte that the store holds (R239): ciphertext under a key, the data where there is none. -/
def storedByte (s : State) (a : Nat) : Byte :=
  if tget 0 s.memTag (a / 64) = 0 then rdByte s.mem a else (storedGranule s (a / 64)).getD (a % 64) 0

/-- HOST_BAR2_READ (R239, R498): the stored bytes; an offset beyond the stacks reads 0 and is counted BAR2_OOR. A stack that takes
no request returns free values (log entry 19). -/
def execHostBar2Read (o len : Nat) (s0 : State) : Out :=
  .next (
    let a := bar2Addr s0 o
    let s := hostReach s0 (addrDie a)
    if len = 0 then s0
    else if 0x180_0000_0000 < a + len then
      bump { s with host := { s.host with lastRead := List.replicate len 0 } } (pageOf 1 0) 2 1
    else if (blocks a len).any (fencedAt s) then
      let (v, s1) := drawFree s
      { s1 with host := { s1.host with lastRead := (List.range len).map fun i => BitVec.ofNat 8 (Config.draw (v.toNat + i)).toNat } }
    else { s.crossMem 8 a len with host := { s.host with lastRead := (List.range len).map fun i => storedByte s (a + i) } })

/-- A host write lands only where a HOSTW region covers it (R239). -/
def hostWritable (s : State) (a : Nat) : Bool :=
  match entryOwner s a with
  | some n => regionHas s n a 4
  | none => false

/-- HOST_BAR2_WRITE (R239, R498): a write outside HOSTW regions is discarded and counted HOSTDROP. -/
def execHostBar2Write (o : Nat) (bytes : List Byte) (s0 : State) : Out :=
  .next (
    let a := bar2Addr s0 o
    let s := hostReach s0 (addrDie a)
    if bytes.isEmpty then s0
    else if 0x180_0000_0000 < a + bytes.length then bump s (pageOf 1 0) 2 1
    else if (blocks a bytes.length).all (fun x => hostWritable s x && !fencedAt s x) then store (s.crossMem 8 a bytes.length) a bytes
    else bump s (memPage 8) 6 1)

end Sys2Proof.Machine
end

