-- ==== Sys2Proof/Machine/Mac.lean ====
section
/-! DEFINITION. A MAC instance: its configuration, rings, slots, MACsec, time stamps, and how a frame is staged and completed
(11; 14, R419 to R422). -/

namespace Sys2Proof.Machine

open Sys2Proof

def cMacModeBusy : Nat := 0x8001
def cMacSlotCheck : Nat := 0x8002
def cMacLinkDown : Nat := 0x8003
def cMacLenBad : Nat := 0x8004
def cMacSecNoSa : Nat := 0x8005
def cMacRingBad : Nat := 0x8006
def cTimeTsBad : Nat := 0xA003

/-- The page and the engine identifier of MAC instance `m` (R321). -/
def macPage (m : Nat) : Nat := pageOf 17 m
def macEng (m : Nat) : Nat := 0x850 + m

/-! ### Configuration (R321, R326, R342, R344) -/

/-- MAC_GRP_CFG of the group of an instance. -/
def grpCfg (s : State) (m : Nat) : Nat := (regGet s (macPage (m / 4 * 4)) 0x40).toNat

/-- The instance serves a port under the group's mode (R321). -/
def macUsed (s : State) (m : Nat) : Bool :=
  let mode := bits (grpCfg s m) 0 2
  decide (m < 16) && (if mode = 0 then m % 4 == 0 else if mode = 1 then decide (m % 4 < 2) else true)

/-- The other port of a bump-in-the-wire pair (R342). -/
def macPair (s : State) (m : Nat) : Option Nat :=
  if macUsed s m && bit (grpCfg s m) (if m % 4 < 2 then 2 else 3) then some (if m % 2 = 0 then m + 1 else m - 1) else none

/-- A bit of MAC_CFG and the other fields that are used here. -/
def macCfgBit (s : State) (m i : Nat) : Bool := bit (regGet s (macPage m) 0x48).toNat i
def macMaxLen (s : State) (m : Nat) : Nat := regField s (macPage m) 0x48 16 15
def macSecBit (s : State) (m i : Nat) : Bool := bit (regGet s (macPage m) 0xA0).toNat i

/-- The context whose rights a MAC uses (R326); one that is not assigned is the warden's. -/
def macCtx (s : State) (m : Nat) : Nat :=
  if bit (regGet s (macPage m) 0x44).toNat 31 then regField s (macPage m) 0x44 0 6 else 0

/-- Count on a counter of R344. -/
def macCount (s : State) (m i n : Nat) : State := bump s (macPage m) i n

/-- A block's page is enabled (R495). -/
def pageOn (s : State) (page : Nat) : Bool := bit (regGet s page 8).toNat 0

/-- A MAC that is asked to quiesce finishes the frame it sends and holds the others (R495). -/
def macHolds (s : State) (m : Nat) : Bool := bit (regGet s (macPage m) 8).toNat 1

/-- The station address. -/
def macSta (s : State) (m : Nat) : List Byte :=
  toLE 4 (regGet s (macPage m) 0x4C).toNat ++ toLE 2 (regGet s (macPage m) 0x50).toNat

/-! ### Frames (R323, R324, R341, R419) -/

/-- The EtherType of a frame and where its payload starts, past one 802.1Q tag. -/
def etherType (bs : List Byte) : Nat × Nat :=
  let t := ofBE (slice bs 12 2)
  if t = 0x8100 ∨ t = 0x88A8 then (ofBE (slice bs 16 2), 18) else (t, 14)

/-- The traffic class of a frame (R324). -/
def frameClass (bs : List Byte) : Nat :=
  let t := ofBE (slice bs 12 2)
  if t = 0x8100 ∨ t = 0x88A8 then (bs.getD 14 0).toNat / 32 else 0

/-- A frame that goes in clear on a port with MACsec on (R341). -/
def secClear (s : State) (m : Nat) (bs : List Byte) : Bool :=
  let t := (etherType bs).1
  t == 0x888E || t == 0x8808 || (t == 0x88F7 && macSecBit s m 3)

/-- A transmitted frame is protected (R341). -/
def secProt (s : State) (m : Nat) (bs : List Byte) : Bool := macSecBit s m 0 && !secClear s m bs

/-- Bytes that MACsec adds to a frame (R340). -/
def secOverhead (s : State) (m : Nat) : Nat := (if macSecBit s m 2 then 16 else 8) + 16

/-! ### CRC-32 of IEEE 802.3 (R328, R336) -/

def crc32Bit (c : Word) : Word := if c.toNat % 2 = 1 then (c >>> 1) ^^^ 0xEDB88320 else c >>> 1
def crc32Byte (c : Word) (b : Byte) : Word :=
  let x := c ^^^ BitVec.ofNat 32 b.toNat
  crc32Bit (crc32Bit (crc32Bit (crc32Bit (crc32Bit (crc32Bit (crc32Bit (crc32Bit x)))))))

/-- The FCS of bytes, bit 0 the first bit transmitted. -/
def crc32 (bs : List Byte) : Word := (bs.foldl crc32Byte 0xFFFFFFFF) ^^^ 0xFFFFFFFF

/-- Bytes with their FCS. -/
def withFcs (bs : List Byte) : List Byte := bs ++ toLE 4 (crc32 bs).toNat

/-! ### MACsec (R340, R341): the SecTAG is that of IEEE 802.1AE-2018 (log entry 89) -/

/-- The fields of a SecTAG: AN, SCI if it is included, the 32 bits of PN, whether the data is encrypted, and the bytes of the tag. -/
structure SecTag where
  an : Nat
  sci : Option Dword
  pn : Nat
  enc : Bool
  size : Nat
  deriving DecidableEq, Repr

/-- The length of a frame, and its bytes before the FCS. -/
def frameLen (f : Frame) : Nat := f.wire.length
def frameData (f : Frame) : List Byte := f.wire.take (f.wire.length - 4)

/-- The SecTAG behind the addresses of a frame: EtherType 0x88E5, TCI and AN, SL, PN, and the SCI if its bit is set. -/
def secTag (d : List Byte) : Option SecTag :=
  let tci := (d.getD 14 0).toNat
  let size := if bit tci 5 then 16 else 8
  if ofBE (slice d 12 2) = 0x88E5 ∧ !bit tci 7 ∧ 12 + size + 16 ≤ d.length then
    some { an := tci % 4, sci := if bit tci 5 then some (BitVec.ofNat 64 (ofBE (slice d 20 8))) else none, pn := ofBE (slice d 16 4),
           enc := bit tci 3, size := size }
  else none

/-- The receive SC of a SecTAG: that of its SCI; without one, the first that is installed. -/
def tagSc (x : Mac) (g : SecTag) : Option (Nat × RxSc) :=
  match g.sci with
  | some sci => x.rxSc.find? fun c => c.2.sci == sci
  | none => x.rxSc.head?

/-- The whole PN of a SecTAG on an SA that expects `next` (R340): under XPN the upper bits are those of the expected PN, one more when the
lower bits lie half their range or more below its own. -/
def fullPn (xpn : Bool) (next pn : Nat) : Nat :=
  if !xpn then pn
  else
    let hi := next / 2 ^ 32
    if pn + 2 ^ 31 ≤ next % 2 ^ 32 then (hi + 1) * 2 ^ 32 + pn else hi * 2 ^ 32 + pn

/-- The IV of a PN (R340): SCI and PN, or under XPN the IV of the SA with the PN exclusive-ored. -/
def secIv (xpn : Bool) (k : Sak) (sci : Dword) (pn : Nat) : List Byte :=
  if xpn then toBE 12 (k.iv ^^^ BitVec.ofNat 96 pn).toNat else toBE 8 sci.toNat ++ toBE 4 pn

/-- The SA under which a frame is to be verified: its SC's SCI, the PN in full, and its key. -/
def frameSa (s : State) (m : Nat) (g : SecTag) : Option (Dword × Nat × Sak) :=
  match tagSc (s.mac m) g with
  | none => none
  | some (_, c) =>
    match tfind c.pn g.an, tfind c.sak g.an with
    | some next, some k => some (c.sci, fullPn (macSecBit s m 1) next g.pn, k)
    | _, _ => none

/-- The protected bytes of a frame in clear: between its SecTAG and its ICV. -/
def secText (s : State) (m : Nat) (d : List Byte) (g : SecTag) : List Byte :=
  let ct := slice d (12 + g.size) (d.length - 28 - g.size)
  match frameSa s m g with
  | some (sci, pn, k) => if g.enc then gcmStream (toLE 32 k.key.toNat) (secIv (macSecBit s m 1) k sci pn) ct else ct
  | none => ct

/-- The ICV of a frame is right. -/
def icvOk (s : State) (m : Nat) (d : List Byte) (g : SecTag) : Bool :=
  match frameSa s m g with
  | some (sci, pn, k) =>
    let body := slice d (12 + g.size) (d.length - 28 - g.size)
    let (aad, ct) := if g.enc then (d.take (12 + g.size), body) else (d.take (12 + g.size) ++ body, [])
    gcmTag (toLE 32 k.key.toNat) (secIv (macSecBit s m 1) k sci pn) aad ct == d.drop (d.length - 16)
  | none => false

/-- The SecTAG of a frame on a port with MACsec on. -/
def portTag (s : State) (m : Nat) (f : Frame) : Option SecTag := if macSecBit s m 0 then secTag (frameData f) else none

/-- A frame was verified by MACsec. -/
def secVerified (s : State) (m : Nat) (f : Frame) : Bool := (portTag s m f).isSome

/-- A received frame in clear (R329): without SecTAG and ICV when MACsec verified it, without FCS. -/
def clearBytes (s : State) (m : Nat) (f : Frame) : List Byte :=
  let d := frameData f
  match portTag s m f with
  | some g => d.take 12 ++ secText s m d g
  | none => d

/-- The parse window of a frame (R394): 512 bytes with nothing stripped, protected bytes decrypted in place; zeros beyond its data, which
ends before the ICV. -/
def parseWindow (s : State) (m : Nat) (f : Frame) : List Byte :=
  let d := frameData f
  padTo 0 512 ((match portTag s m f with
    | some g => d.take (12 + g.size) ++ secText s m d g
    | none => d).take 512)

/-- The SCI of a port that sends: its address and port number 1. -/
def txSci (s : State) (m : Nat) : Dword := BitVec.ofNat 64 (ofBE (macSta s m) * 2 ^ 16 + 1)

/-- A frame protected under the transmit SA (R340, R341), before its FCS. -/
def protect (s : State) (m : Nat) (bs : List Byte) : List Byte :=
  let x := s.mac m
  let k := x.txSak.getD { key := 0, iv := 0 }
  let withSci := macSecBit s m 2
  let data := bs.drop 12
  let tci := x.txAn.getD 0 + 12 + b2n withSci * 32
  let tag := toBE 2 0x88E5 ++ [BitVec.ofNat 8 tci, BitVec.ofNat 8 (if data.length < 48 then data.length else 0)] ++ toBE 4 (x.txPn % 2 ^ 32) ++
    (if withSci then toBE 8 (txSci s m).toNat else [])
  let iv := secIv (macSecBit s m 1) k (txSci s m) x.txPn
  let ct := gcmStream (toLE 32 k.key.toNat) iv data
  bs.take 12 ++ tag ++ ct ++ gcmTag (toLE 32 k.key.toNat) iv (bs.take 12 ++ tag) ct

/-- A frame as it stands on the wire (R328): padded to 60 bytes, protected, with its FCS. -/
def wireBytes (s : State) (m : Nat) (f : TxFrame) : List Byte :=
  let bs := padTo 0 60 f.bytes
  withFcs (if f.prot then protect s m bs else bs)

/-- Where the PTP message of an event message starts (R419). -/
def ptpEvent (bs : List Byte) : Option Nat :=
  let (t, off) := etherType bs
  if t = 0x88F7 ∧ (bs.getD off 0).toNat % 16 < 4 then some off else none

/-! ### Time stamps (R419 to R422) -/

/-- Ticks from the first bit of a frame on the fibre to its first byte at the MAC, and from the first byte into the MAC to the first bit
on the fibre (R325, R419): 160 ns and 80 ns. -/
def rxPipe : Nat := 80
def txPipe : Nat := 40

/-- The four bases at the first bit of a frame that arrives, and of one that begins now (R419). -/
def rxTimes (s : State) (f : Frame) : List TimeBase := (List.range 4).map fun k => baseAt s k (-(f.lag + rxPipe : Nat))
def txTimes (s : State) : List TimeBase := (List.range 4).map fun k => baseAt s k txPipe

/-- The compact stamp of a moment (R63). -/
def stampAt (ts : List TimeBase) : Word := let t := ts.getD 3 {}; BitVec.ofNat 32 (t.sec.toNat * 1000000000 + t.ns)

/-- The base of a PTP domain (R420). -/
def domainBase (s : State) (dom : Nat) : Nat :=
  if dom = regField s timePage 0x54 0 8 then 1 else if dom = regField s timePage 0x54 8 8 then 2 else 0

/-- Queue a stamp entry (R420): 256 are held; one that finds the queue full is counted and dropped. -/
def queueStamp (s : State) (m : Nat) (tx : Bool) (ts : List TimeBase) (off : Nat) (bs : List Byte) : State :=
  let dom := (bs.getD (off + 4) 0).toNat
  let k := domainBase s dom
  let t := ts.getD k {}
  let w : List Nat := [m + b2n tx * 16 + k * 32 + (bs.getD off 0).toNat % 16 * 256 + ofBE (slice bs (off + 30) 2) * 65536,
    dom + t.frac.toNat / 65536 * 256, t.ns, t.sec.toNat % 2 ^ 32, t.sec.toNat / 2 ^ 32]
  if s.time.stampq.length < 256 then { s with time := { s.time with stampq := s.time.stampq ++ [w.map (BitVec.ofNat 32)] } }
  else evt (bump s timePage 0 1) timePage 6

/-- Bytes of a list replaced from an offset. -/
def putBytes (bs : List Byte) (off : Nat) (new : List Byte) : List Byte := bs.take off ++ new ++ bs.drop (off + new.length)

/-- correctionField with units of 2^−16 ns added (R422): an overflow writes the largest value. -/
def addCorrection (bs : List Byte) (off n : Nat) : List Byte :=
  let c := signed 64 (ofBE (slice bs (off + 8) 8)) + n
  let v := if (2 : Int) ^ 63 ≤ c then 2 ^ 63 - 1 else (c % 2 ^ 64).toNat
  putBytes bs (off + 8) (toLE 8 v).reverse

/-! ### Rings (R326 to R329) -/

/-- A ring of a MAC: direction 0 transmit, 1 receive. -/
def Mac.ring (x : Mac) (dir r : Nat) : MacRing := tget {} x.rings (dir * 8 + r)
def Mac.setRing (x : Mac) (dir r : Nat) (v : MacRing) : Mac := { x with rings := tset {} x.rings (dir * 8 + r) v }

/-- Entries of a ring, and the address of entry `i` (R327). -/
def MacRing.size (r : MacRing) : Nat := 2 ^ r.log2
def MacRing.entry (r : MacRing) (i : Nat) : Nat := r.base.toNat + 16 * (i % r.size)

/-- Entries posted and not completed. -/
def MacRing.posted (r : MacRing) : Nat := (r.sw - r.hw).toNat

/-- The signal of a completed entry (R327): a refusal posts SIG_REJECT with the entry's index in place of the tag. -/
def ringSignal (s : State) (m : Nat) (r : MacRing) (i : Nat) : State :=
  if r.sigEn then
    let mode := if vidClass r.sigId = 2 then 1 else 0
    settle (s, [.raise { eng := macEng m, op := 0xF0 + mode } (macCtx s m) r.sigId mode (macEng m) (i % r.size)])
  else s

/-- A transmit entry completes (R327, R328): STATUS is written if the context may write it, HWIDX advances, the signal is raised. -/
def completeEntry (s : State) (m r i status : Nat) : State :=
  let g := (s.mac m).ring 0 r
  let a := g.entry i + 12
  let s1 := if extCheck s (macCtx s m) [{ addr := a, len := 4, write := true }] = 0
    then netStore (s.crossMem 8 a 4) a (toLE 4 status) else s
  ringSignal (s1.setMac m ((s1.mac m).setRing 0 r { g with hw := g.hw + 1 })) m g i

/-- A frame comes from an entry of ring `r`. -/
def ofRing (r : Nat) (f : TxFrame) : Bool := f.src == 0 && f.cls == r

/-- Entries of a ring that are in the buffer or being sent. -/
def inFlight (x : Mac) (r : Nat) : Nat := (x.staged ++ x.back ++ x.cur.toList ++ x.cut.toList).countP (ofRing r)

/-- Entries of a ring that carry no frame to send complete as soon as every earlier one has (R328). -/
def flushBad : Nat → State → Nat → Nat → State
  | 0, s, _, _ => s
  | n + 1, s, m, r =>
    let x := s.mac m
    if (x.cur.toList ++ x.cut.toList).any (ofRing r) then s
    else match takeFirst (ofRing r) x.staged with
      | some (f, rest) =>
        if f.status = 0 then s
        else flushBad n (completeEntry (s.setMac m { x with staged := rest }) m r f.entry f.status.toNat) m r
      | none => s

/-! ### Staging (R331) -/

/-- Bytes in the transmit buffer. -/
def txBytes (x : Mac) : Nat := ((x.staged ++ x.cur.toList ++ x.cut.toList).map (·.bytes.length)).foldl (· + ·) 0

/-- A class has room for a frame in the transmit buffer of 64 KiB: two frames are staged at most. -/
def bufRoom (x : Mac) (c n : Nat) : Bool := decide (x.staged.countP (fun f => f.cls == c) < 2) && decide (txBytes x + n ≤ 65536)

/-- A new frame may be staged: what a recall displaced from its class goes first (R403). -/
def classRoom (x : Mac) (c n : Nat) : Bool := bufRoom x c n && !(c == 7 && !x.back.isEmpty)

/-- Put a frame into the transmit buffer. -/
def stageTx (s : State) (m : Nat) (f : TxFrame) : State := s.setMac m { s.mac m with staged := (s.mac m).staged ++ [f] }

/-- A class is paused (R333). -/
def classPaused (x : Mac) (c : Nat) : Bool := tget 0 x.timers c != 0 || tget 0 x.timers (8 + c) != 0

/-- The end of the PNs of an SA: 2^64 under XPN, else 2^32. -/
def saEnd (s : State) (m : Nat) : Nat := if macSecBit s m 1 then 2 ^ 64 else 2 ^ 32

/-- The transmit SA has sent its last PN (R341). -/
def saSpent (s : State) (m : Nat) : Bool := decide (saEnd s m ≤ (s.mac m).txPn)

/-- A port sends: its link is up, the block and transmission are enabled. -/
def txOpen (s : State) (m : Nat) : Bool := macUsed s m && (s.mac m).up && macCfgBit s m 0 && pageOn s (macPage m)

/-! ### PFC (R335) -/

/-- Bytes in the receive FIFO. -/
def fifoBytes (x : Mac) : Nat := (x.held.map (·.len)).foldl (· + ·) 0

/-- PFC generation is on, with its thresholds in bytes. -/
def pfcOn (s : State) (m : Nat) : Option (Nat × Nat) :=
  let w := (regGet s (macPage m) 0x7C).toNat
  if macCfgBit s m 6 && decide (bits w 16 16 < bits w 0 16) then some (64 * bits w 0 16, 64 * bits w 16 16) else none

/-- Compare the FIFO with the thresholds: above XOFF_THR the classes are paused, at XON_THR or below they resume. -/
def pfcCheck (s : State) (m : Nat) : State :=
  let x := s.mac m
  match pfcOn s m with
  | none => s
  | some (hi, lo) =>
    let n := fifoBytes x
    if !x.xoff ∧ hi < n then s.setMac m { x with xoff := true, pfcPend := x.pfcPend ++ [regField s (macPage m) 0x78 16 16] }
    else if x.xoff ∧ n ≤ lo then s.setMac m { x with xoff := false, pfcPend := x.pfcPend ++ [0] }
    else s

/-- PFC_REPEAT (R335): half of PAUSE_TIME has passed while the occupancy is above XON_THR. -/
def execPfcRepeat (m : Nat) (s : State) : Out :=
  .next (
    let x := s.mac m
    match pfcOn s m with
    | some (_, lo) =>
      if macUsed s m ∧ x.xoff ∧ lo < fifoBytes x then
        s.setMac m { x with pfcPend := x.pfcPend ++ [regField s (macPage m) 0x78 16 16] }
      else s
    | none => s)

/-- The PFC frame of R335: the classes of MASK, each for `q` quanta. -/
def pfcFrame (s : State) (m q : Nat) : List Byte :=
  let mask := regField s (macPage m) 0x78 0 8
  ([0x01, 0x80, 0xC2, 0x00, 0x00, 0x01] : List Byte) ++ macSta s m ++ [0x88, 0x08, 0x01, 0x01, 0x00, BitVec.ofNat 8 mask] ++
    (List.range 8).flatMap fun i => if bit mask i then (toLE 2 q).reverse else [0, 0]

/-! ### Leaving the receive FIFO (R330, R339, R342) -/

/-- Write a frame to its ring (R329, R330 step 4 and 5). -/
def toRing (s : State) (m : Nat) (h : HeldFrame) : State :=
  let g := (s.mac m).ring 1 h.dest
  let n := macCtx s m
  let e := g.entry g.hw.toNat
  let a := fieldLE (load s e 8) 0 8 % 2 ^ 52
  if !g.en ∨ g.hw = g.sw ∨ extCheck s n [{ addr := e, len := 16, write := false }, { addr := e, len := 16, write := true }] ≠ 0 then
    evt (macCount s m 6 1) (macPage m) 5
  else if g.bufsz * 1024 < h.bytes.length then macCount s m 7 1
  else if extCheck s n [{ addr := a, len := h.bytes.length, write := true }] ≠ 0 then evt (macCount s m 6 1) (macPage m) 5
  else
    let w := h.bytes.length + b2n h.sec * 2 ^ 15 + (match h.slot with | some k => k * 2 ^ 16 + 2 ^ 21 | none => 0)
    let s1 := netStore (netStore ((s.crossMem 8 e 16).crossMem 8 a h.bytes.length) a h.bytes) (e + 8)
      (toLE 4 w ++ toLE 4 h.stamp.toNat)
    ringSignal (s1.setMac m ((s1.mac m).setRing 1 h.dest { g with hw := g.hw + 1 })) m g g.hw.toNat

/-- Forward a frame to the partner's transmit buffer (R342): dropped when the partner is down or has no transmit SA for it; none
while the partner's class is full. -/
def forwardTo (s : State) (m : Nat) (h : HeldFrame) : Option State :=
  match macPair s m with
  | none => some (macCount s m 8 1)
  | some q =>
    let y := s.mac q
    let f : TxFrame := { cls := h.cls, bytes := h.bytes, src := 1, ts := !h.sec, ingress := h.ingress, prot := secProt s q h.bytes }
    if !y.up ∨ (f.prot ∧ y.txAn = none) then some (macCount s m 19 1)
    else if classRoom y h.cls h.bytes.length then some (stageTx (macCount s m 19 1) q f)
    else none

/-- Frames leave the FIFO in order, until one must wait. -/
def drainHeld : Nat → State → Nat → State
  | 0, s, _ => s
  | n + 1, s, m =>
    match (s.mac m).held with
    | [] => s
    | h :: rest =>
      let s1 := s.setMac m { s.mac m with held := rest }
      if h.nap then s
      else if h.dest < 8 then drainHeld n (toRing s1 m h) m
      else match forwardTo s1 m h with
        | some s2 => drainHeld n s2 m
        | none => s

/-- Let the FIFO of a MAC drain, and compare it with the PFC thresholds before and after. -/
def settleRx (s : State) (m : Nat) : State := pfcCheck (drainHeld 4096 (pfcCheck s m) m) m

/-- What a recall displaced from class 7 is staged again as room comes (R403). -/
def restage : Nat → State → Nat → State
  | 0, s, _ => s
  | n + 1, s, m =>
    let x := s.mac m
    match x.back with
    | f :: rest =>
      if bufRoom x 7 f.bytes.length then restage n (s.setMac m { x with back := rest, staged := x.staged ++ [f] }) m else s
    | [] => s

/-- Room has come in a MAC's transmit buffer: displaced frames are staged, and the partner's FIFO may drain (R342). -/
def settlePair (s : State) (m : Nat) : State :=
  let s1 := flushBad 2 (restage 2 s m) m 7
  match macPair s1 m with
  | some q => settleRx s1 q
  | none => s1

end Sys2Proof.Machine
end

