-- ==== Sys2Proof/Machine/OvsImage.lean ====
section
/-! DEFINITION. Configuration images of the Ouvvos fabrics: their records, the loader's checks, and the paths of routes
(12, R346, R349, R355 to R371; 13, R395, R399). -/

namespace Sys2Proof.Machine

open Sys2Proof

/-! ### The grid (R346, R348) -/

/-- Tile types: 0 MUL, 1 SFN, 2 MEM, 3 IO, 4 SLU (R369), by column (R346). -/
def columnType (x : Nat) : Nat :=
  if x = 0 ∨ x = 31 then 3
  else if [1, 6, 10, 14, 16, 21, 25, 29].contains x then 2
  else if [8, 15, 23, 30].contains x then 1
  else if [4, 12, 19, 27].contains x then 4
  else 0

/-- The tiles from `a` to `b` along one row or column, `a` left out. -/
def walk (tileAt : Nat → Nat) (a b : Nat) : List Nat :=
  if a ≤ b then (List.range (b - a)).map fun i => tileAt (a + 1 + i)
  else (List.range (a - b)).map fun i => tileAt (a - 1 - i)

/-- The tiles of a path after its source (R349): along the source row to the waypoint's column, along that column to the
waypoint's row, along that row to the destination's column, along that column to the destination. -/
def pathOf (src way dst : Nat) : List Nat :=
  let sx := src % 32
  let sy := src / 32
  let wx := way % 32
  let wy := way / 32
  let dx := dst % 32
  walk (fun x => sy * 32 + x) sx wx ++ walk (fun y => y * 32 + wx) sy wy ++ walk (fun x => wy * 32 + x) wx dx ++
    walk (fun y => y * 32 + dx) wy (dst / 32)

/-- The links of a path: pairs of a tile and the tile after it. -/
def linksOf (src : Nat) (path : List Nat) : List (Nat × Nat) := (src :: path).zip path

/-! ### Records (R368 to R370) -/

/-- A tile record (R369) with its offset in the image. -/
structure TileRec where
  off : Nat
  tile : Nat
  ttype : Nat
  op : Nat
  qa : Nat
  qb : Nat
  qc : Nat
  grain : Bool
  p0 : Nat
  p1 : Nat
  p2 : Nat
  p3 : Nat
  reservedBits : Bool
  deriving DecidableEq, Repr

/-- A route record (R370) with its offset: its destinations, and whether its count or a port is reserved. -/
structure RouteRec where
  off : Nat
  src : Nat
  port : Nat
  dests : List Dest
  bad : Bool
  deriving DecidableEq, Repr

/-- A weight record (R370) with its offset. -/
structure WeightRec where
  off : Nat
  tile : Nat
  weights : List Byte
  scales : List (BitVec 16)
  deriving DecidableEq, Repr

/-- A 32-bit word of an image. -/
def imgWord (img : List Byte) (off : Nat) : Nat := fieldLE img off 4

def imgTiles (img : List Byte) : Nat := bits (imgWord img 0x0C) 0 11
def imgRoutes (img : List Byte) : Nat := bits (imgWord img 0x10) 0 13
def imgWregs (img : List Byte) : Nat := bits (imgWord img 0x14) 0 9
def imgLength (img : List Byte) : Nat := imgWord img 0x18
def imgNextEn (img : List Byte) : Bool := bit (imgWord img 0x1C) 4
def imgNextSlot (img : List Byte) : Nat := bits (imgWord img 0x1C) 0 4

/-- The tile record at an offset. -/
def tileRec (img : List Byte) (off : Nat) : TileRec :=
  let w0 := imgWord img off
  let w1 := imgWord img (off + 4)
  { off := off, tile := bits w0 0 10, ttype := bits w0 10 3, op := bits w0 16 8, qa := bits w1 0 6, qb := bits w1 6 6,
    qc := bits w1 12 6, grain := bit w1 18, p0 := imgWord img (off + 8), p1 := imgWord img (off + 12),
    p2 := imgWord img (off + 16), p3 := imgWord img (off + 20),
    reservedBits := bits w0 13 3 != 0 || bits w0 24 8 != 0 || bits w1 19 13 != 0 || imgWord img (off + 24) != 0 ||
      imgWord img (off + 28) != 0 }

/-- The route record at an offset. -/
def routeRec (img : List Byte) (off : Nat) : RouteRec :=
  let w0 := imgWord img off
  let src := bits w0 0 10
  let port := bits w0 10 1
  let n := bits w0 11 3 + 1
  let ws := (List.range (min n 7)).map fun i => imgWord img (off + 4 + 4 * i)
  { off := off, src := src, port := port,
    dests := ws.map fun w => { src := src, port := port, tile := bits w 0 10, inPort := bits w 10 2,
                               way := if bit w 22 then bits w 12 10 else src },
    bad := n == 8 || ws.any fun w => bits w 10 2 == 3 }

/-- The weight record at an offset. -/
def weightRec (img : List Byte) (off : Nat) : WeightRec :=
  { off := off, tile := bits (imgWord img off) 0 10, weights := slice img (off + 16) 1024,
    scales := (List.range 128).map fun j => BitVec.ofNat 16 (fieldLE img (off + 0x410 + 2 * j) 2) }

def tileRecs (img : List Byte) : List TileRec := (List.range (imgTiles img)).map fun i => tileRec img (64 + 32 * i)

def routeRecs (img : List Byte) : List RouteRec :=
  (List.range (imgRoutes img)).map fun i => routeRec img (64 + 32 * imgTiles img + 32 * i)

def weightRecs (img : List Byte) : List WeightRec :=
  (List.range (imgWregs img)).map fun i => weightRec img (64 + 32 * imgTiles img + 32 * imgRoutes img + 1296 * i)

/-! ### What an operation reads and writes (R355 to R364) -/

/-- The operation codes of a type. -/
def opOfType (t op : Nat) : Bool :=
  1 ≤ op && op ≤ (match t with | 0 => 7 | 1 => 6 | 2 => 4 | 3 => 6 | 4 => 7 | _ => 0)

/-- The input ports of an operation: a 0, b 1, c 2. -/
def inPorts (t op : Nat) : List Nat :=
  match t, op with
  | 0, 1 => [0]
  | 0, 5 => [0, 1, 2]
  | 0, 7 => [0]
  | 0, _ => [0, 1]
  | 3, 1 => []
  | 4, 1 => [0, 2]
  | 4, 2 => [0, 1, 2]
  | 4, 3 => [0, 2]
  | 4, 4 => [0, 1]
  | 4, 5 => [0]
  | 4, 6 => [0]
  | 4, _ => [2]
  | _, _ => [0]

/-- The output ports of an operation. -/
def outPorts (t op : Nat) : List Nat :=
  match t, op with
  | 3, 1 => [0, 1]
  | 3, 3 => [0]
  | 3, _ => []
  | 4, 1 => [0, 1]
  | 4, 5 => [0, 1]
  | _, _ => [0]

/-- The depth of the queue of a port. -/
def TileRec.depth (r : TileRec) (port : Nat) : Nat := if port = 0 then r.qa else if port = 1 then r.qb else r.qc

/-- The queues obey R365: a used port has 1 to 63 entries, an unused one none, 64 in all. -/
def queuesOk (r : TileRec) : Bool :=
  ([0, 1, 2].all fun p => ((inPorts r.ttype r.op).contains p) == (r.depth p != 0)) && decide (r.qa + r.qb + r.qc ≤ 64)

/-- The parameters of an INGRESS tile (R395). -/
def ingressOk (r : TileRec) : Bool :=
  let o0 := bits r.p1 0 9
  let n0 := bits r.p1 9 7
  let o1 := bits r.p1 16 9
  let n1 := bits r.p1 25 7
  1 ≤ n0 && n0 ≤ 64 && o0 + 8 * n0 ≤ 512 && n1 ≤ 64 && o1 + 8 * n1 ≤ 512 && r.p2 != 0 && r.p2 < 16 && r.p3 == 0

/-- The parameters of an EGRESS tile (R399). -/
def egressOk (r : TileRec) : Bool :=
  let mem := bit r.p0 1
  bits r.p0 0 3 != 0 && !bit r.p0 3 && bits r.p0 4 7 ≤ 116 && 1 ≤ bits r.p0 11 6 && bits r.p0 11 6 ≤ (if mem then 6 else 60) &&
    bits r.p0 17 15 == 0 && bits r.p1 14 2 != 3 && bits r.p1 30 2 == 0 && r.p2 % 64 == 0 && bits r.p3 20 4 ≤ 12 &&
    bits r.p3 24 8 == 0

/-- The parameters of an operation are in range, unused ones 0 (R355 to R364, R369). -/
def paramsOk (r : TileRec) : Bool :=
  let none1 := r.p1 == 0 && r.p2 == 0 && r.p3 == 0
  let none0 := r.p0 == 0 && none1
  match r.ttype, r.op with
  | 0, 1 | 0, 2 =>
    let c := bits r.p0 8 8
    let j := bits r.p0 16 8
    bits r.p0 0 2 != 3 && bits r.p0 2 6 == 0 && bits r.p0 24 8 == 0 && 1 ≤ c && c ≤ 128 && 1 ≤ j && j ≤ 128 && c * j ≤ 128 && none1
  | 0, 7 => r.p0 ≤ 64 && none1
  | 0, _ => none0
  | 1, 1 => r.p0 < 16 && none1
  | 1, 2 => bits r.p0 4 2 != 3 && r.p0 < 128 && r.p1 < 2 ^ 16 && r.p2 == 0 && r.p3 == 0
  | 1, 3 => r.p0 < 3 && none1
  | 1, 4 => none0
  | 1, 5 => r.p2 == 0 && r.p3 == 0
  | 1, _ => none1
  | 2, 2 => r.p0 < 4096 && 1 ≤ r.p1 && r.p0 + r.p1 ≤ 4096 && r.p2 < 2 ^ 13 && r.p3 == 0
  | 2, _ => r.p0 < 4096 && 1 ≤ r.p1 && r.p0 + r.p1 ≤ 4096 && r.p2 == 0 && r.p3 == 0
  | 3, 1 => ingressOk r
  | 3, 2 => egressOk r
  | 3, 3 => r.p0 == 0 && r.p1 == 0 && r.p2 < 2 ^ 13 && r.p3 == 0
  | 3, 4 => r.p0 % 64 == 0 && r.p1 < 2 ^ 20 && r.p2 < 16 && r.p3 < 2 ^ 14
  | 3, 5 => r.p0 == 0 && r.p1 == 0 && r.p2 == 0 && r.p3 < 2 ^ 16
  | 3, _ => none0
  | 4, 1 | 4, 2 => none0
  | 4, 3 | 4, 5 => r.p0 < 2 ^ 24 && none1
  | 4, 4 => 1 ≤ r.p0 && r.p0 < 2 ^ 16 && 1 ≤ r.p1 && r.p1 < 2 ^ 16 && r.p2 == 0 && r.p3 == 0
  | 4, 6 => r.p0 < 2 ^ 17 && r.p1 < 2 ^ 24 && r.p2 == 0 && r.p3 == 0
  | 4, _ => r.p0 < 2 ^ 24 && r.p1 < 2 ^ 8 && r.p2 == 0 && r.p3 == 0
  | _, _ => false

/-! ### The loader's checks (R371) -/

/-- Reason 1: MAGIC, VERSION or LENGTH wrong, or a count beyond its range. LENGTH is the bytes of the image, all that is loaded. -/
def headerBad (img : List Byte) : Bool :=
  img.length < 64 || imgWord img 0 != 0x5A4F5631 || bits (imgWord img 4) 0 16 != 1 ||
  imgLength img != 64 + 32 * imgTiles img + 32 * imgRoutes img + 1296 * imgWregs img || 786432 < imgLength img ||
  imgLength img != img.length || imgTiles img == 0 || 1024 < imgTiles img || 4096 < imgRoutes img || 448 < imgWregs img

/-- Reason 2: the CRC over the image with its own field as 0. -/
def imageCrcBad (img : List Byte) : Bool :=
  (crc32c (img.take 0x3C ++ toLE 4 0 ++ img.drop 0x40)).toNat != imgWord img 0x3C

/-- Reason 3. -/
def tileRecBad (r : TileRec) : Bool :=
  r.ttype != columnType (r.tile % 32) || !opOfType r.ttype r.op || !paramsOk r || r.reservedBits || (r.grain && r.ttype != 4) ||
  !queuesOk r

/-- The routes: maximal runs of records with one SRC and PORT, in image order (R370). -/
def routeRuns : List RouteRec → List (List RouteRec)
  | [] => []
  | r :: rs =>
    match routeRuns rs with
    | [] => [[r]]
    | (q :: qs) :: more => if q.src = r.src ∧ q.port = r.port then (r :: q :: qs) :: more else [r] :: (q :: qs) :: more
    | [] :: more => [r] :: more

/-- The links that a record's paths cross. -/
def recLinks (r : RouteRec) : List (Nat × Nat) :=
  (r.dests.flatMap fun d => linksOf d.src (pathOf d.src d.way d.tile)).eraseDups

/-- The paths form a tree (R349): no path comes back to the source, and each tile has one tile before it. -/
def treeOk (src : Nat) (links : List (Nat × Nat)) : Bool :=
  (links.all fun l => l.2 != src) && links.all fun l => links.all fun m => l.2 != m.2 || l.1 == m.1

/-- The lanes in use after each record (R370): pairs of a route and a link; a fifth route on a link is refused. -/
def lanesBad : List RouteRec → List ((Nat × Nat) × (Nat × Nat)) → Option Nat
  | [], _ => none
  | r :: rs, used =>
    let new := (recLinks r).filter fun l => !used.contains ((r.src, r.port), l)
    if new.any fun l => 4 ≤ used.countP fun u => u.2 == l then some r.off
    else lanesBad rs (used ++ new.map fun l => ((r.src, r.port), l))

/-- Reason 5 at a tile record: a used input port that no route feeds, or a used output without a route. -/
def tileUnrouted (routes : List RouteRec) (r : TileRec) : Bool :=
  ((inPorts r.ttype r.op).any fun p => !routes.any fun q => q.dests.any fun d => d.tile == r.tile && d.inPort == p) ||
  (outPorts r.ttype r.op).any fun p => !routes.any fun q => q.src == r.tile && q.port == p

/-- Reason 5 at a route record by itself: an unconfigured tile, an unused port, a reserved field. -/
def routeNamesBad (tiles : List TileRec) (r : RouteRec) : Bool :=
  let has := fun (t p : Nat) (f : Nat → Nat → List Nat) =>
    match tiles.find? fun x => x.tile == t with
    | some x => (f x.ttype x.op).contains p
    | none => false
  r.bad || !has r.src r.port outPorts || r.dests.any fun d => !has d.tile d.inPort inPorts

/-- Input ports that earlier records feed: a port fed twice (R349), with the offset of the record that feeds it again. -/
def fedTwice : List RouteRec → List (Nat × Nat) → Option Nat
  | [], _ => none
  | r :: rs, fed =>
    let ps := r.dests.map fun d => (d.tile, d.inPort)
    if (ps.any fun p => fed.contains p) || ps.eraseDups.length != ps.length then some r.off else fedTwice rs (fed ++ ps)

/-- The first record of a route that makes it too long or no tree with the records before it. -/
def runBad (run : List RouteRec) : Option Nat :=
  (run.zipIdx.find? fun p =>
    let upTo := run.take (p.2 + 1)
    decide (5 ≤ p.2) || decide (32 < (upTo.flatMap (·.dests)).length) || !treeOk p.1.src (upTo.flatMap recLinks).eraseDups).map (·.1.off)

/-- A route whose records do not stand together, or that is too long, or no tree: the offset of the first such record. -/
def runsBad : List (List RouteRec) → List (Nat × Nat) → Option Nat
  | [], _ => none
  | [] :: rest, seen => runsBad rest seen
  | (r :: rs) :: rest, seen =>
    if seen.contains (r.src, r.port) then some r.off
    else match runBad (r :: rs) with
      | some off => some off
      | none => runsBad rest (seen ++ [(r.src, r.port)])

/-- The least of some offsets. -/
def leastOff : List (Option Nat) → Option Nat
  | [] => none
  | none :: r => leastOff r
  | some a :: r =>
    match leastOff r with
    | none => some a
    | some b => some (min a b)

/-- The offset of the first record that meets reason 5. -/
def routesBad (img : List Byte) : Option Nat :=
  let ts := tileRecs img
  let rs := routeRecs img
  leastOff [(ts.find? (tileUnrouted rs)).map (·.off), (rs.find? (routeNamesBad ts)).map (·.off), fedTwice rs [],
    runsBad (routeRuns rs) [], lanesBad rs []]

/-- A second record of one tile (reason 4). -/
def doubledTile : List TileRec → List Nat → Option Nat
  | [], _ => none
  | r :: rs, seen => if seen.contains r.tile then some r.off else doubledTile rs (seen ++ [r.tile])

/-- Reason 6: a weight record of no configured MUL tile, a DOT tile without one. -/
def weightsBad (img : List Byte) : Option Nat :=
  let ts := tileRecs img
  let ws := weightRecs img
  leastOff [(ts.find? fun t => t.ttype == 0 && t.op == 1 && !ws.any fun w => w.tile == t.tile).map (·.off),
    (ws.find? fun w => !ts.any fun t => t.tile == w.tile && t.ttype == 0).map (·.off)]

/-- Reason 7: the seventeenth INGRESS or EGRESS tile. -/
def ioBad (img : List Byte) : Option Nat :=
  let nth := fun op => (((tileRecs img).filter fun t => t.ttype == 3 && t.op == op).drop 16).head?.map (·.off)
  leastOff [nth 1, nth 2]

/-- The lowest reason of R371 that an image meets, with the offset of the first record that meets it. -/
def imageBad (img : List Byte) : Option (Nat × Nat) :=
  if headerBad img then some (1, 0)
  else if imageCrcBad img then some (2, 0)
  else match (tileRecs img).find? tileRecBad with
    | some r => some (3, r.off)
    | none =>
      match doubledTile (tileRecs img) [] with
      | some o => some (4, o)
      | none =>
        match routesBad img with
        | some o => some (5, o)
        | none =>
          match weightsBad img with
          | some o => some (6, o)
          | none => (ioBad img).map fun o => (7, o)

end Sys2Proof.Machine
end

