-- ==== Sys2Proof/Machine/OvsFab.lean ====
section
/-! DEFINITION. An Ouvvos fabric as a whole: its events, how tokens travel between firings, when nothing can move, switches and
reopening (12, R347 to R354, R376, R377, R389). The model has no fabric clock: a command is one firing, and between commands every
token travels as far as the buffers let it (log entry 23). -/

namespace Sys2Proof.Machine

open Sys2Proof

/-- The page of a fabric, and its path page (R389, R411). -/
def ovsPage (f : Nat) : Nat := pageOf 18 f
def pathPage (f : Nat) : Nat := pageOf 18 (4 + f)

def cOvsCfgBusy : Nat := 0x9001
def cOvsImageBad : Nat := 0x9002
def cOvsSlotEmpty : Nat := 0x9003
def cOvsSlotActive : Nat := 0x9004
def cOvsImbalance : Nat := 0x9005
def cOvsResidue : Nat := 0x9006
def cOvsHarvestTmo : Nat := 0x9007
def cOvsTileFault : Nat := 0x9008
def cOvsStall : Nat := 0x9009
def cOvsForced : Nat := 0x900A
def cOvsAsleep : Nat := 0x900B

/-- A tile of a fabric. -/
def Fabric.tile (x : Fabric) (t : Nat) : Tile := tget {} x.tiles t
def Fabric.setTile (x : Fabric) (t : Nat) (v : Tile) : Fabric := { x with tiles := tset {} x.tiles t v }

/-- A token made now (R347). -/
def Fabric.tok (x : Fabric) (payload : Nat) (ctrl last : Bool) : Token :=
  { payload := BitVec.ofNat 64 payload, epoch := x.epoch, ctrl := ctrl, last := last }

/-- Post an event of a fabric (R389): 256 deep, an overflow is counted; the event bit is set whatever happens to the entry. -/
def ovsEvent (s : State) (f code info : Nat) : State :=
  let x := s.fabric f
  let s1 := if x.evq.length < 256
    then s.setFabric f { x with evq := x.evq ++ [{ ctx := x.ctx.getD 0, code := code, info := BitVec.ofNat 32 info }] }
    else bump s (ovsPage f) 12 1
  evt s1 (ovsPage f) (code - 1)

/-! ### Queues of a tile -/

/-- The queue of an input port: a 0, b 1, c 2. -/
def Tile.inq (t : Tile) (p : Nat) : List Token := if p = 0 then t.a else if p = 1 then t.b else t.c
def Tile.setInq (t : Tile) (p : Nat) (l : List Token) : Tile :=
  if p = 0 then { t with a := l } else if p = 1 then { t with b := l } else { t with c := l }
def Tile.depth (t : Tile) (p : Nat) : Nat := if p = 0 then t.qa else if p = 1 then t.qb else t.qc
def Tile.out (t : Tile) (p : Nat) : List Token := if p = 0 then t.out0 else t.out1
def Tile.setOut (t : Tile) (p : Nat) (l : List Token) : Tile := if p = 0 then { t with out0 := l } else { t with out1 := l }
def Tile.spill (t : Tile) (p : Nat) : List Token := if p = 0 then t.spill0 else t.spill1
def Tile.setSpill (t : Tile) (p : Nat) (l : List Token) : Tile :=
  if p = 0 then { t with spill0 := l } else { t with spill1 := l }

/-- The output buffer of a port, of 2 tokens, has room for a result (R350, R351): nothing waits before it. -/
def Tile.room (t : Tile) (p : Nat) : Bool := (t.spill p).isEmpty && decide ((t.out p).length < 2)

/-- Results leave the operation for their output buffer in order, as it has room (R351). -/
def Tile.fill (t : Tile) (p : Nat) : Tile :=
  let k := 2 - (t.out p).length
  (t.setOut p (t.out p ++ (t.spill p).take k)).setSpill p ((t.spill p).drop k)

/-- Results of a port, in order. -/
def Tile.emit (t : Tile) (p : Nat) (l : List Token) : Tile := (t.setSpill p (t.spill p ++ l)).fill p

/-! ### Travelling tokens (R348 to R351) -/

/-- The key of the skid buffer of a route at a tile. -/
def skidKey (src port t : Nat) : Nat := (src * 2 + port) * 1024 + t

/-- The destinations of the route of an output port. -/
def routeDests (x : Fabric) (src port : Nat) : List Dest := x.dests.filter fun d => d.src == src && d.port == port

/-- Where the tree of a route goes from a tile: the tiles after it, and the destinations at it. -/
def routeNext (ds : List Dest) (t : Nat) : List Nat :=
  ((ds.flatMap fun d => linksOf d.src (pathOf d.src d.way d.tile)).filterMap fun l => if l.1 = t then some l.2 else none).eraseDups

/-- A token of a route can leave a tile: each next skid buffer and each input queue there has room (R348, R349). -/
def canLeave (x : Fabric) (src port t : Nat) : Bool :=
  let ds := routeDests x src port
  (routeNext ds t).all (fun u => decide ((tget [] x.skids (skidKey src port u)).length < 2)) &&
  (ds.filter (·.tile == t)).all fun d => decide (((x.tile t).inq d.inPort).length < (x.tile t).depth d.inPort)

/-- A token leaves a tile on every branch of its route. -/
def leave (x : Fabric) (src port t : Nat) (k : Token) : Fabric :=
  let ds := routeDests x src port
  let x1 := (routeNext ds t).foldl (fun x u =>
    ({ x with skids := tset [] x.skids (skidKey src port u) (tget [] x.skids (skidKey src port u) ++ [k]) } : Fabric)) x
  (ds.filter (·.tile == t)).foldl (fun x d => x.setTile t ((x.tile t).setInq d.inPort ((x.tile t).inq d.inPort ++ [k]))) x1

/-- One move out of a tile's output buffer. -/
def moveOut (x : Fabric) (t port : Nat) : Fabric :=
  let tl := (x.tile t).fill port
  match tl.out port with
  | [] => x.setTile t tl
  | k :: r =>
    if canLeave (x.setTile t tl) t port t then leave (x.setTile t ((tl.setOut port r).fill port)) t port t k else x.setTile t tl

/-- One move out of a skid buffer. -/
def moveSkid (x : Fabric) (key : Nat) : Fabric :=
  match tget [] x.skids key with
  | [] => x
  | k :: r =>
    let src := key / 2048
    let port := key / 1024 % 2
    let t := key % 1024
    if canLeave x src port t then leave { x with skids := tset [] x.skids key r } src port t k else x

/-- One move everywhere. -/
def moveAll (x : Fabric) : Fabric :=
  let x1 := (x.skids.map (·.1)).foldl moveSkid x
  (x1.tiles.map (·.1)).foldl (fun x t => moveOut (moveOut x t 0) t 1) x1

/-- Tokens travel until none can move. -/
def flow : Nat → Fabric → Fabric
  | 0, x => x
  | n + 1, x => let y := moveAll x; if y = x then x else flow n y

/-- No token can move between tiles. -/
def still (x : Fabric) : Bool := moveAll x == x

/-! ### Firing (R351, R354) -/

/-- What one firing does: the tile after it, its results, the words of the MEM tile it writes, the counters of R390 that count, the
fault it ends in (0 none), how many free values it draws, and whether the operation fires at all (R353, R390): a control token that is
discarded or passes on is no firing. -/
structure Fire where
  tile : Tile
  fires : Bool := true
  out0 : List Token := []
  out1 : List Token := []
  mem : List (Nat × Dword) := []
  cnts : List (Nat × Nat) := []
  fault : Nat := 0
  draws : Nat := 0

/-- The reasons of a tile fault (R389). -/
def fCtrlBad : Nat := 1
def fGroupLen : Nat := 2
def fIoAccess : Nat := 3
def fSignalRefused : Nat := 4

/-- The tile can fire an operation: it is configured for it and not faulted, and the fabric's tiles are clocked (R351, R386). -/
def armed (s : State) (f t ttype op : Nat) : Bool :=
  let x := s.fabric f
  let tl := x.tile t
  f < 4 && x.pstate == 0 && tl.conf && tl.ttype == ttype && tl.op == op && !tl.fault

/-- Let the tokens of a fabric travel (R348 to R351). -/
def settleFabric (s : State) (f : Nat) : State := s.setFabric f (flow 65536 (s.fabric f))

/-- A tile faults (R354, R389): it fires no more, and TILE_FAULT is posted. -/
def tileFault (s : State) (f t reason : Nat) : State :=
  let x := s.fabric f
  let tl := x.tile t
  let info := t + tl.op * 2 ^ 10 + reason * 2 ^ 18
  ovsEvent (pageErrOpen (s.setFabric f (x.setTile t { tl with fault := true })) (ovsPage f) cOvsTileFault) f 1 info

/-- Carry out a firing: results, counters, faults; then the tokens travel. -/
def applyFire (s : State) (f t : Nat) (r : Fire) : State :=
  let x := s.fabric f
  let tl := (r.tile.emit 0 r.out0).emit 1 r.out1
  let x1 := { x.setTile t tl with mems := r.mem.foldl (fun m w => tset 0 m (t * 4096 + w.1) w.2) x.mems }
  let s1 := bump (s.setFabric f x1) (ovsPage f) 0 (b2n r.fires)
  let s0 : State := { s1 with free := s1.free + r.draws }
  let s2 := r.cnts.foldl (fun s c => bump s (ovsPage f) c.1 c.2) s0
  settleFabric (if r.fault = 0 then s2 else tileFault s2 f t r.fault) f

/-- A firing of tile `t` for an operation, if it is due. -/
def fireOp (ttype op : Nat) (due : Fabric → Nat → Tile → Nat → Option Fire) (f t : Nat) (s : State) : Out :=
  .next (
    if armed s f t ttype op then
      match due (s.fabric f) t ((s.fabric f).tile t) s.free with
      | some r => applyFire s f t r
      | none => s
    else s)

/-- The first token of a queue. -/
def headOf (l : List Token) : Option Token := l.head?

/-- Discard the control tokens at the head of ports b and c of a MUL tile (R353): how many went. -/
def dropCtrl (l : List Token) : List Token := l.dropWhile (·.ctrl)

/-- A MUL, SFN or MEM tile (R353): control tokens at the head of b and c are discarded and counted; one at the head of a goes to
output 0 in its turn; otherwise the operation fires. -/
def fireData (due : Fabric → Nat → Tile → Nat → Option Fire) (x : Fabric) (t : Nat) (tl : Tile) (free : Nat) : Option Fire :=
  let b := dropCtrl tl.b
  let c := dropCtrl tl.c
  let n := tl.b.length - b.length + (tl.c.length - c.length)
  let tl1 := { tl with b := b, c := c }
  let drop := if n = 0 then [] else [(5, n)]
  let r := match headOf tl1.a with
    | some k =>
      if k.ctrl then (if tl1.room 0 then some ({ tile := { tl1 with a := tl1.a.drop 1 }, out0 := [k], fires := false } : Fire) else none)
      else due x t tl1 free
    | none => due x t tl1 free
  match r with
  | some r => some ({ r with cnts := drop ++ r.cnts } : Fire)
  | none => if n = 0 then none else some ({ tile := tl1, cnts := drop, fires := false } : Fire)

/-! ### Switches (R376) -/

/-- The fabric is harvested (R375): since its last harvest no token has entered, or no slot has been made active since assignment. -/
def Fabric.isHarvested (x : Fabric) : Bool := x.harvested || x.active.isNone

/-- The slot of a fabric that holds an image. -/
def Fabric.image (x : Fabric) (k : Nat) : Option (List Byte) := tfind x.images k

/-- The tile that a record configures (R369), with its weight record. -/
def configTile (ws : List WeightRec) (r : TileRec) : Tile :=
  let w := ws.find? fun w => w.tile == r.tile
  { conf := true, ttype := r.ttype, op := r.op, qa := r.qa, qb := r.qb, qc := r.qc, grain := r.grain,
    p0 := BitVec.ofNat 32 r.p0, p1 := BitVec.ofNat 32 r.p1, p2 := BitVec.ofNat 32 r.p2, p3 := BitVec.ofNat 32 r.p3,
    weights := match w with | some w => w.weights | none => [],
    scales := match w with | some w => w.scales | none => [],
    bucket := if r.ttype = 4 ∧ r.op = 6 then bits r.p0 0 16 else 0 }

/-- Every tile is configured from an image, every queue empty, every fault cleared, ingress open, the epoch advanced (R376). MEM
contents stay. -/
def switchFabric (x : Fabric) (slot : Nat) (img : List Byte) : Fabric :=
  let ws := weightRecs img
  { x with active := some slot, epoch := x.epoch + 1, ingress := true, stalled := false, staleSeen := false,
           tiles := (tileRecs img).foldl (fun t r => tput t r.tile (configTile ws r)) [],
           dests := (routeRecs img).flatMap (·.dests), skids := [] }

/-- Switch fabric `f` to a loaded slot. -/
def doSwitch (s : State) (f slot : Nat) : State :=
  match (s.fabric f).image slot with
  | some img => s.setFabric f (switchFabric (s.fabric f) slot img)
  | none => s

/-- The counts, buckets, phases and open groups of a tile return to their start, and its queues, buffers and stores of tokens empty
(R364, R377). -/
def clearTile (t : Tile) : Tile :=
  { t with a := [], b := [], c := [], out0 := [], out1 := [], spill0 := [], spill1 := [], accs := [], pos := 0, group := [],
           groupOpen := false, count := 0, zipA := 0, wptr := 0, rep := 0, fifo := [], sel := none, mark := none, deliver := [],
           bucket := if t.ttype = 4 ∧ t.op = 6 then bits t.p0.toNat 0 16 else 0 }

end Sys2Proof.Machine
end

