-- ==== Sys2Proof/Machine/PanTile.lean ====
section
/-! DEFINITION. One run of a tile of a pan: reading, rotation, diversion, quantisation, accumulation, and the output (04). -/

namespace Sys2Proof.Machine

open Sys2Proof

/-! ### Sources -/

/-- The seed of a context (R96). -/
def ctxSeed (s : State) (n : Nat) : Dword := (s.ctx n).seed.getD 0

/-- Where a tile's share of an operand lies: base, the K extent of its layout, and the first step in it (R118). -/
def sharePos (d : PanDesc) (tile : Nat) (isB : Bool) : Nat × Nat × Nat :=
  let (k0, len) := d.tileAt tile
  if isB then
    if d.bStream then (d.bBase + tile % d.bSlots * slotBytes d.bFmt true d.bT d.n d.kseg, len, 0) else (d.bBase, d.k, k0)
  else
    if d.aStream then (d.aBase + tile % d.aSlots * slotBytes d.aFmt false d.aT d.srcRows d.kseg, len, 0) else (d.aBase, d.k, k0)

/-- The stored row of block row `m` of A (R134); none for a row of zeros (R135). -/
def rowOf (d : PanDesc) (gidx : List Nat) (m : Nat) : Option Nat :=
  if d.gathers then
    let i := gidx.getD m 0xFFFF
    if i < d.rows then some i else none
  else some m

/-- A 16-bit source element widened to FP32. -/
def readSrc (rd : Nat → Byte) (f : Fmt) (addr : Nat) : Word :=
  toF32 (decodeFmt f ((rd addr).toNat + 256 * (rd (addr + 1)).toNat))

/-- The tile's row `r` of a 16-bit operand, in ascending k, before rotation. -/
def srcRow (rd : Nat → Byte) (f : Fmt) (isB t : Bool) (rows : Nat) (pos : Nat × Nat × Nat) (len : Nat) : Option Nat → List Word
  | none => List.replicate len 0
  | some r => (List.range len).map fun j =>
      let k := pos.2.2 + j
      readSrc rd f (pos.1 + 2 * if isB != t then k * rows + r else r * pos.2.1 + k)

/-! ### Rotation (R121) -/

/-- One butterfly stage of span `h` over a group. -/
def butterfly (h : Nat) (xs : List Word) : List Word :=
  xs.zipIdx.map fun p =>
    if p.2 / h % 2 = 0 then fadd p.1 (xs.getD (p.2 + h) 0) else fadd (xs.getD (p.2 - h) 0) (p.1 ^^^ 0x80000000)

/-- The stages of spans 1, 2, 4, …, in the order that R195 gives for both units. -/
def hadamard : Nat → Nat → List Word → List Word
  | 0, _, xs => xs
  | n + 1, h, xs => hadamard n (2 * h) (butterfly h xs)

/-- The elements of a list in groups of `n`. -/
def chunks {α : Type} (n : Nat) : Nat → List α → List (List α)
  | 0, _ => []
  | f + 1, l => if l.isEmpty then [] else l.take n :: chunks n f (l.drop n)

/-- log2 of the rotation size. -/
def rotLog (rot : Nat) : Nat := if rot = 0 then 0 else rot + 4

/-- The sign d_k is −1 (R121). -/
def rotNeg (seed : Dword) (tid step : Word) (k : Nat) : Bool := bit (srBits seed tid step k) 15

/-- Negate an FP32 word unless it is NaN. -/
def fneg (w : Word) : Word := toF32 (f32 w).neg

/-- Rotate a row whose first element is step `k0`. -/
def rotateRow (rot : Nat) (seed : Dword) (tid step : Word) (k0 : Nat) (xs : List Word) : List Word :=
  if rot = 0 then xs
  else
    let signed_ := xs.zipIdx.map fun p => if rotNeg seed tid step (k0 + p.2) then fneg p.1 else p.1
    ((chunks (2 ^ rotLog rot) (xs.length + 1) signed_).map (hadamard (rotLog rot) 1)).flatten

/-! ### Strips: 32 steps of one row as the array uses them -/

/-- 32 steps of one row of an operand: a flake of codes, or wide FP32 elements (R110). -/
inductive Strip where
  | flake (f : Fmt) (codes : List Nat) (s8 : Option Nat) (c : BitVec 16)
  | wide (ws : List Word)
  deriving DecidableEq, Repr

/-- The elements of a strip widened to FP32 (R92, R110). -/
def stripWords : Strip → List Word
  | .wide ws => ws
  | .flake f codes s8 c => codes.map fun e => toF32 (elemVal f e s8 c)

/-- A flake is NaN, or its crust is infinite or NaN (R109). -/
def stripNan (s8 : Option Nat) (c : BitVec 16) : Bool := (match s8 with | some s => s / 8 == 31 | none => false) || crustNonfin c

/-- A zero flake or zero crust (R109). -/
def stripZero (s8 : Option Nat) (c : BitVec 16) : Bool := (match s8 with | some s => s / 8 == 0 | none => false) || crustZero c

/-- The scale of a flake: S × |C|, with S 1 in CRUST_ONLY form (R80). -/
def stripScale (s8 : Option Nat) (c : BitVec 16) : Val :=
  match s8 with
  | some s => (s8Val s).mul (crustAbs c)
  | none => crustAbs c

/-- The exact sum of the products of two lists of codes (R108). -/
def dotCodes (f g : Fmt) : List Nat → List Nat → Val
  | x :: xs, y :: ys => ((decodeFmt f x).mul (decodeFmt g y)).add (dotCodes f g xs ys)
  | _, _ => .zero

/-- The term of a flake pair (R109). -/
def flakeTerm (f g : Fmt) (xs ys : List Nat) (sa sb : Option Nat) (ca cb : BitVec 16) : Word :=
  if stripNan sa ca || stripNan sb cb then 0x7FC00000
  else if stripZero sa ca || stripZero sb cb then 0
  else
    let sum := dotCodes f g xs ys
    if sum.isZero then 0 else toF32 ((sum.mul (stripScale sa ca)).mul (stripScale sb cb))

/-- Add the products of two wide rows, each rounded once (R110). -/
def addWide (acc : Word) : List Word → List Word → Word
  | x :: xs, y :: ys => addWide (fadd acc (fmul x y)) xs ys
  | _, _ => acc

/-- Add the terms of two strips of one cell (R109, R110). -/
def addStrip (acc : Word) (a b : Strip) : Word :=
  match a, b with
  | .flake f xs sa ca, .flake g ys sb cb => fadd acc (flakeTerm f g xs ys sa sb ca cb)
  | _, _ => addWide acc (stripWords a) (stripWords b)

/-- Add the terms of a row of A and a column of B in ascending k (R111). -/
def addRow (acc : Word) : List Strip → List Strip → Word
  | a :: as, b :: bs => addRow (addStrip acc a b) as bs
  | _, _ => acc

/-- Accumulate a tile over the block: element (m, n) stands at m × N + n. -/
def accumulate (acc : List Word) (a b : List (List Strip)) : List Word :=
  let n := b.length
  acc.zipIdx.map fun p => addRow p.1 (a.getD (p.2 / n) []) (b.getD (p.2 % n) [])

/-- A pre-quantised strip read from the slice. -/
def readStrip (rd : Nat → Byte) (p : Planes) (isB t : Bool) (r k : Nat) : Strip :=
  let at_ := fun j => if isB != t then (k + j, r) else (r, k + j)
  let ca := crustAt p (at_ 0).1 (at_ 0).2
  let c : BitVec 16 := BitVec.ofNat 16 ((rd ca).toNat + 256 * (rd (ca + 1)).toNat)
  let s8 := if p.flaked then some (rd (flakeAt p (at_ 0).1 (at_ 0).2)).toNat else none
  let codes := (List.range 32).map fun j => readElem rd p (at_ j).1 (at_ j).2
  if p.fmt = fF8W then .wide (codes.map fun e => toF32 (elemVal p.fmt e s8 c)) else .flake p.fmt codes s8 c

/-! ### Quantising a tile of an operand (R120, R123, R150) -/

/-- An element of a tile on its way into the quantiser: FP32 value, random bits, and whether it is diverted. -/
structure QElem where
  w : Word
  r : Nat
  div : Bool
  deriving DecidableEq, Repr

/-- What the quantisation of one flake gives: the strip, its counts, and its largest magnitude when it is finite. -/
structure QOut where
  strip : Strip
  q : QFlake
  amax : Val
  counted : Bool
  /-- An element was clamped to the largest finite value (R86, R89). -/
  clamp : Bool := false
  deriving DecidableEq, Repr

/-- Quantise one flake of 32 elements against crust scale `c`; a diverted element has code 0 and does not count for A (R123). -/
def quantStrip (f : Fmt) (mode : Rnd) (c : BitVec 16) (xs : List QElem) : QOut :=
  let keep := (xs.filter fun x => !x.div).map fun x => f32 x.w
  let q := quantFlake f mode c keep (xs.map fun x => (if x.div then .zero else f32 x.w, x.r))
  { strip := .flake f q.codes (some q.s8) c, q := q, amax := if q.nonfin then .zero else maxAbs keep,
    counted := !q.nonfin && xs.any fun x => !(f32 x.w).isZero }

/-- Every code of a flake is ±0 (R150). -/
def codesZero (f : Fmt) (codes : List Nat) : Bool := codes.all fun c => c % 2 ^ (f.eb + f.mb) == 0

/-- The larger of two magnitudes. -/
def valMax (x y : Val) : Val := if x.lt y then y else x

/-- Add one flake to the counts of a run (R150). -/
def obsAdd (f : Fmt) (o : TileObs) (q : QOut) : TileObs :=
  let silent := q.counted && codesZero f q.q.codes
  { amax := if (f32 o.amax).lt q.amax then toF32 q.amax else o.amax, n := o.n + b2n q.counted, z := o.z + b2n silent,
    sat := o.sat + b2n q.q.sat, nonfin := o.nonfin + b2n q.q.nonfin }

/-- The crust scale of crust `i` in a run: the corrected one where there is one (R128). -/
def crustScale (c : BitVec 16) (fixes : List SatCrust) (i : Nat) : BitVec 16 :=
  match fixes.find? fun x => x.crust == i with
  | some x => x.scale.getD c
  | none => c

/-- Quantise the rows of a tile: for each row, one result per flake. Crust (r / 128, j / 4) has index r / 128 × 16 + j / 4. -/
def quantRows (f : Fmt) (mode : Rnd) (c : BitVec 16) (fixes : List SatCrust) (rows : List (List QElem)) : List (List QOut) :=
  rows.zipIdx.map fun p => (chunks 32 (p.1.length + 1) p.1).zipIdx.map fun x =>
    quantStrip f mode (crustScale c fixes (p.2 / 128 * 16 + x.2 / 4)) x.1

/-- The counts of a run. -/
def runObs (f : Fmt) (q : List (List QOut)) : TileObs := q.flatten.foldl (obsAdd f) {}

/-- The crusts of a run whose flakes saturate, with the largest magnitude of each (R128). -/
def satCrusts (operand : Nat) (q : List (List QOut)) : List SatCrust :=
  let cells := q.zipIdx.flatMap fun p => p.1.zipIdx.map fun x => (p.2 / 128 * 16 + x.2 / 4, x.1)
  let ids := ((cells.filter fun x => x.2.q.sat).map (·.1)).eraseDups
  ids.map fun i =>
    { operand := operand, crust := i,
      amax := toF32 ((cells.filter fun x => x.1 == i).foldl (fun m x => valMax m x.2.amax) .zero) }

/-- The scanned amax of a cold pass (R154): finite flakes, after rotation and diversion. -/
def coldAmax (rows : List (List QElem)) : Val :=
  rows.foldl (fun m r => (chunks 32 (r.length + 1) r).foldl (fun m fl =>
    if fl.any (fun x => !(f32 x.w).isFin) then m
    else fl.foldl (fun m x => if x.div then m else valMax m (f32 x.w).abs) m) m) .zero

/-! ### An operand of a tile -/

/-- A tile's rows of a 16-bit operand after rotation (empty for a pre-quantised one). -/
def tileRows (s : State) (op : Op) (d : PanDesc) (p : Pan) (isB : Bool) : List (List Word) :=
  let b := engBay op.engine
  let rd := fun o => rdByte s.mem (bayAddr b o)
  let c := if isB then d.bFmt else d.aFmt
  match srcFmt c with
  | none => []
  | some f =>
    let pos := sharePos d p.tile isB
    let (k0, len) := d.tileAt p.tile
    let rows := if isB then d.n else d.srcRows
    (List.range (if isB then d.n else d.m)).map fun r =>
      let src := if isB then some r else rowOf d p.gidx r
      rotateRow d.rot (ctxSeed s op.ctx) d.rotTid d.step k0 (srcRow rd f isB (if isB then d.bT else d.aT) rows pos len src)

/-- The elements of a tile as the quantiser takes them: random bits of R120 and diversion of R123. -/
def quantElems (s : State) (op : Op) (d : PanDesc) (p : Pan) (isB divert : Bool) (rows : List (List Word)) : List (List QElem) :=
  let k0 := (d.tileAt p.tile).1
  let seed := ctxSeed s op.ctx
  let mode := rndOf (if isB then d.bRnd else d.aRnd)
  let thr := decodeFmt fBF16 d.outThr
  rows.zipIdx.map fun row => row.1.zipIdx.map fun x =>
    let k := k0 + x.2
    let idx := if isB then d.blk * d.k * 256 + k * 256 + row.2 else d.blk * 256 * d.k + row.2 * d.k + k
    { w := x.1, r := if mode = .sr then srBits seed (if isB then d.bTid else d.aTid) d.step idx else 0,
      div := divert && (f32 x.1).isFin && thr.lt (f32 x.1).abs }

/-- The strips of a pre-quantised operand of a tile. -/
def storedStrips (s : State) (op : Op) (d : PanDesc) (p : Pan) (isB : Bool) : List (List Strip) :=
  let b := engBay op.engine
  let rd := fun o => rdByte s.mem (bayAddr b o)
  let c := if isB then d.bFmt else d.aFmt
  let t := if isB then d.bT else d.aT
  let (base, k, k0) := sharePos d p.tile isB
  let pl := operandPlanes (quantFmt c).1 (quantFmt c).2 isB t (if isB then d.n else d.srcRows) k base
  let len := (d.tileAt p.tile).2
  (List.range (if isB then d.n else d.m)).map fun r =>
    match (if isB then some r else rowOf d p.gidx r) with
    | some src => (List.range (len / 32)).map fun j => readStrip rd pl isB t src (k0 + j * 32)
    | none => List.replicate (len / 32) (.flake fF4 (List.replicate 32 0) (some 0) 0)

/-- Wide rows as strips. -/
def wideStrips (rows : List (List Word)) : List (List Strip) := rows.map fun r => (chunks 32 (r.length + 1) r).map .wide

/-- The outliers of a tile of A in ascending k (R123, R124). -/
def outliersOf (rows : List (List QElem)) : List Outlier :=
  rows.zipIdx.flatMap fun p => p.1.zipIdx.filterMap fun x =>
    if x.1.div then some { row := p.2, k := x.2, x := x.1.w } else none

/-- B of a tile widened to FP32, element (k, n) at k × N + n (R125). -/
def widenB (b : List (List Strip)) : List Word :=
  let cols := b.map fun c => (c.map stripWords).flatten
  let len := (cols.headD []).length
  (List.range len).flatMap fun k => cols.map fun c => c.getD k 0

/-! ### Writing a quantised tensor -/

/-- Write a byte of a bay's slice. -/
def putSlice (s : State) (b off : Nat) (v : Nat) : State := s.setRaw (bayAddr b off) [BitVec.ofNat 8 v]

/-- Write one flake at its place: element codes, flake scale, crust scale. -/
def putFlake (s : State) (b : Nat) (p : Planes) (at_ : Nat → Nat × Nat) (codes : List Nat) (s8 : Nat) (c : BitVec 16) : State :=
  let s1 := codes.zipIdx.foldl (fun s x =>
    let (a, hi) := elemAt p (at_ x.2).1 (at_ x.2).2
    if isF4 p.fmt then
      let old := (rdByte s.mem (bayAddr b a)).toNat
      putSlice s b a (if hi then old % 16 + x.1 % 16 * 16 else old / 16 * 16 + x.1 % 16)
    else putSlice s b a x.1) s
  let s2 := if p.flaked then putSlice s1 b (flakeAt p (at_ 0).1 (at_ 0).2) s8 else s1
  let ca := crustAt p (at_ 0).1 (at_ 0).2
  putSlice (putSlice s2 b ca (c.toNat % 256)) b (ca + 1) (c.toNat / 256)

/-- A row of padding: codes 0, flake scale 0x00 (R83), the crust scales of the row above. -/
def padRow (row : List QOut) : List QOut :=
  row.map fun x => match x.strip with
    | .flake f codes _ c => { x with strip := .flake f (codes.map fun _ => 0) (some 0) c }
    | .wide _ => x

/-- Write the F8 share of a tile into its half of the shadow area, with its padding (R83, R116, R130). -/
def putShadow (s : State) (op : Op) (d : PanDesc) (p : Pan) (isB : Bool) (q : List (List QOut)) : State :=
  let base := d.shadow + p.tile % 2 * shadowHalf d
  let pl := shadowPlanes d isB base (d.tileAt p.tile).2
  let t := if isB then d.bT else d.aT
  let all := q ++ List.replicate (pad128 q.length - q.length) (padRow (q.headD []))
  all.zipIdx.foldl (fun s row => row.1.zipIdx.foldl (fun s x =>
    let at_ := fun j => if isB != t then (x.2 * 32 + j, row.2) else (row.2, x.2 * 32 + j)
    match x.1.strip with
    | .flake _ codes s8 c => putFlake s (engBay op.engine) pl at_ codes (s8.getD 0) c
    | .wide _ => s) s) s

/-! ### One run of a tile -/

/-- One operand of a tile as it is used: strips, its scale with a cold pass done, counts, saturated crusts, outliers, flags. -/
structure Used where
  strips : List (List Strip)
  scale : OpScale := {}
  eff : Nat := 3
  obs : TileObs := {}
  sat : List SatCrust := []
  outliers : List Outlier := []
  nonfin : Bool := false
  elems : List (List QElem) := []
  deriving DecidableEq, Repr

/-- The operand quantised in an effective format with a diversion and corrected scales; a cold pass chooses its scale (R154). -/
def quantOperand (s : State) (op : Op) (d : PanDesc) (p : Pan) (isB divert : Bool) (eff : Nat) (sc : OpScale)
    (fixes : List SatCrust) (rows : List (List Word)) : Used :=
  let es := quantElems s op d p isB divert rows
  let c := if sc.cold then coldScale (effFmt sc.eff) (coldAmax es) else sc.c
  let q := quantRows (effFmt eff) (rndOf (if isB then d.bRnd else d.aRnd)) c fixes es
  { strips := q.map fun r => r.map (·.strip), scale := { sc with c := c }, eff := eff, obs := runObs (effFmt eff) q,
    sat := satCrusts (if isB then 1 else 0) q, outliers := outliersOf es,
    nonfin := rows.any fun r => r.any fun w => !(f32 w).isFin, elems := es }

/-- The operand of a tile in its first run (R114, R120, R157). -/
def useOperand (s : State) (op : Op) (d : PanDesc) (p : Pan) (isB : Bool) : Used :=
  let c := if isB then d.bFmt else d.aFmt
  let sc := if isB then p.b.scale else p.a.scale
  match srcFmt c with
  | none => { strips := storedStrips s op d p isB }
  | some _ =>
    let rows := tileRows s op d p isB
    if (loadFmt c).isNone ∨ sc.eff = 3 then
      { strips := wideStrips rows, scale := sc, nonfin := rows.any fun r => r.any fun w => !(f32 w).isFin }
    else quantOperand s op d p isB (!isB && d.outEn) sc.eff sc [] rows

/-- The shadow of an operand: F8 FLAKED, the same crust scales, RNE, no diversion (R130). -/
def shadowOf (d : PanDesc) (isB : Bool) (u : Used) : Used × List (List QOut) :=
  let es := u.elems.map fun r => r.map fun x => { x with div := false }
  let q := quantRows fF8 .rne u.scale.c [] es
  ({ u with strips := q.map fun r => r.map (·.strip), eff := 1, obs := runObs fF8 q,
            sat := satCrusts (if isB then 1 else 0) q, outliers := [] }, if d.evict then q else [])

/-- The effective format of A in a replay after a capacity miss (R127). -/
def rerunEff (d : PanDesc) (eff : Nat) : Nat := if d.fallback = 0 then 1 else if d.fallback = 1 then 3 else eff

/-- The crusts of A that a replay after a capacity miss needs corrected scales for (R127). -/
def capMissCrusts (s : State) (op : Op) (d : PanDesc) (p : Pan) (u : Used) : List SatCrust :=
  let eff := rerunEff d u.eff
  if eff = 3 then []
  else (quantOperand s op d p false false eff { u.scale with cold := false } [] (u.elems.map fun r => r.map (·.w))).sat

/-- Operand of a replay (R126, R127): pre-quantised and wide ones as before, a quantised one with its corrected scales. -/
def reuseOperand (s : State) (op : Op) (d : PanDesc) (p : Pan) (isB : Bool) : Used :=
  let c := if isB then d.bFmt else d.aFmt
  let o := if isB then p.b else p.a
  let miss := !isB && p.capMiss
  match srcFmt c with
  | none => { strips := storedStrips s op d p isB }
  | some _ =>
    let rows := tileRows s op d p isB
    let eff := if miss then rerunEff d o.eff else o.eff
    if (loadFmt c).isNone ∨ eff = 3 then
      { strips := wideStrips rows, scale := o.scale, nonfin := rows.any fun r => r.any fun w => !(f32 w).isFin }
    else quantOperand s op d p isB (!isB && d.outEn && !p.capMiss) eff { o.scale with cold := false } o.sat rows

/-! ### Output (R111, R115, R131) -/

/-- 2^−r of step 3 of R111. -/
def rotScale (rot : Nat) : Word := toF32 (Val.pow2 (-(rotLog rot : Int)))

/-- The final value of element (m, n) (R111 steps 2 to 4). -/
def finalAcc (s : State) (op : Op) (d : PanDesc) (p : Pan) (i : Nat) : Word :=
  let a0 := p.acc.getD i 0
  let a1 := if d.outEn then fadd a0 (p.bit.getD i 0) else a0
  let a2 := if d.rot = 0 then a1 else fmul a1 (rotScale d.rot)
  if d.addEn then
    fadd a2 (readSrc (fun o => rdByte s.mem (bayAddr (engBay op.engine) o)) fBF16 (d.eBase + 2 * i))
  else a2

/-- The random bits of an element of D (R120). -/
def dBits (s : State) (op : Op) (d : PanDesc) (m n : Nat) : Nat :=
  if d.dRnd = 2 then srBits (ctxSeed s op.ctx) d.dTid d.step (d.blk * 65536 + m * 256 + n) else 0

/-- A finite value is clamped to the largest finite value of a format when its code is still finite (R86). -/
def clamped (f : Fmt) (c : Nat) (v : Val) : Bool :=
  match v with
  | .fin _ n d => aboveTop f n d && (decodeFmt f c).isFin
  | _ => false

/-- The final values of the block; a row that the gather makes zero is none (R135). -/
def outVals (s : State) (op : Op) (d : PanDesc) (p : Pan) : List (Option Word) :=
  (List.range (d.m * d.n)).map fun i =>
    if (rowOf d p.gidx (i / d.n)).isNone then none else some (finalAcc s op d p i)

/-- Convert and write a BF16 or FP16 D: the state, and whether an element was clamped, and whether one is not finite. -/
def writeDense (s : State) (op : Op) (d : PanDesc) (vals : List (Option Word)) : State × Bool × Bool :=
  let f := if d.dFmt = 0 then fBF16 else fFP16
  vals.zipIdx.foldl (fun r x =>
    match x.1 with
    | none => r
    | some w =>
      let v := f32 w
      let c := code f (rndOf d.dRnd) (dBits s op d (x.2 / d.n) (x.2 % d.n)) v
      (r.1.setRaw (bayAddr (engBay op.engine) (d.dBase + 2 * x.2)) (toLE 2 c), r.2.1 || clamped f c v, r.2.2 || !(decodeFmt f c).isFin))
    (s, false, false)

/-- The flakes of a quantised D: row or column, first element, and the elements in order; padding reads as +0 (R83). -/
def dFlakes (s : State) (op : Op) (d : PanDesc) (vals : List (Option Word)) : List ((Nat → Nat × Nat) × List QElem) :=
  let pl := dPlanes d
  let lines := if d.dT then pl.pcols else pl.prows
  let len := if d.dT then pl.prows else pl.pcols
  (List.range lines).flatMap fun i => (List.range (len / 32)).map fun j =>
    let at_ := fun k => if d.dT then (j * 32 + k, i) else (i, j * 32 + k)
    (at_, (List.range 32).map fun k =>
      let (m, n) := at_ k
      let live := decide (m < d.m) && decide (n < d.n)
      { w := if live then (vals.getD (m * d.n + n) none).getD 0 else 0, r := if live then dBits s op d m n else 0, div := false })

/-- The index of the crust of an element of D. -/
def dCrust (x : Nat × Nat) : Nat := x.1 / 128 * 16 + x.2 / 128

/-- Quantise one group of 32 elements in FLAKED (R89) or CRUST_ONLY form (R90). -/
def quantGroup (f : Fmt) (flaked : Bool) (mode : Rnd) (c : BitVec 16) (xs : List QElem) : QOut :=
  if flaked then
    let q := quantStrip f mode c xs
    { q with clamp := q.q.sat }
  else
    let r := xs.map fun x => quantCrust f mode c (f32 x.w) x.r
    let codes := r.map (·.1)
    { clamp := (xs.zip codes).any fun x => !crustZero c && !crustNonfin c && clamped f x.2 ((f32 x.1.w).div (crustAbs c)),
      strip := .flake f codes none c,
      q := { s8 := 0, codes := codes, sat := r.any (·.2), nonfin := false },
      amax := maxAbs ((xs.map fun x => f32 x.w).filter (·.isFin)), counted := xs.any fun x => (f32 x.w).isFin && !(f32 x.w).isZero }

/-- Quantise one group of 32 elements of D. -/
def quantOut (d : PanDesc) (c : BitVec 16) (xs : List QElem) : QOut :=
  quantGroup (outFmt d.dFmt).1 (outFmt d.dFmt).2.1 (rndOf d.dRnd) c xs

/-- A result of a conversion of D: the group's place and what it gave. -/
abbrev DOut := (Nat → Nat × Nat) × QOut

/-- Convert the block with crust scales. -/
def convertD (d : PanDesc) (c : BitVec 16) (fixes : List SatCrust) (fl : List ((Nat → Nat × Nat) × List QElem)) : List DOut :=
  fl.map fun x => (x.1, quantOut d (crustScale c fixes (dCrust (x.1 0))) x.2)

/-- Write the converted block. -/
def writeQuant (s : State) (op : Op) (d : PanDesc) (l : List DOut) : State :=
  l.foldl (fun s x =>
    match x.2.strip with
    | .flake _ codes s8 c => putFlake s (engBay op.engine) (dPlanes d) x.1 codes (s8.getD 0) c
    | .wide _ => s) s

/-- The scanned amax of an output or of a crust that is stored (R154). -/
def coldGroups (flaked : Bool) (gs : List (List QElem)) : Val :=
  if flaked then coldAmax gs else maxAbs ((gs.flatMap fun x => x.map fun e => f32 e.w).filter (·.isFin))

/-- The saturated crusts of a converted block (R131). -/
def satOut (l : List DOut) : List SatCrust :=
  let ids := ((l.filter fun x => x.2.q.sat).map fun x => dCrust (x.1 0)).eraseDups
  ids.map fun i =>
    { operand := 2, crust := i,
      amax := toF32 ((l.filter fun x => dCrust (x.1 0) == i).foldl (fun m x => valMax m x.2.amax) .zero) }

end Sys2Proof.Machine
end

