-- ==== Sys2Proof/Machine/Push.lean ====
section
/-! DEFINITION. Pushing a descriptor or a vector word (02, R42 to R48). -/

namespace Sys2Proof.Machine

open Sys2Proof

/-! ### Grants (R45) -/

/-- The default grants of a queue of `depth` entries over harts: equal shares, the remainder one each to the first. -/
def defaultGrants (depth : Nat) (hs : List Nat) : List (Nat × Nat) :=
  hs.zipIdx.map fun p => (p.1, depth / hs.length + if p.2 < depth % hs.length then 1 else 0)

/-- The key of a hart's grant on a queue. -/
def grantKey (e q h : Nat) : Nat := (e * 4 + q) * 258 + h

/-- The grant of a hart on a queue of its context. Context 0's follow the harts bound to it (R45). -/
def grantOf (s : State) (n e q h : Nat) : Nat :=
  if n = 0 then
    match (defaultGrants (queueDepth e) (boundHarts s 0)).find? fun p => p.1 == h with
    | some p => p.2
    | none => 0
  else tget 0 s.grants (grantKey e q h)

/-- Entries of a queue that a hart holds: its descriptors that have not started (R44). -/
def heldEntries (s : State) (e q h : Nat) : Nat := (s.queue e q).countP fun o => o.hart == h

/-- Fix the grants of one queue of a context: the explicit ones, or the default over the harts bound now (R45). -/
def fixGrants (s : State) (n e q : Nat) : State :=
  let hs := boundHarts s n
  let given := hs.filterMap fun h =>
    match tfind s.explicit (grantKey e q h) with
    | some c => some (h, c)
    | none => none
  let gs := if given.isEmpty then defaultGrants (queueDepth e) hs else given
  gs.foldl (fun s p => { s with grants := tset 0 s.grants (grantKey e q p.1) p.2 }) s

/-! ### Accepting a push -/

/-- An engine is awake: its die is in RUN and its bay is not gated (R436, R438). -/
def awake (s : State) (e : Nat) : Bool := (s.die (e / 256)).state == 0 && !(engKind e == .bay && s.gated.contains (engBay e))

/-- The page of an engine that takes descriptors. -/
def engPage (e : Nat) : Nat :=
  match engKind e with
  | .bay => pageOf 10 (engBay e)
  | .fabric => pageOf 18 (e % 256)
  | _ => pageOf 14 (dmaInst e)

/-- CTL.ENABLE of a page (R495). -/
def enabled (s : State) (page : Nat) : Bool := bit (regGet s page 8).toNat 0

/-- CTL.QUIESCE of a page (R495). -/
def quiescing (s : State) (page : Nat) : Bool := bit (regGet s page 8).toNat 1

/-- The status of a push that completes at once, in the order of R43; 0 when it reaches a queue. An OFF die answers as a fenced
engine (R437). -/
def pushStatus (s : State) (n h : Nat) (rs1 : Nat) : Nat :=
  let e := rs1 % 4096
  let q := bits rs1 12 2
  if (s.ctx n).st = .aborted then cAbortedEpoch
  else if rs1 / 2 ^ 14 ≠ 0 then cBadDescriptor
  else if engKind e = .invalid then cBadEngine
  else if queueCount e ≤ q ∨ s.ownerOf e q ≠ some n ∨ grantOf s n e q h = 0 then cNotAssigned
  else if (engKind e = .bay ∧ s.svc.bays.contains (engBay e)) ∨ (s.die (e / 256)).state = 3 then cEngineFenced
  else 0

/-- The header with TAG and CTX overwritten (R50). -/
def stampHeader (hdr : Nat) (tag n : Nat) : Nat :=
  hdr % 2 ^ 8 + tag % 2 ^ 13 * 2 ^ 8 + n % 2 ^ 6 * 2 ^ 21 + hdr / 2 ^ 27 * 2 ^ 27

/-- A new operation of hart `h` (R49, R50): engine, tag, context, epoch and bytes. -/
def newOp (s : State) (n h e q tag : Nat) (desc : List Byte) : Op :=
  let hdr := stampHeader (fieldLE desc 0 8) tag n
  { tag := tag, queue := q, ctx := n, hart := h, epoch := (s.ctx n).epoch, engine := e, hdr := BitVec.ofNat 64 hdr,
    body := toLE 8 hdr ++ padTo 0 56 (desc.drop 8) }

/-- What is free for a push that reaches a queue, or that completes at once (R43, R44): an entry of the grant and a tag. A
disabled block accepts no new work (R495). -/
def pushRoom (s : State) (n h : Nat) (rs1 : Nat) (status : Nat) : Bool :=
  let e := rs1 % 4096
  let q := bits rs1 12 2
  tagFree s n h (tagDie h e) &&
  (status != 0 || (heldEntries s e q h < grantOf s n e q h && enabled s (engPage e)))

/-- Carry out a push for which there is room; rd receives the tag (R43). -/
def acceptPush (s : State) (n h rd : Nat) (rs1 : Nat) (desc : List Byte) (status : Nat) : State :=
  let e := rs1 % 4096
  let q := bits rs1 12 2
  let (tag, s1) := takeTag (s.reach (hartEng h / 256) (e / 256)) n h (tagDie h e)
  let op := newOp s n h e q tag desc
  let s2 := s1.setHart h { wrX (s1.hart h) rd (BitVec.ofNat 64 tag) with blocked := none }
  if status = 0 then s2.setQueue e q (s2.queue e q ++ [op])
  else settle (s2, [.complete op status])

/-- A push by ZPUSH or ZPUSHM: it is accepted, or the hart blocks until there is room (R44). -/
def pushBlocking (s : State) (h rd : Nat) (rs1 : Dword) (desc : List Byte) : State :=
  match hartCtx s h with
  | none => s
  | some n =>
    let st := pushStatus s n h rs1.toNat
    if pushRoom s n h rs1.toNat st then acceptPush s n h rd rs1.toNat desc st
    else s.setHart h { s.hart h with blocked := some (.push rd rs1 desc) }

/-- The 64 bytes of a hart's staging buffer. -/
def stagingBytes (x : Hart) : List Byte := ((List.range 8).map fun i => toLE 8 (tget 0 x.staging i).toNat).flatten

/-! ### Vector words (R42, R47) -/

/-- The bay that rs1 of ZVEC and ZVEND names, if the instruction does not trap (R42). -/
def vecBay (s : State) (n : Nat) (rs1 : Dword) : Option Nat :=
  let e := rs1.toNat % 4096
  if rs1.toNat / 4096 = 0 ∧ engKind e = .bay ∧ s.bayCtx (engBay e) = some n then some (engBay e) else none

/-- Words that the vector queue holds (R48). -/
def vecWords (v : Vec) : Nat := v.q.countP fun i => match i with | .word _ => true | .close _ => false

/-- The bay takes no vector work of the context: the context is ABORTED, or the bay is fenced (R43, R65). -/
def vecRefuses (s : State) (n b : Nat) : Nat :=
  if (s.ctx n).st = .aborted then cAbortedEpoch
  else if s.svc.bays.contains b ∨ (s.die (b / 32)).state = 3 then cEngineFenced else 0

/-- ZVEC on bay `b`: the word joins the open block, opening one if none is open; it blocks while another hart's block is open,
the queue is full or the unit is disabled. A word for a stopped block that is still open is discarded (R65, R177). -/
def vecWord (s : State) (n h b rd : Nat) (rs1 rs2 : Dword) : State :=
  let v := s.vec b
  let go := fun (s : State) => (s.reach (hartEng h / 256) (b / 32)).setHart h { s.hart h with blocked := none }
  if v.owner.isSome ∧ v.owner ≠ some h ∧ vecRefuses s n b = 0 then
    s.setHart h { s.hart h with blocked := some (.vec rd rs1 rs2 false) }
  else if vecRefuses s n b ≠ 0 then go s
  else if v.stop ≠ 0 ∧ v.owner = some h ∧ (closedOps v.q).isEmpty then go s
  else if 512 ≤ vecWords v ∨ !enabled s (pageOf 11 b) then
    s.setHart h { s.hart h with blocked := some (.vec rd rs1 rs2 false) }
  else go (s.setVec b { v with owner := some h, q := v.q ++ [.word rs2] })

/-- ZVEND on bay `b`: the block closes with a tag, or the hart blocks (R47). A push refused by an abort or a fence completes at
once (R43, R65); the words of its block are discarded. -/
def vecClose (s : State) (n h b rd : Nat) (rs1 rs2 : Dword) : State :=
  let v := s.vec b
  let e := rs1.toNat % 4096
  let wait := s.setHart h { s.hart h with blocked := some (.vec rd rs1 rs2 true) }
  if (v.owner.isSome ∧ v.owner ≠ some h ∧ vecRefuses s n b = 0) ∨ !tagFree s n h (tagDie h e) then wait
  else
    let (tag, s1) := takeTag (s.reach (hartEng h / 256) (b / 32)) n h (tagDie h e)
    let hdr := tag * 2 ^ 8 + n * 2 ^ 21 + rs2.toNat / 2 ^ 28 * 2 ^ 28
    let op : Op := { tag := tag, ctx := n, hart := h, epoch := (s.ctx n).epoch, engine := e, kind := 1,
                     hdr := BitVec.ofNat 64 hdr, body := toLE 8 rs2.toNat }
    let s2 := s1.setHart h { wrX (s1.hart h) rd (BitVec.ofNat 64 tag) with blocked := none }
    if vecRefuses s n b ≠ 0 then
      let run := (firstBlock v.q).1
      let v1 := if v.owner ≠ some h then v
        else if (closedOps run).isEmpty then
          { v with owner := none, q := [], words := 0, sum := {}, held := false, stq := none, fault := none, stop := 0 }
        else { v with owner := none, q := run }
      settle (s2.setVec b v1, [.complete { op with kind := 4 } (vecRefuses s n b)])
    else s2.setVec b { v with owner := none, q := v.q ++ [.close op] }

/-- A vector push of a hart: a bad bay operand traps (R42). -/
def vecPush (s : State) (h rd : Nat) (rs1 rs2 : Dword) (close : Bool) : State :=
  match hartCtx s h with
  | none => s
  | some n =>
    match vecBay s n rs1 with
    | none => trapHart s h .illegal
    | some b => if close then vecClose s n h b rd rs1 rs2 else vecWord s n h b rd rs1 rs2

/-! ### Records (R41, R57, R58) -/

/-- The ring index of the record of a tag, if it is in the hart's ring. -/
def ringIndex (x : Hart) (tag : Nat) : Option Nat :=
  (x.ring.findIdx? (· == tag)).map fun i => (x.head.toNat + i) % 256

/-- Consume `n` records from the head: their tags are free, and the expected phase flips as the head passes index 255. -/
def consume : Nat → State → Nat → State
  | 0, s, _ => s
  | n + 1, s, h =>
    let x := s.hart h
    match x.ring with
    | [] => s
    | t :: rest =>
      consume n (dropTag (s.setHart h { x with ring := rest, head := x.head + 1,
                                               phase := if x.head = 255 then !x.phase else x.phase }) t) h

/-- Items of a summary (R68). -/
def summaryItem (m : Summary) (i : Nat) : Nat :=
  match i with
  | 0 => m.max.toNat
  | 1 => m.min.toNat
  | 2 => m.sum.toNat
  | 3 => m.nonzero
  | 4 => m.sflags.toNat
  | _ => 0

end Sys2Proof.Machine
end

