-- ==== Sys2Proof/Machine/Vec.lean ====
section
/-! DEFINITION. Vector units: registers, lanes, the word at the head of the queue, faults and flags (06, R168 to R178). -/

namespace Sys2Proof.Machine

open Sys2Proof

/-- The VEC page of a bay. -/
def vecPage (b : Nat) : Nat := pageOf 11 b

/-! ### Registers and lanes (R168, R170) -/

/-- A tile register of +0. -/
def zeroReg : List Word := List.replicate 1024 0

/-- Mask register contents of all ones. -/
def onesMask : BitVec 1024 := BitVec.allOnes 1024

/-- Read a tile register. -/
def vreg (v : Vec) (r : Nat) : List Word := tget zeroReg v.v r

/-- Write a tile register. -/
def setVreg (v : Vec) (r : Nat) (l : List Word) : Vec := { v with v := tset zeroReg v.v r l }

/-- Read a mask register; k0 is all ones. -/
def kreg (v : Vec) (i : Nat) : BitVec 1024 := if i = 0 then onesMask else tget onesMask v.k i

/-- Write a mask register. -/
def setKreg (v : Vec) (i : Nat) (m : BitVec 1024) : Vec := { v with k := tset onesMask v.k i m }

/-- Lane `l` is active. -/
def laneActive (v : Vec) (l : Nat) : Bool := decide (l / 32 < v.rows) && decide (l % 32 < v.cols)

/-- Lane `l` is selected under a mask register. -/
def laneSel (v : Vec) (m l : Nat) : Bool := laneActive v l && (kreg v m).getLsbD l

/-- A mask from a test of lanes. -/
def maskOf (f : Nat → Bool) : BitVec 1024 :=
  BitVec.ofNat 1024 ((List.range 1024).foldl (fun n l => if f l then n + 2 ^ l else n) 0)

/-! ### Fields of a word (R172) -/

def wOpc (w : Nat) : Nat := bits w 0 8
def wVd (w : Nat) : Nat := bits w 8 5
def wVs1 (w : Nat) : Nat := bits w 13 5
def wVs2 (w : Nat) : Nat := bits w 18 5
def wVs3 (w : Nat) : Nat := bits w 23 5
def wMask (w : Nat) : Nat := bits w 28 3
def wPrec (w : Nat) : Bool := bit w 31
def wImm (w : Nat) : Nat := bits w 32 32
/-- SLOT of form M, and of form X. -/
def wSlotM (w : Nat) : Nat := bits w 13 3
def wSlotX (w : Nat) : Nat := bits w 8 3
def wField (w : Nat) : Nat := bits w 13 5
def wTr (w : Nat) : Nat := bits w 32 16
def wTc (w : Nat) : Nat := bits w 48 16

/-- A form V word has 0 in the register fields that its instruction does not use, and no bit of IMM beyond `imm` bits (R173). -/
def formV (w : Nat) (vd vs1 vs2 vs3 : Bool) (imm : Nat) : Bool :=
  (vd || wVd w == 0) && (vs1 || wVs1 w == 0) && (vs2 || wVs2 w == 0) && (vs3 || wVs3 w == 0) && wImm w / 2 ^ imm == 0

/-- A form M word has 0 in its unused fields; `mreg` names a mask register and uses no MASK (R173). -/
def formM (w : Nat) (mreg : Bool) : Bool :=
  bits w 16 12 == 0 && !bit w 31 && (!mreg || (bits w 11 2 == 0 && wMask w == 0))

/-- A form X word has 0 in its unused fields. -/
def formX (w : Nat) : Bool := bits w 11 2 == 0 && bits w 18 14 == 0

/-! ### The head word -/

/-- What a word comes to. -/
inductive VRes where
  | done (s : State)
  | fault (s : State) (code : Nat) (lane : Option Nat)
  | hold (s : State)
  deriving DecidableEq, Repr

/-- The word at the head of a bay's queue, if the unit can issue it. -/
def vecHead (s : State) (b : Nat) : Option Nat :=
  let v := s.vec b
  match v.q with
  | .word w :: _ =>
    if v.held || v.stop != 0 || v.stq.isSome || (s.bayCtx b).isNone || !awake s (bayEng b) ||
       (v.words == 0 && quiescing s (vecPage b)) then none else some w.toNat
  | _ => none

/-- A word is done: it leaves the queue and is counted, with its issue cycles (R204, R207). -/
def vecDone (s : State) (b cycles : Nat) : State :=
  let v := s.vec b
  bump (bump (s.setVec b { v with q := v.q.drop 1, words := v.words + 1 }) (vecPage b) 0 1) (vecPage b) 2 cycles

/-- A fault stops the block at the word; the words that follow are discarded (R177). -/
def vecFault (s : State) (b code : Nat) (lane : Option Nat) : State :=
  let v := s.vec b
  s.setVec b { v with stop := BitVec.ofNat 16 code, q := discardBlock v.q, stq := none,
                      fault := v.fault.or (some { code := BitVec.ofNat 16 code, word := v.words, lane := lane }) }

/-- Execute the head word of a bay if its opcode satisfies `p`. -/
def vecRow (b : Nat) (p : Nat → Bool) (cycles : Nat → Nat) (f : State → Nat → VRes) (s : State) : Out :=
  .next (match vecHead s b with
    | none => s
    | some w =>
      if p (wOpc w) then
        match f s w with
        | .done s1 => vecDone s1 b (cycles w)
        | .fault s1 c l => vecFault s1 b c l
        | .hold s1 => s1
      else s)

/-- VEC_ILLEGAL. -/
def vIllegal (s : State) : VRes := .fault s 0x4001 none

/-- Execute a head word that changes the vector unit only; none is VEC_ILLEGAL. -/
def aluRow (b opc : Nat) (cycles : Nat → Nat) (f : Vec → Nat → Option Vec) (s : State) : Out :=
  vecRow b (fun o => o == opc) cycles (fun s w =>
    match f (s.vec b) w with
    | some v => .done (s.setVec b v)
    | none => vIllegal s) s

/-! ### Flags (R202) -/

/-- Set bits of SFLAGS. -/
def setFlags (v : Vec) (n : Nat) : Vec := { v with sum := { v.sum with sflags := v.sum.sflags ||| BitVec.ofNat 16 n } }

/-- The flags that a written floating-point value sets: bit 0 ANY_NAN, bit 4 ANY_INF. -/
def valFlags (w : Word) : Nat :=
  match f32 w with
  | .nan => 1
  | .inf _ => 16
  | .fin _ _ _ => 0

/-- Note a list of written floating-point values. -/
def noteVals (v : Vec) (ws : List Word) : Vec := setFlags v (ws.foldl (fun n w => n ||| valFlags w) 0)

/-! ### Writing lanes (R176) -/

/-- Write the selected lanes of a register; a floating-point instruction notes what it writes. -/
def writeSel (v : Vec) (d m : Nat) (fp : Bool) (f : Nat → Word) : Vec :=
  let old := vreg v d
  let v1 := setVreg v d ((List.range 1024).map fun l => if laneSel v m l then f l else old.getD l 0)
  if fp then noteVals v1 (((List.range 1024).filter fun l => laneSel v m l).map f) else v1

/-- Write a list of lanes of a register. -/
def writeLanes (v : Vec) (d : Nat) (l : List (Nat × Word)) : Vec :=
  setVreg v d (l.foldl (fun r x => setAt r x.1 x.2) (padTo 0 1024 (vreg v d)))

/-! ### Precision (R171) -/

/-- A value rounded RNE to BF16. -/
def b16 (v : Val) : Val := decodeFmt fBF16 (code fBF16 .rne 0 v)

/-- A source element under PREC. -/
def srcVal (prec : Bool) (w : Word) : Val := if prec then f32 w else b16 (f32 w)

/-- A result under PREC: one rounding. -/
def resWord (prec : Bool) (v : Val) : Word := if prec then toF32 v else toF32 (b16 v)

/-- |x| and the larger and smaller of two values (R179). -/
def maxVal (x y : Val) : Val :=
  if x.isNan || y.isNan then .nan
  else if x.isZero && y.isZero then .fin (x.sign && y.sign) 0 1
  else if x.lt y then y else x

def minVal (x y : Val) : Val :=
  if x.isNan || y.isNan then .nan
  else if x.isZero && y.isZero then .fin (x.sign || y.sign) 0 1
  else if y.lt x then y else x

/-- The square root with a sticky bit below 2^−160, so that one rounding of it is the correct one (R181, R200). -/
def sqrtVal : Val → Val
  | .nan => .nan
  | .inf s => if s then .nan else .inf false
  | .fin s n d =>
    if n = 0 then .fin s 0 1
    else if s then .nan
    else
      let m := n * 2 ^ 320 / d
      let r := Nat.sqrt m
      .fin false (2 * r + if r * r = m then 0 else 1) (2 ^ 161)

/-! ### Issue cycles (R204) -/

def cyc (n : Nat) : Nat → Nat := fun _ => n
/-- One count in B precision, another in F. -/
def cycPrec (b f : Nat) : Nat → Nat := fun w => if wPrec w then f else b

end Sys2Proof.Machine
end

