-- ==== Sys2Proof/Machine/Sfn.lean ====
section
/-! DEFINITION. The special functions of R181: the edges, the exact value to at least 60 bits, the error bound, and the free value of
R182 held inside it. -/

namespace Sys2Proof.Machine

open Sys2Proof

/-! ### Fixed point: natural numbers with 128 fraction bits -/

/-- 1 with 128 fraction bits. -/
def fixOne : Nat := 2 ^ 128

/-- z + z³ / 3 + z⁵ / 5 + …, `t` being the power of z reached and `k` its exponent. -/
def atanhSum : Nat → Nat → Nat → Nat → Nat
  | 0, _, _, _ => 0
  | fuel + 1, z2, t, k => t / k + atanhSum fuel z2 (t * z2 / fixOne) (k + 2)

/-- artanh z for z below 1 / 3. -/
def atanhFix (z : Nat) : Nat := atanhSum 48 (z * z / fixOne) z 1

/-- ln 2 = 2 artanh (1 / 3). -/
def ln2Fix : Nat := 2 * atanhFix (fixOne / 3)

/-- 1 + x + x² / 2 + …, from the term `t` on, whose successor is divided by `k`. -/
def expSum : Nat → Nat → Nat → Nat → Nat
  | 0, _, _, _ => 0
  | fuel + 1, x, t, k => t + expSum fuel x (t * x / (k * fixOne)) (k + 1)

/-- The number x with 128 fraction bits, no larger than 2000 in magnitude: beyond, every result is past the FP32 range. -/
def fixOf (n d : Nat) : Nat := min (n * fixOne / d) (2000 * fixOne)

/-- e^x for x = ± a / 2^128, as a quotient of natural numbers. -/
def expQ (neg : Bool) (a : Nat) : Nat × Nat :=
  let i := a / ln2Fix
  let m := expSum 48 (a % ln2Fix) fixOne 1 * 2 ^ i
  if neg then (fixOne, m) else (m, fixOne)

/-- ln (n / d) as a sign and a number with 128 fraction bits. -/
def lnFix (n d : Nat) : Int :=
  let k := log2q n d
  let v := (scaled false n (-k)).div (.fin false d 1)
  match v with
  | .fin _ p q =>
    let up := decide (4 * q < 3 * p)
    let k1 := if up then k + 1 else k
    let q1 := if up then 2 * q else q
    let z := (if q1 ≤ p then p - q1 else q1 - p) * fixOne / (p + q1)
    let l : Int := 2 * (atanhFix z : Int)
    k1 * ln2Fix + if q1 ≤ p then l else -l
  | _ => 0

/-- A quotient as a value. -/
def valQ (neg : Bool) (q : Nat × Nat) : Val := .fin neg q.1 q.2

/-- 1 / (1 + e^−y). -/
def sigmoidQ (neg : Bool) (a : Nat) : Nat × Nat :=
  let e := expQ true a
  if neg then (e.1, e.1 + e.2) else (e.2, e.1 + e.2)

/-- Alternating sum x − x³ / 3 + …, with 400 fraction bits, for 1 / n: arctan. -/
def atanSum : Nat → Nat → Nat → Nat → Int
  | 0, _, _, _ => 0
  | fuel + 1, n2, t, k => (t / k : Nat) - atanSum fuel n2 (t / n2) (k + 2)

/-- π with 400 fraction bits: 16 arctan (1 / 5) − 4 arctan (1 / 239). -/
def piFix : Nat := (16 * atanSum 100 25 (2 ^ 400 / 5) 1 - 4 * atanSum 40 57121 (2 ^ 400 / 239) 1).toNat

/-- The alternating sum of t, t r² / (k (k + 1)), …. -/
def circSum : Nat → Nat → Nat → Nat → Int
  | 0, _, _, _ => 0
  | fuel + 1, r2, t, k => (t : Int) - circSum fuel r2 (t * r2 / (k * (k + 1) * fixOne)) (k + 2)

/-- sin or cos of n / d, the argument reduced by 2π. -/
def circFix (cos : Bool) (n d : Nat) : Int :=
  let r := n * 2 ^ 400 / d % (2 * piFix) / 2 ^ 272
  let r2 := r * r / fixOne
  if cos then circSum 48 r2 fixOne 1 else circSum 48 r2 r 2

/-- A number with 128 fraction bits as a value. -/
def valFix (k : Int) : Val := .fin (decide (k < 0)) k.natAbs fixOne

/-! ### The functions (R181) -/

/-- 1 / x. -/
def recip (v : Val) : Val := (Val.fin false 1 1).div v

/-- One. -/
def vOne : Val := .fin false 1 1

/-- n / d lies below 2^−30. -/
def tinyQ (n d : Nat) : Bool := decide (2 ^ 30 * n < d)

/-- The value of a function at a finite argument off its edges: exact for RCP, and to at least 60 bits for the others, well inside every
bound of R181. GELU is x × sigmoid (2u), which equals its formula. -/
def sfnNear (fn : Nat) (x : Val) : Val :=
  match x with
  | .fin neg n d =>
    match fn with
    | 0 => valQ false (expQ neg (fixOf (n * ln2Fix) (d * fixOne)))
    | 1 => valQ false (expQ neg (fixOf n d))
    | 2 => (valFix (lnFix n d)).div (valFix ln2Fix)
    | 3 => valFix (lnFix n d)
    | 4 => recip x
    | 5 => sqrtVal (recip x)
    | 7 =>
      if tinyQ n d then x
      else
        let e := expQ false (fixOf (2 * n) d)
        .fin neg (e.1 - e.2) (e.1 + e.2)
    | 8 => valQ false (sigmoidQ neg (fixOf n d))
    | 9 => x.mul (valQ false (sigmoidQ neg (fixOf n d)))
    | 10 =>
      match (Val.fin false (2 * 7978845608) (10 ^ 10)).mul (x.add ((Val.fin false 44715 (10 ^ 6)).mul (x.mul (x.mul x)))) with
      | .fin s p q => x.mul (valQ false (sigmoidQ s (fixOf p q)))
      | v => v
    | 11 => if tinyQ n d then x else (fun v => if neg then v.neg else v) (valFix (circFix false n d))
    | 12 => valFix (circFix true n d)
    | _ => .nan
  | v => v

/-- The bound of a function in F precision, in ulps (R181). -/
def sfnUlps (fn : Nat) : Nat :=
  match fn with
  | 1 => 2
  | 3 => 2
  | 7 => 2
  | 8 => 2
  | 9 => 3
  | 10 => 4
  | _ => 1

/-- One ulp of a value in a format of FP32's exponent range with `mb` mantissa bits. -/
def ulpOf (mb : Nat) (v : Val) : Val :=
  match v with
  | .fin _ n d =>
    let e : Int := if n = 0 then -126 else max (log2q n d) (-126)
    Val.pow2 (e - mb)
  | v => v

/-- `y` lies within `b` of `v`, and a zero has the sign of `v`. -/
def nearVal (v b y : Val) : Bool :=
  y.isFin && !b.lt (y.add v.neg).abs && (!y.isZero || v.isZero || y.sign == v.sign)

/-- The bound of R181: F precision in ulps of FP32, SIN and COS there absolute; B precision one BF16 ulp. -/
def sfnBound (b : Bool) (fn : Nat) (v : Val) : Val :=
  if b then ulpOf 7 v
  else if fn = 11 ∨ fn = 12 then Val.pow2 (-23)
  else (Val.ofInt (sfnUlps fn)).mul (ulpOf 23 v)

/-- The results that R181 lays down at the edges, and SQRT everywhere; none where the result is within its bound. -/
def sfnEdge (fn : Nat) (x : Val) : Option Val :=
  match x with
  | .nan => some .nan
  | .inf neg =>
    match fn with
    | 0 | 1 => some (if neg then .zero else .inf false)
    | 2 | 3 | 6 => some (if neg then .nan else .inf false)
    | 4 => some (.fin neg 0 1)
    | 5 => some (if neg then .nan else .zero)
    | 7 => some (.fin neg 1 1)
    | 8 => some (if neg then .zero else vOne)
    | 9 | 10 => some (if neg then .fin true 0 1 else .inf false)
    | _ => some .nan
  | .fin neg n d =>
    if n = 0 then
      match fn with
      | 2 | 3 => some (.inf true)
      | 4 | 5 => some (.inf neg)
      | 6 | 7 | 9 | 10 => some (.fin neg 0 1)
      | 8 => some (.fin false 1 2)
      | _ => none
    else
      match fn with
      | 0 => if !neg ∧ 128 * d ≤ n then some (.inf false) else none
      | 1 => if !neg ∧ 0xB17218 * d ≤ 2 ^ 17 * n then some (.inf false) else none
      | 2 | 3 => if neg then some .nan else if x.eq vOne then some .zero else none
      | 4 => if 2 ^ 128 * n ≤ d then some (.inf neg) else none
      | 5 => if neg then some .nan else none
      | 6 => some (sqrtVal x)
      | _ => none

/-- A free word where it keeps the bound, else the rounded value (R181, R182, log entry 8). -/
def sfnKeep (b : Bool) (fn : Nat) (x : Val) (y near : Word) : Word :=
  if nearVal (sfnNear fn x) (sfnBound b fn (sfnNear fn x)) (f32 y) then y else near

/-- A special function in F precision: its edges, or what the tables of its version give within the bound (R181, R182). -/
def sfnF (fn : Nat) (ver x : Word) : Word :=
  match sfnEdge fn (f32 x) with
  | some v => toF32 v
  | none => sfnKeep false fn (f32 x) (Config.sfn fn ver x) (toF32 (sfnNear fn (f32 x)))

/-- A special function in B precision: the source rounded to BF16, the result a BF16 value (R181). -/
def sfnB (fn : Nat) (ver x : Word) : Word :=
  let y := toF32 (b16 (f32 x))
  match sfnEdge fn (f32 y) with
  | some v => toF32 (b16 v)
  | none => sfnKeep true fn (f32 y) (toF32 (b16 (f32 (Config.sfn (fn + 16) ver y)))) (toF32 (b16 (sfnNear fn (f32 y))))

end Sys2Proof.Machine
end

