-- ==== Sys2Proof/Machine/VecAlu.lean ====
section
/-! DEFINITION. Vector words that work on registers: arithmetic, special functions, masks, permutations, reductions, scans,
softmax, optimizer and summary (06, R178 to R190, R199 to R201). -/

namespace Sys2Proof.Machine

open Sys2Proof

/-! ### Control words -/

/-- An opcode that R178 does not list. -/
def reservedOpc (o : Nat) : Bool :=
  !((o ≤ 0x06) || (0x10 ≤ o && o ≤ 0x1A) || o == 0x20 || (0x30 ≤ o && o ≤ 0x3A) || (0x40 ≤ o && o ≤ 0x43) ||
    (0x50 ≤ o && o ≤ 0x55) || (0x60 ≤ o && o ≤ 0x62) || o == 0x70 || o == 0x80 || o == 0x90 || (0xA0 ≤ o && o ≤ 0xA5))

/-- VNOP (R178); a reserved opcode at the head raises VEC_ILLEGAL through this row (R173, log entry 16). -/
def execVnop (b : Nat) (s : State) : Out :=
  vecRow b (fun o => o == 0 || reservedOpc o) (cyc 1) (fun s w =>
    if wOpc w = 0 ∧ formV w false false false false 0 then .done s else vIllegal s) s

/-- VSHAPE (R170, R178). -/
def execVshape (b : Nat) (s : State) : Out :=
  aluRow b 0x01 (cyc 1) (fun v w =>
    if formV w false false false false 10
    then some { v with rows := bits (wImm w) 0 5 + 1, cols := bits (wImm w) 5 5 + 1 } else none) s

/-- VSETX (R191). -/
def execVsetx (b : Nat) (s : State) : Out :=
  aluRow b 0x02 (cyc 1) (fun v w =>
    if formX w && decide (wField w ≤ 12)
    then some { v with slots := tset 0 v.slots (wSlotX w * 32 + wField w) (BitVec.ofNat 32 (wImm w)) } else none) s

/-- VSETP (R199). -/
def execVsetp (b : Nat) (s : State) : Out :=
  aluRow b 0x06 (cyc 1) (fun v w =>
    if formX w && decide (wSlotX w ≤ 1) && decide (wField w ≤ 8)
    then some { v with params := tset 0 v.params (wSlotX w * 32 + wField w) (BitVec.ofNat 32 (wImm w)) } else none) s

/-! ### Floating point (R171, R179) -/

/-- A floating-point instruction of two sources. -/
def fp2 (b opc : Nat) (f : Val → Val → Val) (s : State) : Out :=
  aluRow b opc (cycPrec 1 2) (fun v w =>
    if formV w true true true false 0 then
      let x := vreg v (wVs1 w)
      let y := vreg v (wVs2 w)
      let p := wPrec w
      some (writeSel v (wVd w) (wMask w) true fun l => resWord p (f (srcVal p (x.getD l 0)) (srcVal p (y.getD l 0))))
    else none) s

/-- A floating-point instruction of one source. -/
def fp1 (b opc : Nat) (f : Val → Val) (s : State) : Out :=
  aluRow b opc (cycPrec 1 2) (fun v w =>
    if formV w true true false false 0 then
      let x := vreg v (wVs1 w)
      let p := wPrec w
      some (writeSel v (wVd w) (wMask w) true fun l => resWord p (f (srcVal p (x.getD l 0))))
    else none) s

/-- VADD (R179). -/
def execVadd (b : Nat) (s : State) : Out := fp2 b 0x10 Val.add s

/-- VSUB (R179). -/
def execVsub (b : Nat) (s : State) : Out := fp2 b 0x11 (fun x y => x.add y.neg) s

/-- VMUL (R179). -/
def execVmul (b : Nat) (s : State) : Out := fp2 b 0x12 Val.mul s

/-- VFMA (R179): one rounding. -/
def execVfma (b : Nat) (s : State) : Out :=
  aluRow b 0x13 (cycPrec 1 2) (fun v w =>
    if formV w true true true true 0 then
      let x := vreg v (wVs1 w)
      let y := vreg v (wVs2 w)
      let z := vreg v (wVs3 w)
      let p := wPrec w
      some (writeSel v (wVd w) (wMask w) true fun l =>
        resWord p (((srcVal p (x.getD l 0)).mul (srcVal p (y.getD l 0))).add (srcVal p (z.getD l 0))))
    else none) s

/-- VMAX (R179). -/
def execVmax (b : Nat) (s : State) : Out := fp2 b 0x14 maxVal s

/-- VMIN (R179). -/
def execVmin (b : Nat) (s : State) : Out := fp2 b 0x15 minVal s

/-- VABS (R179). -/
def execVabs (b : Nat) (s : State) : Out := fp1 b 0x16 Val.abs s

/-- VNEG (R179). -/
def execVneg (b : Nat) (s : State) : Out := fp1 b 0x17 Val.neg s

/-! ### Copies (R178) -/

/-- VSEL (R176): every active lane. -/
def execVsel (b : Nat) (s : State) : Out :=
  aluRow b 0x18 (cyc 1) (fun v w =>
    if formV w true true true false 0 then
      let x := vreg v (wVs1 w)
      let y := vreg v (wVs2 w)
      some (writeSel v (wVd w) 0 false fun l => if laneSel v (wMask w) l then x.getD l 0 else y.getD l 0)
    else none) s

/-- VMOVI (R178). -/
def execVmovi (b : Nat) (s : State) : Out :=
  aluRow b 0x19 (cyc 1) (fun v w =>
    if formV w true false false false 32 then some (writeSel v (wVd w) (wMask w) false fun _ => BitVec.ofNat 32 (wImm w)) else none) s

/-- VMOV (R178). -/
def execVmov (b : Nat) (s : State) : Out :=
  aluRow b 0x1A (cyc 1) (fun v w =>
    if formV w true true false false 0 then
      let x := vreg v (wVs1 w)
      some (writeSel v (wVd w) (wMask w) false fun l => x.getD l 0)
    else none) s

/-! ### Special functions (R181, R182) -/

/-- VSFN (R181). -/
def execVsfn (b : Nat) (s : State) : Out :=
  vecRow b (fun o => o == 0x20) (cycPrec 2 4) (fun s w =>
    let v := s.vec b
    let fn := wImm w
    let ver := instVersion s 4 b
    if formV w true true false false 4 && decide (fn ≤ 12) then
      let x := vreg v (wVs1 w)
      .done (s.setVec b (writeSel v (wVd w) (wMask w) true fun l =>
        if wPrec w then sfnF fn ver (x.getD l 0) else sfnB fn ver (x.getD l 0)))
    else vIllegal s) s

/-! ### Integers (R180) -/

/-- An integer instruction of two sources. -/
def int2 (b opc : Nat) (f : Word → Word → Word) (s : State) : Out :=
  aluRow b opc (cyc 1) (fun v w =>
    if formV w true true true false 0 then
      let x := vreg v (wVs1 w)
      let y := vreg v (wVs2 w)
      some (writeSel v (wVd w) (wMask w) false fun l => f (x.getD l 0) (y.getD l 0))
    else none) s

/-- An instruction of one source and an immediate of `n` bits that sets no flag. -/
def int1 (b opc n : Nat) (f : Word → Nat → Word) (s : State) : Out :=
  aluRow b opc (cyc 1) (fun v w =>
    if formV w true true false false n then
      let x := vreg v (wVs1 w)
      some (writeSel v (wVd w) (wMask w) false fun l => f (x.getD l 0) (wImm w))
    else none) s

/-- VIADD (R180). -/
def execViadd (b : Nat) (s : State) : Out := int2 b 0x30 (· + ·) s

/-- VISUB (R180). -/
def execVisub (b : Nat) (s : State) : Out := int2 b 0x31 (· - ·) s

/-- VIMUL (R180). -/
def execVimul (b : Nat) (s : State) : Out := int2 b 0x32 (· * ·) s

/-- VIAND (R180). -/
def execViand (b : Nat) (s : State) : Out := int2 b 0x33 (· &&& ·) s

/-- VIOR (R180). -/
def execVior (b : Nat) (s : State) : Out := int2 b 0x34 (· ||| ·) s

/-- VIXOR (R180). -/
def execVixor (b : Nat) (s : State) : Out := int2 b 0x35 (· ^^^ ·) s

/-- VISHL (R180). -/
def execVishl (b : Nat) (s : State) : Out := int1 b 0x36 5 (fun x n => x <<< n) s

/-- VISHR (R180): zero fill. -/
def execVishr (b : Nat) (s : State) : Out := int1 b 0x37 5 (fun x n => x >>> n) s

/-- VIOTA (R178). -/
def execViota (b : Nat) (s : State) : Out :=
  aluRow b 0x38 (cyc 1) (fun v w =>
    if formV w true false false false 32 then some (writeSel v (wVd w) (wMask w) false fun l => BitVec.ofNat 32 (l + wImm w)) else none) s

/-- VI2F (R180): signed integer to FP32, RNE. -/
def execVi2f (b : Nat) (s : State) : Out := int1 b 0x39 0 (fun x _ => toF32 (Val.ofInt (signed 32 x.toNat))) s

/-- FP32 to a signed integer: toward zero, saturated, 0 for NaN (R180). -/
def f2i (x : Word) : Word :=
  match f32 x with
  | .nan => 0
  | .inf neg => if neg then 0x80000000 else 0x7FFFFFFF
  | .fin neg n d =>
    let q := n / d
    if neg then (if 2 ^ 31 ≤ q then 0x80000000 else -(BitVec.ofNat 32 q))
    else (if 2 ^ 31 - 1 < q then 0x7FFFFFFF else BitVec.ofNat 32 q)

/-- VF2I (R180). -/
def execVf2i (b : Nat) (s : State) : Out := int1 b 0x3A 0 (fun x _ => f2i x) s

/-! ### Masks (R183, R184) -/

/-- The condition of VCMP (R183). -/
def vcmpCond (c : Nat) (a b : Word) : Bool :=
  let x := f32 a
  let y := f32 b
  match c with
  | 0 => x.eq y
  | 1 => !x.eq y
  | 2 => x.lt y
  | 3 => x.lt y || x.eq y
  | 4 => y.lt x
  | 5 => y.lt x || x.eq y
  | 6 => x.isNan || y.isNan
  | 7 => !(x.isNan || y.isNan)
  | 8 => a == b
  | 9 => a != b
  | 10 => decide (signed 32 a.toNat < signed 32 b.toNat)
  | _ => decide (a.toNat < b.toNat)

/-- A mask result is legal: not k0, bits [12:11] 0 (R172, R173). -/
def maskDst (w : Nat) : Bool := decide (1 ≤ wVd w) && decide (wVd w ≤ 7)

/-- VCMP (R183). -/
def execVcmp (b : Nat) (s : State) : Out :=
  aluRow b 0x40 (cyc 1) (fun v w =>
    if formV w true true true false 4 && maskDst w && decide (wImm w ≤ 11) then
      let x := vreg v (wVs1 w)
      let y := vreg v (wVs2 w)
      some (setKreg v (wVd w) (maskOf fun l => laneSel v (wMask w) l && vcmpCond (wImm w) (x.getD l 0) (y.getD l 0)))
    else none) s

/-- The operation of VMOP (R184). -/
def vmopBits (op : Nat) (x y : BitVec 1024) : BitVec 1024 :=
  match op with
  | 0 => x &&& y
  | 1 => x ||| y
  | 2 => x ^^^ y
  | 3 => x &&& ~~~y
  | 4 => ~~~x
  | 5 => onesMask
  | _ => 0

/-- VMOP (R184). -/
def execVmop (b : Nat) (s : State) : Out :=
  aluRow b 0x41 (cyc 1) (fun v w =>
    if formV w true true true false 3 && maskDst w && decide (wVs1 w ≤ 7) && decide (wVs2 w ≤ 7) && wMask w == 0 &&
        decide (wImm w ≤ 6)
    then some (setKreg v (wVd w) (vmopBits (wImm w) (kreg v (wVs1 w)) (kreg v (wVs2 w)))) else none) s

/-- VMTRI (R184). -/
def execVmtri (b : Nat) (s : State) : Out :=
  aluRow b 0x42 (cyc 1) (fun v w =>
    if formV w true false false false 9 && maskDst w && wMask w == 0 then
      let o := signed 8 (bits (wImm w) 0 8)
      some (setKreg v (wVd w) (maskOf fun l =>
        let i : Int := (l / 32 : Nat)
        let j : Int := (l % 32 : Nat)
        if bit (wImm w) 8 then decide (i + o ≤ j) else decide (j ≤ i + o)))
    else none) s

/-- VMFROM (R184). -/
def execVmfrom (b : Nat) (s : State) : Out :=
  aluRow b 0x43 (cyc 1) (fun v w =>
    if formV w true true false false 0 && maskDst w && wMask w == 0 then
      let x := vreg v (wVs1 w)
      some (setKreg v (wVd w) (maskOf fun l => x.getD l 0 != 0))
    else none) s

/-! ### Permutations (R185) -/

/-- Write the selected lanes from source lanes; a source out of the shape gives +0 and sets PERM_OOR. -/
def permute (v : Vec) (w : Nat) (src : Nat → Option Nat) : Vec :=
  let x := vreg v (wVs1 w)
  let v1 := writeSel v (wVd w) (wMask w) false fun l => match src l with | some k => x.getD k 0 | none => 0
  if (List.range 1024).any fun l => laneSel v (wMask w) l && (src l).isNone then setFlags v1 2 else v1

/-- VPERMR (R185). -/
def execVpermr (b : Nat) (s : State) : Out :=
  aluRow b 0x50 (cyc 1) (fun v w =>
    if formV w true true true false 0 then
      let y := vreg v (wVs2 w)
      some (permute v w fun l => let i := (y.getD l 0).toNat; if i < v.cols then some (l / 32 * 32 + i) else none)
    else none) s

/-- VPERMC (R185). -/
def execVpermc (b : Nat) (s : State) : Out :=
  aluRow b 0x51 (cyc 1) (fun v w =>
    if formV w true true true false 0 then
      let y := vreg v (wVs2 w)
      some (permute v w fun l => let i := (y.getD l 0).toNat; if i < v.rows then some (i * 32 + l % 32) else none)
    else none) s

/-- VTRANS (R185). -/
def execVtrans (b : Nat) (s : State) : Out :=
  aluRow b 0x52 (cyc 2) (fun v w =>
    if formV w true true false false 0
    then some (permute v w fun l => let k := l % 32 * 32 + l / 32; if laneActive v k then some k else none) else none) s

/-- VROTC (R185). -/
def execVrotc (b : Nat) (s : State) : Out :=
  aluRow b 0x53 (cyc 1) (fun v w =>
    if formV w true true false false 5
    then some (permute v w fun l => some (l / 32 * 32 + (l % 32 + wImm w) % v.cols)) else none) s

/-- VBCR (R185). -/
def execVbcr (b : Nat) (s : State) : Out :=
  aluRow b 0x54 (cyc 1) (fun v w =>
    if formV w true true false false 5
    then some (permute v w fun l => if wImm w < v.rows then some (wImm w * 32 + l % 32) else none) else none) s

/-- VBCC (R185). -/
def execVbcc (b : Nat) (s : State) : Out :=
  aluRow b 0x55 (cyc 1) (fun v w =>
    if formV w true true false false 5
    then some (permute v w fun l => if wImm w < v.cols then some (l / 32 * 32 + wImm w) else none) else none) s

/-! ### The rake (R186) -/

/-- A node of the tree. -/
def node (f : Word → Word → Word) : Option Word → Option Word → Option Word
  | some x, some y => some (f x y)
  | some x, none => some x
  | none, y => y

/-- One level of the tree. -/
def level (f : Word → Word → Word) : List (Option Word) → List (Option Word)
  | x :: y :: r => node f x y :: level f r
  | l => l

/-- The tree over 32 positions. -/
def rake (f : Word → Word → Word) (l : List (Option Word)) : Option Word :=
  ((level f (level f (level f (level f (level f l))))).head?).join

/-- What a position gives to a reduction. -/
def redLeaf (op : Nat) (w : Word) : Word :=
  match op with
  | 3 => toF32 (f32 w).abs
  | 4 => if (f32 w).isZero then 0 else 0x3F800000
  | _ => toF32 (f32 w)

/-- How a reduction combines (R186). -/
def redOp (op : Nat) : Word → Word → Word :=
  match op with
  | 1 => vmax
  | 2 => vmin
  | 3 => vmax
  | _ => fadd

/-- The result of an empty reduction. -/
def redEmpty (op : Nat) : Word := match op with | 1 => 0xFF800000 | 2 => 0x7F800000 | _ => 0

/-- The positions of a row, of a column. -/
def rowLanes (i : Nat) : List Nat := (List.range 32).map fun j => i * 32 + j
def colLanes (j : Nat) : List Nat := (List.range 32).map fun i => i * 32 + j

/-- Reduce the selected lanes of a list of positions. -/
def reduceLanes (v : Vec) (op m : Nat) (x : List Word) (ls : List Nat) : Option Word :=
  rake (redOp op) (ls.map fun l => if laneSel v m l then some (redLeaf op (x.getD l 0)) else none)

/-- Reduce the whole tile: rows, then their results by the same tree. -/
def reduceFull (v : Vec) (op m : Nat) (x : List Word) : Option Word :=
  rake (redOp op) ((List.range 32).map fun i => reduceLanes v op m x (rowLanes i))

/-- A reduction is legal. -/
def redLegal (w : Nat) : Bool := formV w true true false false 3 && decide (wImm w ≤ 4)

/-- Write the results of a reduction; an empty one sets no flag. -/
def writeRed (v : Vec) (w : Nat) (rs : List (Nat × Option Word)) : Vec :=
  noteVals (writeLanes v (wVd w) (rs.map fun r => (r.1, r.2.getD (redEmpty (wImm w))))) (rs.filterMap (·.2))

/-- VREDR (R186). -/
def execVredr (b : Nat) (s : State) : Out :=
  aluRow b 0x60 (cyc 2) (fun v w =>
    if redLegal w then
      let x := vreg v (wVs1 w)
      some (writeRed v w ((List.range v.rows).map fun i => (i * 32, reduceLanes v (wImm w) (wMask w) x (rowLanes i))))
    else none) s

/-- VREDC (R186). -/
def execVredc (b : Nat) (s : State) : Out :=
  aluRow b 0x61 (cyc 2) (fun v w =>
    if redLegal w then
      let x := vreg v (wVs1 w)
      some (writeRed v w ((List.range v.cols).map fun j => (j, reduceLanes v (wImm w) (wMask w) x (colLanes j))))
    else none) s

/-- VREDF (R186). -/
def execVredf (b : Nat) (s : State) : Out :=
  aluRow b 0x62 (cyc 4) (fun v w =>
    if redLegal w then some (writeRed v w [(0, reduceFull v (wImm w) (wMask w) (vreg v (wVs1 w)))]) else none) s

/-- VSUMM (R201): the block summary. -/
def execVsumm (b : Nat) (s : State) : Out :=
  aluRow b 0x05 (cyc 4) (fun v w =>
    if formV w false true false false 0 then
      let x := vreg v (wVs1 w)
      let m := wMask w
      let n := (List.range 1024).countP fun l => laneSel v m l && !(f32 (x.getD l 0)).isZero
      some { v with sum := { v.sum with
        max := bf16Of ((reduceFull v 1 m x).getD 0xFF800000), min := bf16Of ((reduceFull v 2 m x).getD 0x7F800000),
        sum := (reduceFull v 0 m x).getD 0, nonzero := n, valid := true } }
    else none) s

/-! ### Scans (R187, R188) -/

/-- One step of a scan. -/
def scanStep (op : Nat) (h x y : Word) : Word := match op with | 0 => fadd h x | 1 => vmax h x | _ => ffma x h y

/-- Scan positions in order: the lanes written and the final running value. -/
def scanRun (v : Vec) (op m : Nat) (x y : List Word) : Word → List Nat → List (Nat × Word) × Word
  | h, [] => ([], h)
  | h, l :: ls =>
    if laneSel v m l then
      let h1 := scanStep op h (x.getD l 0) (y.getD l 0)
      let (out, hf) := scanRun v op m x y h1 ls
      ((l, h1) :: out, hf)
    else scanRun v op m x y h ls

/-- VSCAN (R187, R188). -/
def execVscan (b : Nat) (s : State) : Out :=
  aluRow b 0x70 (fun w => if bits (wImm w) 0 2 = 2 then 64 else 32) (fun v w =>
    let op := bits (wImm w) 0 2
    if formV w true true true false 4 && op != 3 then
      let x := vreg v (wVs1 w)
      let y := vreg v (wVs2 w)
      let cols := bit (wImm w) 2
      let start := fun i => if bit (wImm w) 3 then tget 0 v.carry i else if op = 1 then 0xFF800000 else (0 : Word)
      let lines := List.range (if cols then v.cols else v.rows)
      let runs := lines.map fun i =>
        scanRun v op (wMask w) x y (start i)
          (if cols then (colLanes i).take v.rows else (rowLanes i).take v.cols)
      let out := (runs.map (·.1)).flatten
      let v1 := noteVals (writeLanes v (wVd w) out) (out.map (·.2))
      some { v1 with carry := (runs.zipIdx).foldl (fun t r => tset 0 t r.2 r.1.2) v1.carry }
    else none) s

/-! ### Softmax (R189, R190) -/

/-- What a row of a softmax gives: its lanes' values by column, m, s, flags. -/
structure SmxRow where
  out : List Word
  m : Word
  s : Word
  flags : Nat
  deriving DecidableEq, Repr

/-- The softmax of one row: for each column, its entry when it is selected. -/
def smxRow (ver : Word) (prec : Bool) (es : List (Option Word)) : SmxRow :=
  let sel := es.filterMap id
  let zeros := es.map fun _ => (0 : Word)
  let k := sel.countP fun w => f32 w == .inf false
  if sel.any fun w => (f32 w).isNan then
    { out := es.map fun _ => 0x7FC00000, m := 0x7FC00000, s := 0x7FC00000, flags := 9 }
  else if 0 < k then
    let q := resWord prec (.fin false 1 k)
    { out := es.map fun e => if e.map f32 = some (.inf false) then q else 0, m := 0x7F800000, s := toF32 (.fin false k 1), flags := 0 }
  else if sel.all fun w => f32 w == .inf true then
    { out := zeros, m := 0xFF800000, s := 0, flags := 4 }
  else
    let pad := es ++ List.replicate (32 - es.length) none
    let m := (rake vmax (pad.map fun e => e.map (redLeaf 1))).getD 0
    let e := pad.map fun x => x.map fun w => sfnF 1 ver (toF32 ((f32 w).add (f32 m).neg))
    let sum := (rake fadd e).getD 0
    let q := sfnF 4 ver sum
    { out := es.zipIdx.map fun x => match x.1 with
        | some _ => let p := fmul ((e.getD x.2 none).getD 0) q
                    if prec then p else toF32 (b16 (f32 p))
        | none => 0,
      m := m, s := sum, flags := 0 }

/-- VSMX (R189, R190). -/
def execVsmx (b : Nat) (s : State) : Out :=
  vecRow b (fun o => o == 0x80) (cyc 16) (fun s w =>
    let v := s.vec b
    if formV w true true true false 1 then
      let x := vreg v (wVs1 w)
      let ver := instVersion s 4 b
      let rows := (List.range v.rows).map fun i =>
        (i, smxRow ver (wPrec w) ((List.range v.cols).map fun j =>
          if laneSel v (wMask w) (i * 32 + j) then some (x.getD (i * 32 + j) 0) else none))
      let outs := rows.flatMap fun r => r.2.out.zipIdx.map fun o => (r.1 * 32 + o.2, o.1)
      let v1 := noteVals (writeLanes v (wVd w) outs) (outs.map (·.2))
      let rs := if bit (wImm w) 0 then rows.flatMap fun r => [(r.1 * 32, r.2.m), (r.1 * 32 + 1, r.2.s)] else []
      let v2 := writeLanes v1 (wVs2 w) rs
      let v3 := noteVals v2 ((rs.filter fun r => r.2 != 0xFF800000).map (·.2))
      .done (s.setVec b (setFlags v3 (rows.foldl (fun n r => n ||| r.2.flags) 0)))
    else vIllegal s) s

/-! ### Optimizer (R199, R200) -/

/-- One lane of the update: w′, m′, v′. -/
def adamLane (p : Nat → Word) (w m v g : Word) : Word × Word × Word :=
  let t1 := fmul g g
  let t2 := fmul (p 3) t1
  let v' := ffma (p 2) v t2
  let t3 := fmul (p 1) g
  let m' := ffma (p 0) m t3
  let t4 := fmul (p 8) v'
  let t5 := toF32 (sqrtVal (f32 t4))
  let t6 := fadd t5 (p 5)
  let t7 := fmul (p 7) m'
  let u := toF32 ((f32 t7).div (f32 t6))
  let t8 := fmul (p 6) w
  let t9 := fadd u t8
  (toF32 ((f32 w).add ((f32 (p 4)).mul (f32 t9)).neg), m', v')

/-- VADAM (R200). -/
def execVadam (b : Nat) (s : State) : Out :=
  aluRow b 0x90 (cyc 20) (fun v w =>
    if formV w true true true true 1 then
      let set := if bit (wImm w) 0 then 32 else 0
      let xw := vreg v (wVd w)
      let xm := vreg v (wVs1 w)
      let xv := vreg v (wVs2 w)
      let xg := vreg v (wVs3 w)
      let r := (List.range 1024).map fun l =>
        adamLane (fun i => tget 0 v.params (set + i)) (xw.getD l 0) (xm.getD l 0) (xv.getD l 0) (xg.getD l 0)
      let get := fun l => r.getD l (0, 0, 0)
      let v1 := writeSel v (wVd w) (wMask w) true fun l => (get l).1
      let v2 := writeSel v1 (wVs1 w) (wMask w) true fun l => (get l).2.1
      some (writeSel v2 (wVs2 w) (wMask w) true fun l => (get l).2.2)
    else none) s

end Sys2Proof.Machine
end

