-- ==== Sys2Proof/Machine/OvsTiles.lean ====
section
/-! DEFINITION. The operations of MUL, SFN, MEM and SLU tiles (12, R353 to R364). Each command is one firing of one tile; a firing
that is not due changes nothing (log entry 2). -/

namespace Sys2Proof.Machine

open Sys2Proof

/-! ### Payloads (R347) -/

/-- The FP32 element `i` of a payload. -/
def elem2 (k : Token) (i : Nat) : Word := BitVec.ofNat 32 (k.payload.toNat / 2 ^ (32 * i))

/-- A payload of two 32-bit elements. -/
def pair2 (lo hi : Word) : Nat := lo.toNat + hi.toNat * 2 ^ 32

/-- The elements of a payload in FMT 0 F4, 1 F8, 2 I8. -/
def elemsOf (fmt : Nat) (p : Nat) : List Val :=
  if fmt = 0 then (List.range 16).map fun i => decodeFmt fF4 (bits p (4 * i) 4)
  else if fmt = 1 then (List.range 8).map fun i => decodeFmt fF8 (bits p (8 * i) 8)
  else (List.range 8).map fun i => Val.ofInt (signed 8 (bits p (8 * i) 8))

/-- FP32 words that are infinite or NaN (R354). -/
def nonfinCount (ws : List Word) : Nat := ws.countP fun w => !(f32 w).isFin

/-- The NONFINITE counter of R390 over some results. -/
def nonfinCnt (ws : List Word) : List (Nat × Nat) := if nonfinCount ws = 0 then [] else [(6, nonfinCount ws)]

/-! ### MUL tiles (R355, R356) -/

/-- The sum of the products of a token and a weight row, exact (R356). -/
def dotSum (fmt a w : Nat) : Val := ((elemsOf fmt a).zip (elemsOf fmt w)).foldl (fun s p => s.add (p.1.mul p.2)) Val.zero

/-- An accumulator after one MAC cycle (R356): the token sum as FP32 (F8 rounds once, F4 and I8 are exact), added RNE. -/
def dotMac (fmt : Nat) (acc : Word) (a w : Nat) : Word := fadd acc (toF32 (dotSum fmt a w))

/-- Weight row (i, j) of the store. -/
def weightRow (t : Tile) (jn i j : Nat) : Nat := fieldLE t.weights ((i * jn + j) * 8) 8

/-- The results of a group (R356): accumulator j times scale j, two to a token, LAST on the final one. The upper element of the
last token of an odd J is free, and so are the scales of a DOTW tile without a weight record: functions of the accumulators and the
configuration, so that the firing keeps R102 and R352 (log entry 24). -/
def dotResults (x : Fabric) (t : Tile) (jn : Nat) : List Token × List (Nat × Nat) :=
  let free := Config.tileElem (t.p0.toNat :: t.accs.map (·.toNat))
  let scale := fun j => if t.scales.isEmpty then (free j).toNat % 2 ^ 16 else (t.scales.getD j 0).toNat
  let rs := (List.range jn).map fun j => fmul (t.accs.getD j 0) (BitVec.ofNat 32 (scale j * 2 ^ 16))
  let ws := if jn % 2 = 1 then rs ++ [free jn] else rs
  let n := cdiv jn 2
  ((List.range n).map fun u => x.tok (pair2 (ws.getD (2 * u) 0) (ws.getD (2 * u + 1) 0)) false (u + 1 == n), nonfinCnt rs)

/-- A token of a group of a DOT is done: the group ends after token C − 1, which must carry LAST (R356). -/
def dotNext (x : Fabric) (t : Tile) (jn cn : Nat) (k : Token) : Fire :=
  if k.last then
    let r := dotResults x t jn
    { tile := { t with accs := [], pos := 0, wptr := 0 }, out0 := r.1, cnts := r.2 }
  else { tile := { t with pos := (t.pos + 1) % cn, wptr := 0 } }

/-- LAST on another token than C − 1 (R356). -/
def dotLenBad (t : Tile) (cn : Nat) (k : Token) : Bool := k.last != (t.pos + 1 == cn)

/-- DOT (R355, R356). -/
def execDot (f t : Nat) (s : State) : Out :=
  fireOp 0 1 (fireData fun x _ tl _ =>
    let fmt := bits tl.p0.toNat 0 2
    let cn := bits tl.p0.toNat 8 8
    let jn := bits tl.p0.toNat 16 8
    match headOf tl.a with
    | none => none
    | some k =>
      let tl1 := { tl with a := tl.a.drop 1 }
      if dotLenBad tl cn k then some { tile := tl1, fault := fGroupLen }
      else if k.last ∧ !tl.room 0 then none
      else
        let accs := (List.range jn).map fun j => dotMac fmt (tl.accs.getD j 0) k.payload.toNat (weightRow tl jn tl.pos j)
        some (dotNext x { tl1 with accs := accs } jn cn k)) f t s

/-- DOTW (R355, R356): one MAC cycle with the next weight token; the input token goes with its last one. DOTW has no weight store,
and its scales are those of its weight record, if it has one. -/
def execDotw (f t : Nat) (s : State) : Out :=
  fireOp 0 2 (fireData fun x _ tl _ =>
    let fmt := bits tl.p0.toNat 0 2
    let cn := bits tl.p0.toNat 8 8
    let jn := bits tl.p0.toNat 16 8
    match headOf tl.a, headOf tl.b with
    | some k, some w =>
      let tl1 := { tl with b := tl.b.drop 1 }
      if dotLenBad tl cn k then some { tile := { tl1 with a := tl.a.drop 1 }, fault := fGroupLen }
      else
        let accs := setAt (padTo 0 jn tl.accs) tl.wptr (dotMac fmt (tl.accs.getD tl.wptr 0) k.payload.toNat w.payload.toNat)
        if tl.wptr + 1 < jn then some { tile := { tl1 with accs := accs, wptr := tl.wptr + 1 } }
        else if k.last ∧ !tl.room 0 then none
        else some (dotNext x { tl1 with a := tl.a.drop 1, accs := accs } jn cn k)
    | _, _ => none) f t s

/-- An element-wise operation (R355): one token of each port, LAST of the a token. -/
def fire2 (ports : Nat) (g : Word → Word → Word → Word) (x : Fabric) (_ : Nat) (tl : Tile) (_ : Nat) : Option Fire :=
  match headOf tl.a with
  | none => none
  | some k =>
    if !tl.room 0 ∨ tl.b.isEmpty ∨ (ports = 3 ∧ tl.c.isEmpty) then none
    else
      let b := (headOf tl.b).getD k
      let c := (headOf tl.c).getD k
      let lo := g (elem2 k 0) (elem2 b 0) (elem2 c 0)
      let hi := g (elem2 k 1) (elem2 b 1) (elem2 c 1)
      some { tile := { tl with a := tl.a.drop 1, b := tl.b.drop 1, c := if ports = 3 then tl.c.drop 1 else tl.c },
             out0 := [x.tok (pair2 lo hi) false k.last], cnts := nonfinCnt [lo, hi] }

/-- ADD2 (R355). -/
def execAdd2 (f t : Nat) (s : State) : Out := fireOp 0 3 (fireData (fire2 2 fun a b _ => fadd a b)) f t s

/-- MUL2 (R355). -/
def execMul2 (f t : Nat) (s : State) : Out := fireOp 0 4 (fireData (fire2 2 fun a b _ => fmul a b)) f t s

/-- FMA2 (R355): one rounding. -/
def execFma2 (f t : Nat) (s : State) : Out := fireOp 0 5 (fireData (fire2 3 ffma)) f t s

/-- MAX2 (R355, R179). -/
def execMax2 (f t : Nat) (s : State) : Out := fireOp 0 6 (fireData (fire2 2 fun a b _ => vmax a b)) f t s

/-- BIAS2 (R355): pair k of the group plus scales 2k and 2k + 1. A pair beyond the number of bias pairs, or a tile without a weight
record, has no stated result: the element is free, as a function of the token and its place in the group (log entry 24). -/
def execBias2 (f t : Nat) (s : State) : Out :=
  fireOp 0 7 (fireData fun x _ tl _ =>
    match headOf tl.a with
    | none => none
    | some k =>
      if !tl.room 0 then none
      else
        let known := decide (tl.pos < bits tl.p0.toNat 0 7) && !tl.scales.isEmpty
        let scale := fun i => BitVec.ofNat 32 ((tl.scales.getD (2 * tl.pos + i) 0).toNat * 2 ^ 16)
        let one := fun i => if known then fadd (elem2 k i) (scale i) else Config.tileElem [tl.p0.toNat, tl.pos, k.payload.toNat] i
        some { tile := { tl with a := tl.a.drop 1, pos := if k.last then 0 else tl.pos + 1 },
               out0 := [x.tok (pair2 (one 0) (one 1)) false k.last], cnts := nonfinCnt [one 0, one 1] }) f t s

/-! ### SFN tiles (R357) -/

/-- A function code of an SFN tile: R181, 13 RELU, 14 NONE. -/
def tileFn (fn : Nat) (ver w : Word) : Word :=
  if fn = 13 then vmax w 0 else if fn = 14 then (if (f32 w).isNan then 0x7FC00000 else w) else sfnF fn ver w

/-- OVS_SFN_VER (R352): the version of the special-function tables of a fabric. -/
def ovsSfnVer (s : State) (f : Nat) : Word := instVersion s 4 (256 + f)

/-- FUNC2 (R357): function code 15 is a CTRL_BAD fault. -/
def execFunc2 (f t : Nat) (s : State) : Out :=
  fireOp 1 1 (fireData fun x _ tl _ =>
    let fn := bits tl.p0.toNat 0 4
    match headOf tl.a with
    | none => none
    | some k =>
      if fn = 15 then some { tile := { tl with a := tl.a.drop 1 }, fault := fCtrlBad }
      else if !tl.room 0 then none
      else
        let lo := tileFn fn (ovsSfnVer s f) (elem2 k 0)
        let hi := tileFn fn (ovsSfnVer s f) (elem2 k 1)
        some { tile := { tl with a := tl.a.drop 1 }, out0 := [x.tok (pair2 lo hi) false k.last],
               cnts := nonfinCnt [lo, hi] }) f t s

/-- A value as an I8 (R357): rounded to an integer RNE, saturated at ±127; a NaN is code 0. -/
def toI8 (v : Val) : Nat × Bool :=
  match v with
  | .nan => (0, false)
  | .inf neg => (if neg then 0x81 else 127, true)
  | .fin neg n d =>
    let q := n / d
    let r := 2 * (n % d)
    let m := if r < d then q else if d < r then q + 1 else if q % 2 = 0 then q else q + 1
    let sat := decide (127 < m)
    let m1 := min m 127
    (if neg ∧ m1 ≠ 0 then 256 - m1 else m1, sat)

/-- One packed element (R357): its code and whether it saturated. An infinity is the canonical NaN of F8 (R87); in F4, which has no
code for it, and in I8 it saturates. DESIGN CHOICE for those two (log entry 71). -/
def packElem (fmt : Nat) (v : Val) : Nat × Bool :=
  if fmt = 2 then toI8 v
  else if fmt = 0 then
    match v with
    | .nan => (0, false)
    | .inf neg => (fF4.top + signBit fF4 neg, true)
    | _ => convert fF4 .rne 0 v
  else convert fF8 .rne 0 v

/-- The element is counted NONFINITE (R354, R357): a NaN, or an infinity that becomes the NaN of F8. -/
def packNan (fmt : Nat) (v : Val) : Bool := v.isNan || (fmt == 1 && v.isInf)

/-- The packed token of a group, with what it counts. -/
def packGroup (x : Fabric) (ver : Word) (tl : Tile) (g : List Token) : List Token × List (Nat × Nat) :=
  let fn := bits tl.p0.toNat 0 4
  let fmt := bits tl.p0.toNat 4 2
  let w := if fmt = 0 then 4 else 8
  let scale := BitVec.ofNat 32 (bits tl.p1.toNat 0 16 * 2 ^ 16)
  let vs := (g.flatMap fun k => [elem2 k 0, elem2 k 1]).map fun e => f32 (fmul (tileFn fn ver e) scale)
  let cs := vs.map (packElem fmt)
  let p := (cs.zipIdx.map fun c => c.1.1 * 2 ^ (w * c.2)).sum
  let nan := vs.countP (packNan fmt)
  let sat := cs.countP (·.2)
  ([x.tok p false (bit tl.p0.toNat 6)], (if nan = 0 then [] else [(6, nan)]) ++ (if sat = 0 then [] else [(7, sat)]))

/-- ACTPACK (R357): groups of 4 tokens (F8, I8) or 8 (F4); another length is a GROUP_LEN fault. -/
def execActpack (f t : Nat) (s : State) : Out :=
  fireOp 1 2 (fireData fun x _ tl _ =>
    let len := if bits tl.p0.toNat 4 2 = 0 then 8 else 4
    match headOf tl.a with
    | none => none
    | some k =>
      let tl1 := { tl with a := tl.a.drop 1 }
      if bits tl.p0.toNat 0 4 = 15 then some { tile := tl1, fault := fCtrlBad }
      else if k.last != (tl.group.length + 1 == len) then some { tile := { tl1 with group := [] }, fault := fGroupLen }
      else if k.last then
        if tl.room 0 then
          let (out, cnts) := packGroup x (ovsSfnVer s f) tl (tl.group ++ [k])
          some { tile := { tl1 with group := [] }, out0 := out, cnts := cnts }
        else none
      else some { tile := { tl1 with group := tl.group ++ [k] } }) f t s

/-- UNPACK (R357). -/
def execUnpack (f t : Nat) (s : State) : Out :=
  fireOp 1 3 (fireData fun x _ tl _ =>
    match headOf tl.a with
    | none => none
    | some k =>
      if !tl.room 0 then none
      else
        let es := (elemsOf (bits tl.p0.toNat 0 2) k.payload.toNat).map toF32
        let n := es.length / 2
        some { tile := { tl with a := tl.a.drop 1 },
               out0 := (List.range n).map fun i => x.tok (pair2 (es.getD (2 * i) 0) (es.getD (2 * i + 1) 0)) false (i + 1 == n),
               cnts := nonfinCnt es }) f t s

/-- The index of the largest element of a list with its value, ties to the lower index (R357). -/
def argmaxOf : List Word → Nat → Nat × Word → Nat × Word
  | [], _, best => best
  | w :: ws, i, best => argmaxOf ws (i + 1) (if (f32 best.2).lt (f32 w) then (i, w) else best)

/-- ARGMAX (R357): one token for a group; a NaN anywhere gives index 0xFFFF_FFFF and the canonical NaN. -/
def execArgmax (f t : Nat) (s : State) : Out :=
  fireOp 1 4 (fireData fun x _ tl _ =>
    match headOf tl.a with
    | none => none
    | some k =>
      let tl1 := { tl with a := tl.a.drop 1 }
      if !k.last then some { tile := { tl1 with group := tl.group ++ [k] } }
      else if !tl.room 0 then none
      else
        let es := (tl.group ++ [k]).flatMap fun k => [elem2 k 0, elem2 k 1]
        let r := if es.any fun e => (f32 e).isNan then (0xFFFFFFFF, 0x7FC00000) else argmaxOf (es.drop 1) 1 (0, es.getD 0 0)
        some { tile := { tl1 with group := [] }, out0 := [x.tok (r.1 % 2 ^ 32 + r.2.toNat * 2 ^ 32) false true],
               cnts := nonfinCnt [r.2] }) f t s

/-- A SEL control token (R363). -/
def selTok (x : Fabric) (sel : Nat) : Token := x.tok (0x01 + sel * 256) true false

/-- THRESH (R357): 0 below T0, 1 from T0 below T1, 2 from T1 or for a NaN. A threshold that is NaN is below nothing. -/
def execThresh (f t : Nat) (s : State) : Out :=
  fireOp 1 5 (fireData fun x _ tl _ =>
    match headOf tl.a with
    | none => none
    | some k =>
      if !tl.room 0 then none
      else
        let v := f32 (elem2 k 0)
        let sel := if v.lt (f32 tl.p0) then 0 else if v.lt (f32 tl.p1) then 1 else 2
        some { tile := { tl with a := tl.a.drop 1 }, out0 := [selTok x sel] }) f t s

/-- CLASSIFY (R357). -/
def execClassify (f t : Nat) (s : State) : Out :=
  fireOp 1 6 (fireData fun x _ tl _ =>
    match headOf tl.a with
    | none => none
    | some k =>
      if !tl.room 0 then none
      else
        let i := (elem2 k 0).toNat
        some { tile := { tl with a := tl.a.drop 1 },
               out0 := [selTok x (if i < 16 then bits tl.p0.toNat (2 * i) 2 else 2)] }) f t s

/-! ### MEM tiles (R358) -/

/-- Word `i` of a MEM tile. -/
def memWord (x : Fabric) (t i : Nat) : Dword := tget 0 x.mems (t * 4096 + i)

/-- BASE and SIZE of a region. -/
def regBase (tl : Tile) : Nat := bits tl.p0.toNat 0 12
def regSize (tl : Tile) : Nat := bits tl.p1.toNat 0 13

/-- TABLE (R358): an index beyond SIZE gives 0 and is counted. -/
def execTable (f t : Nat) (s : State) : Out :=
  fireOp 2 1 (fireData fun x t tl _ =>
    match headOf tl.a with
    | none => none
    | some k =>
      if !tl.room 0 then none
      else
        let i := (elem2 k 0).toNat
        let ok := decide (i < regSize tl)
        some { tile := { tl with a := tl.a.drop 1 },
               out0 := [x.tok (if ok then (memWord x t (regBase tl + i)).toNat else 0) false k.last],
               cnts := if ok then [] else [(8, 1)] }) f t s

/-- READ (R358): a group of words from an offset, wrapping in the region. -/
def execRead (f t : Nat) (s : State) : Out :=
  fireOp 2 2 (fireData fun x t tl _ =>
    match headOf tl.a with
    | none => none
    | some k =>
      if !tl.room 0 then none
      else
        let n := bits tl.p2.toNat 0 13
        let o := (elem2 k 0).toNat
        some { tile := { tl with a := tl.a.drop 1 },
               out0 := (List.range n).map fun i =>
                 x.tok (memWord x t (regBase tl + (o + i) % regSize tl)).toNat false (i + 1 == n) }) f t s

/-- WRITE (R358): payloads to successive words; after LAST, a token with the group's word count. -/
def execWrite (f t : Nat) (s : State) : Out :=
  fireOp 2 3 (fireData fun x _ tl _ =>
    match headOf tl.a with
    | none => none
    | some k =>
      if k.last ∧ !tl.room 0 then none
      else
        let w := (regBase tl + tl.wptr % regSize tl, k.payload)
        let n := tl.count.toNat + 1
        let tl1 := { tl with a := tl.a.drop 1 }
        if k.last then some { tile := { tl1 with wptr := 0, count := 0 }, out0 := [x.tok n false true], mem := [w] }
        else some { tile := { tl1 with wptr := tl.wptr + 1, count := BitVec.ofNat 32 n }, mem := [w] }) f t s

/-- FIFO (R358): the tokens of a in order, control tokens in their turn (R353), with up to SIZE held; their payloads stand in the
words of the region. -/
def execFifo (f t : Nat) (s : State) : Out :=
  fireOp 2 4 (fun _ _ tl _ =>
    let takes := decide (tl.fifo.length < regSize tl) && !tl.a.isEmpty
    let held := if takes then tl.fifo ++ tl.a.take 1 else tl.fifo
    let gives := tl.room 0 && !held.isEmpty
    let tl1 := { tl with a := if takes then tl.a.drop 1 else tl.a, fifo := if gives then held.drop 1 else held,
                         wptr := if takes then (tl.wptr + 1) % regSize tl else tl.wptr }
    if takes ∨ gives then
      some { tile := tl1, out0 := if gives then held.take 1 else [],
             mem := if takes then (tl.a.take 1).map fun k => (regBase tl + tl.wptr % regSize tl, k.payload) else [] }
    else none) f t s

/-! ### Sluices (R361 to R364) -/

/-- The code of a control token, and its arguments (R363). -/
def ctlCode (k : Token) : Nat := bits k.payload.toNat 0 8
def ctlSel (k : Token) : Nat := bits k.payload.toNat 8 2
def ctlN (k : Token) : Nat := bits k.payload.toNat 8 24

/-- An element ends with this token (R361). -/
def elemEnds (tl : Tile) (k : Token) : Bool := !tl.grain || k.last

/-- A tile whose element is open after a token, or is done. -/
def passed (tl : Tile) (k : Token) (ctl : Option Token) : Tile :=
  if elemEnds tl k then { tl with groupOpen := false, sel := none } else { tl with groupOpen := true, sel := ctl }

/-- The control token that governs the next token of data: the one of the open element, else the head of c (R362), with the tile
after it is taken. -/
def nextCtl (tl : Tile) : Option (Token × Tile) :=
  match tl.sel with
  | some c => some (c, tl)
  | none =>
    match headOf tl.c with
    | some c => some (c, { tl with c := tl.c.drop 1 })
    | none => none

/-- STEER (R364). -/
def execSteer (f t : Nat) (s : State) : Out :=
  fireOp 4 1 (fun _ _ tl _ =>
    match nextCtl tl, headOf tl.a with
    | some (c, tl1), some k =>
      if !c.ctrl ∨ ctlCode c ≠ 0x01 then some { tile := tl1, fault := fCtrlBad }
      else
        let sel := ctlSel c
        let to0 := sel == 0 || sel == 3
        let to1 := sel == 1 || sel == 3
        if (to0 ∧ !tl.room 0) ∨ (to1 ∧ !tl.room 1) then none
        else some { tile := passed { tl1 with a := tl.a.drop 1 } k (some c), out0 := if to0 then [k] else [],
                    out1 := if to1 then [k] else [] }
    | some (c, tl1), none =>
      if !c.ctrl ∨ ctlCode c ≠ 0x01 then some { tile := tl1, fault := fCtrlBad } else none
    | none, _ => none) f t s

/-- MERGE (R364): SEL 2 or 3, or any other code, is CTRL_BAD. -/
def execMerge (f t : Nat) (s : State) : Out :=
  fireOp 4 2 (fun _ _ tl _ =>
    match nextCtl tl with
    | none => none
    | some (c, tl1) =>
      if !c.ctrl ∨ ctlCode c ≠ 0x01 ∨ 2 ≤ ctlSel c then some { tile := tl1, fault := fCtrlBad }
      else
        match headOf (tl.inq (ctlSel c)) with
        | none => none
        | some k =>
          if !tl.room 0 then none
          else some { tile := passed (tl1.setInq (ctlSel c) ((tl.inq (ctlSel c)).drop 1)) k (some c), out0 := [k] }) f t s

/-- The n of a control token for REPEAT and GEN (R364): its own for REPEAT, PARAM0 for GO; none for another code or a data token. -/
def repeatN (tl : Tile) (c : Token) : Option Nat :=
  if !c.ctrl then none
  else if ctlCode c = 0x02 then some (ctlN c)
  else if ctlCode c = 0x03 then some (bits tl.p0.toNat 0 24)
  else none

/-- REPEAT (R364): the element passes once as its tokens reach the head, held in `group`, and then again until it has been emitted
n times. `rep` counts the passes still to come, the running one included. An n of 0 is outside its range: CTRL_BAD. -/
def execSluRepeat (f t : Nat) (s : State) : Out :=
  fireOp 4 3 (fun _ _ tl _ =>
    if tl.rep ≠ 0 ∧ !tl.groupOpen then
      match headOf (tl.group.drop tl.pos) with
      | none => none
      | some k =>
        if !tl.room 0 then none
        else
          let fin := decide (tl.group.length ≤ tl.pos + 1)
          let left := if fin then tl.rep - 1 else tl.rep
          some { tile := { tl with pos := if fin then 0 else tl.pos + 1, rep := left,
                                   group := if left = 0 then [] else tl.group }, out0 := [k] }
    else
      match nextCtl tl with
      | none => none
      | some (c, tl1) =>
        match repeatN tl c with
        | none => some { tile := tl1, fault := fCtrlBad }
        | some 0 => some { tile := tl1, fault := fCtrlBad }
        | some (n + 1) =>
          match headOf tl.a with
          | none => none
          | some k =>
            if !tl.room 0 then none
            else
              let tl2 := passed { tl1 with a := tl.a.drop 1, group := tl.group ++ [k], pos := 0 } k (some c)
              if tl2.groupOpen then some { tile := { tl2 with rep := n + 1 }, out0 := [k] }
              else some { tile := { tl2 with rep := n, group := if n = 0 then [] else tl2.group }, out0 := [k] }) f t s

/-- ZIP (R364): NA elements of a, then NB of b. -/
def execZip (f t : Nat) (s : State) : Out :=
  fireOp 4 4 (fun _ _ tl _ =>
    let na := bits tl.p0.toNat 0 16
    let nb := bits tl.p1.toNat 0 16
    let p := if tl.zipA < na then 0 else 1
    match headOf (tl.inq p) with
    | none => none
    | some k =>
      if !tl.room 0 then none
      else
        let z := if elemEnds tl k then (tl.zipA + 1) % (na + nb) else tl.zipA
        some { tile := passed { tl.setInq p ((tl.inq p).drop 1) with zipA := z } k none, out0 := [k] }) f t s

/-- COUNT (R364): DONE with the running count on output 1 every N elements, or at each LAST when N is 0. -/
def execCount (f t : Nat) (s : State) : Out :=
  fireOp 4 5 (fun x _ tl _ =>
    let n := bits tl.p0.toNat 0 24
    match headOf tl.a with
    | none => none
    | some k =>
      let c := if elemEnds tl k then tl.count + 1 else tl.count
      let done := if n = 0 then k.last else elemEnds tl k && (tl.pos + 1 == n)
      if !tl.room 0 ∨ (done ∧ !tl.room 1) then none
      else
        let pos := if n = 0 ∨ done then 0 else if elemEnds tl k then tl.pos + 1 else tl.pos
        some { tile := passed { tl with a := tl.a.drop 1, count := c, pos := pos } k none, out0 := [k],
               out1 := if done then [x.tok (0x04 + c.toNat * 256) true false] else [] }) f t s

/-- The firing of a RATE tile (R364) whose bucket of BURST elements has been refilled by `refill`: an element that finds it empty is held,
or dropped and counted; a harvest releases what is held (R377). -/
def rateFire (x : Fabric) (tl : Tile) (refill : Nat) : Option Fire :=
  let drops := bit tl.p0.toNat 16
  let full := min (bits tl.p0.toNat 0 16) (tl.bucket + refill)
  match headOf tl.a with
  | none => none
  | some k =>
    let tl1 := { tl with a := tl.a.drop 1 }
    if tl.groupOpen ∧ tl.rep = 1 then some { tile := { passed tl1 k none with rep := if elemEnds tl k then 0 else 1 } }
    else if tl.groupOpen then
      if tl.room 0 then some { tile := passed tl1 k none, out0 := [k] } else none
    else if full ≠ 0 ∨ (x.harvesting ∧ !drops) then
      if tl.room 0 then some { tile := passed { tl1 with bucket := full - 1 } k none, out0 := [k], draws := 1 } else none
    else if drops then
      some { tile := { passed { tl1 with bucket := full } k none with rep := if elemEnds tl k then 0 else 1 },
             cnts := [(9, 1)], draws := 1 }
    else none

/-- The elements that a bucket of BURST has been refilled by since its tile's last command: a free number, the model having no cycles
(log entry 25). -/
def refillOf (tl : Tile) (free : Nat) : Nat := (Config.draw free).toNat % (bits tl.p0.toNat 0 16 + 1)

/-- RATE (R364): one firing, or the element stays held. -/
def execRate (f t : Nat) (s : State) : Out :=
  .next (
    if armed s f t 4 6 then
      let tl := (s.fabric f).tile t
      match rateFire (s.fabric f) tl (refillOf tl s.free) with
      | some r => applyFire s f t r
      | none => { s with free := s.free + 1 }
    else s)

/-- GEN (R364): n control tokens of CODE for each GO or REPEAT, one a firing. -/
def execGen (f t : Nat) (s : State) : Out :=
  fireOp 4 7 (fun x _ tl _ =>
    let k := x.tok (bits tl.p1.toNat 0 8) true false
    if tl.rep ≠ 0 then
      if tl.room 0 then some { tile := { tl with rep := tl.rep - 1 }, out0 := [k] } else none
    else
      match headOf tl.c with
      | none => none
      | some c =>
        let tl1 := { tl with c := tl.c.drop 1 }
        match repeatN tl c with
        | none => some { tile := tl1, fault := fCtrlBad }
        | some 0 => some { tile := tl1 }
        | some (n + 1) => if tl.room 0 then some { tile := { tl1 with rep := n }, out0 := [k] } else none) f t s

end Sys2Proof.Machine
end

