-- ==== Sys2Proof/Machine/OvsIo.lean ====
section
/-! DEFINITION. IO tiles that reach memory and Mladaz: INGRESS, MREAD, POST, SIGNAL and END (12, R360; 13, R396). -/

namespace Sys2Proof.Machine

open Sys2Proof

/-- A firing of an IO tile at State level, if it is due. -/
def fireIo (op f t : Nat) (due : Fabric → Tile → Option State) (s : State) : Out :=
  .next (
    if armed s f t 3 op then
      match due (s.fabric f) ((s.fabric f).tile t) with
      | some s1 => settleFabric (bump s1 (ovsPage f) 0 1) f
      | none => s
    else s)

/-- Replace a tile of a fabric in State. -/
def putTile (s : State) (f t : Nat) (tl : Tile) : State := s.setFabric f ((s.fabric f).setTile t tl)

/-- A token leaves the fabric at an IO tile (R390). -/
def tokenOut (s : State) (f : Nat) : State := bump s (ovsPage f) 2 1

/-- Emit the next token of the request that an INGRESS tile delivers: its MARK on output 1, field tokens on output 0 (R396). A token
enters the fabric, which is harvested no longer (R375). -/
def ingressEmit (s : State) (f t : Nat) : Option State :=
  let x := s.fabric f
  let tl := x.tile t
  match tl.deliver with
  | [] => none
  | k :: r =>
    let p := if k.ctrl then 1 else 0
    if tl.room p then
      some (bump (s.setFabric f { x.setTile t (({ tl with deliver := r } : Tile).emit p [k]) with harvested := false })
        (ovsPage f) 1 1)
    else none

/-- INGRESS (R396): the tile emits the next token of its request. -/
def execIngress (f t : Nat) (s : State) : Out := fireIo 1 f t (fun _ _ => ingressEmit s f t) s

/-- An access of an IO tile is allowed (R360, R491): stacked memory and hub SRAM only, within the rights of the fabric's context. -/
def ioAllowed (s : State) (n a len : Nat) (write : Bool) : Bool :=
  a % 8 == 0 &&
  ((blocks a len).all fun b => match rangeOf b with | .stack _ | .hubSram => true | _ => false) &&
  extCheck s n [{ addr := a, len := len, write := write }] == 0

/-- The context of a fabric. -/
def fabCtx (s : State) (f : Nat) : Nat := (s.fabric f).ctx.getD 0

/-- The words that an MREAD tile reads (R360). -/
def mreadWords (tl : Tile) : Nat := bits tl.p2.toNat 0 13

/-- MREAD (R360): a request leaves, up to 64 being outstanding; a refusal is an IO_ACCESS fault. -/
def execMread (f t : Nat) (s : State) : Out :=
  fireIo 3 f t (fun _ tl =>
    match headOf tl.a with
    | none => none
    | some k =>
      if 64 ≤ tl.reads.length then none
      else
        let a := bits k.payload.toNat 0 52
        let s1 := tokenOut (putTile s f t { tl with a := tl.a.drop 1 }) f
        if ioAllowed s (fabCtx s f) a (8 * mreadWords tl) false
        then some (putTile (s1.crossMem 8 a (8 * mreadWords tl)) f t { tl with a := tl.a.drop 1, reads := tl.reads ++ [a] })
        else some (tileFault s1 f t fIoAccess)) s

/-- MREAD_ANSWER (R360): the oldest request is answered with its words as a group. An answer that returns while a forced switch waits
is discarded and its tokens counted STALE_TOKENS (R383). -/
def execMreadAnswer (f t : Nat) (s : State) : Out :=
  .next (
    let x := s.fabric f
    let tl := x.tile t
    let n := mreadWords tl
    match tl.reads with
    | [] => s
    | a :: r =>
      let tl1 := { tl with reads := r }
      let s := s.crossMem 8 a (8 * n)
      if f < 4 ∧ x.force.isSome then bump (putTile s f t tl1) (ovsPage f) 3 n
      else if f < 4 ∧ x.pstate = 0 ∧ tl.room 0 then
        let ks := (List.range n).map fun i => x.tok (ofLE (load s (a + 8 * i) 8)) false (i + 1 == n)
        settleFabric (bump (s.setFabric f { x.setTile t (tl1.emit 0 ks) with harvested := false }) (ovsPage f) 1 n) f
      else s)

/-- Translate a channel of the fabric's context (R9, R254): a mapped credit channel. -/
def ioChannel (s : State) (n vid : Nat) : Option Nat := if vidClass vid = 2 then translate s n vid else none

/-- The fault of R9 where a name of the fabric's context maps nothing. -/
def ioUnmapped (s : State) (n vid : Nat) : State := if (translate s n vid).isNone then nameFault s n vid else s

/-- The source of a signal of a fabric (R284, R360): arrivals count for participant 512 + f. -/
def fabSrc (f op : Nat) : Src := { eng := fabEng f, op := op, part := 512 + f }

/-- Produce the credit of a POST or of a reply record: the status, the state, and what follows. -/
def ioProduce (s : State) (f n vid : Nat) : State × Nat × List Work :=
  match ioChannel s n vid with
  | none => (ioUnmapped s n vid, cSyncUnmapped, [])
  | some key => let (s1, st, _, k) := creditOp (s.reach 8 (objDie 2 key)) key n vid true 1 (fabSrc f 0xF1); (s1, st, k)

/-- A verdict of a home that is a SIGNAL_REFUSED fault of the tile (R360): any but a credit fault that it causes itself (R408). -/
def ioRefused (st : Nat) : Bool := st != 0 && st != cCreditOver && st != cCreditUnder

/-- POST (R360): the payload goes to the ring once the channel's difference is below its size, then one credit is produced. -/
def execPost (f t : Nat) (s : State) : Out :=
  fireIo 4 f t (fun _ tl =>
    match headOf tl.a with
    | none => none
    | some k =>
      let n := fabCtx s f
      let vid := bits tl.p3.toNat 0 14
      let size := 2 ^ bits tl.p2.toNat 0 4
      let a := tl.p0.toNat + bits tl.p1.toNat 0 20 * 2 ^ 32 + 8 * (tl.posts % size)
      let s1 := tokenOut (putTile s f t { tl with a := tl.a.drop 1 }) f
      match ioChannel s n vid with
      | none => some (tileFault (ioUnmapped s1 n vid) f t fSignalRefused)
      | some key =>
        if (s.credit key).faulted then some (tileFault s1 f t fSignalRefused)
        else if (size : Int) ≤ creditDiff (s.credit key) then none
        else if !ioAllowed s n a 8 true then some (tileFault s1 f t fIoAccess)
        else
          let s0 := (putTile s1 f t { tl with a := tl.a.drop 1, posts := tl.posts + 1 }).crossMem 8 a 8
          let s2 := store s0 a (toLE 8 k.payload.toNat)
          let (s3, st, w) := ioProduce s2 f n vid
          some (settle (if ioRefused st then tileFault s3 f t fSignalRefused else s3, w))) s

/-- SIGNAL (R360): each token raises the identifier; names and modes are checked (R9, R254). -/
def execSignal (f t : Nat) (s : State) : Out :=
  fireIo 5 f t (fun _ tl =>
    match headOf tl.a with
    | none => none
    | some _ =>
      let vid := bits tl.p3.toNat 0 14
      let mode := bits tl.p3.toNat 14 2
      let s1 := tokenOut (putTile s f t { tl with a := tl.a.drop 1 }) f
      if vidClass vid ≠ modeClass mode then
        some (tileFault (if vidClass vid = 3 then nameFault s1 (fabCtx s f) vid else s1) f t fSignalRefused)
      else
        let (s2, st, w) := applySig s1 (fabCtx s f) vid mode (fabSrc f (0xF0 + mode))
        some (settle (if ioRefused st then tileFault s2 f t fSignalRefused else s2, w))) s

/-- A harvest starts (R377): ingress closes. A fabric that sleeps or wakes is harvested and closed as it is (R387). -/
def startHarvest (s : State) (f : Nat) : State :=
  if 2 ≤ (s.fabric f).pstate then s else s.setFabric f { s.fabric f with harvesting := true, ingress := false }

/-- END (R360): DONE starts a harvest; an unknown code is CTRL_BAD (R363); other tokens are discarded and counted. -/
def execEndHarvest (f t : Nat) (s : State) : Out :=
  fireIo 6 f t (fun _ tl =>
    match headOf tl.a with
    | none => none
    | some k =>
      let s1 := tokenOut (putTile s f t { tl with a := tl.a.drop 1 }) f
      if k.ctrl ∧ ctlCode k = 0x04 then some (startHarvest s1 f)
      else if k.ctrl ∧ (ctlCode k = 0 ∨ 0x05 < ctlCode k) then some (tileFault s1 f t fCtrlBad)
      else some (bump s1 (ovsPage f) 5 1)) s

end Sys2Proof.Machine
end

