-- ==== Sys2Proof/Machine/OvsPath.lean ====
section
/-! DEFINITION. Answering on the wire: requests, verdicts, replies and recalls (13, R391 to R412). -/

namespace Sys2Proof.Machine

open Sys2Proof

/-! ### Reply tags and frames (R401) -/

/-- The tile of a reply. -/
def replyTile (s : State) (f t : Nat) : Tile := (s.fabric f).tile t

/-- The MAC of a request record. -/
def recMac (f : Nat) (r : ReqRec) : Nat := 4 * f + r.port

/-- CFG_ID of a fabric's active slot. -/
def activeId (x : Fabric) : Nat :=
  match x.active with
  | some k => match x.image k with | some img => imgWord img 8 | none => 0
  | none => 0

/-- The reply tag of a request as it is staged now, with `n` payload bytes. -/
def replyTag (s : State) (f : Nat) (r : ReqRec) (kind n : Nat) : List Byte :=
  let x := s.fabric f
  toLE 4 (r.req.toNat + kind * 2 ^ 16 + r.port * 2 ^ 24 + x.epoch.toNat * 2 ^ 26 + x.active.getD 0 * 2 ^ 28) ++
    toLE 4 ((s.mac (recMac f r)).lastFinal.toNat + n * 2 ^ 16) ++ toLE 4 r.stamp.toNat ++ toLE 4 (activeId x)

/-- The tag of the recall of a reply (R401): KIND 2, the reason, no payload; REQ, PORT, STAMP, EPOCH, SLOT and CFG_ID repeated. -/
def recallTag (s : State) (f : Nat) (r : ReqRec) (reason : Nat) : List Byte :=
  let w := fieldLE r.tag 0 4
  let w1 := setBits (setBits w 16 4 2) 20 4 (if reason < 5 then reason else 0)
  toLE 4 w1 ++ toLE 4 (s.mac (recMac f r)).lastFinal.toNat ++ slice r.tag 8 8

/-- Parts 1 to 3 of a reply: the request's source address, the port's address, HCOPY bytes of the window. -/
def replyHead (s : State) (f : Nat) (r : ReqRec) (hcopy : Nat) : List Byte :=
  slice r.bytes 6 6 ++ macSta s (recMac f r) ++ slice r.bytes 12 hcopy

/-- HCOPY of an EGRESS tile (R399). -/
def tileHcopy (tl : Tile) : Nat := bits tl.p0.toNat 4 7

/-- Replace a request record. -/
def setRec (s : State) (f r : Nat) (v : ReqRec) : State := s.setFabric f { s.fabric f with recs := tput (s.fabric f).recs r v }

/-- Count on a path counter (R412). -/
def pathCount (s : State) (f i n : Nat) : State := bump s (pathPage f) i n

/-! ### EGRESS (R400) -/

/-- A complete group goes to the builder and to the record writes of its tile, unless its request is gone, answered or failed. -/
def buildReply (s : State) (f t : Nat) (tl : Tile) (mk : Token) (group : List Token) : State :=
  let x := s.fabric f
  let i := bits mk.payload.toNat 26 6
  match tfind x.recs i with
  | none => evt (pathCount s f 11 1) (pathPage f) 2
  | some r =>
    if r.req.toNat ≠ bits mk.payload.toNat 8 16 ∨ r.port ≠ bits mk.payload.toNat 24 2 ∨ r.reply ≠ 0 then evt (pathCount s f 11 1) (pathPage f) 2
    else
      match r.verdict with
      | some (_ + 1) => pathCount s f 10 1
      | _ =>
        let e : Reply := { recd := i, req := r, tile := t, payload := group.map (·.payload) }
        let wire := bit tl.p0.toNat 0
        s.setFabric f { x with recs := tput x.recs i { r with reply := if wire then 1 else 4 },
                               builder := if wire then x.builder ++ [e] else x.builder,
                               memq := if bit tl.p0.toNat 1 || bit tl.p0.toNat 2 then x.memq ++ [e] else x.memq }

/-- EGRESS (R400): the tile takes one token: the MARK, or a token of the group behind it. The LAST token waits for the builder. -/
def execEgress (f t : Nat) (s : State) : Out :=
  fireIo 2 f t (fun x tl =>
    match headOf tl.a with
    | none => none
    | some k =>
      let tl1 := { tl with a := tl.a.drop 1 }
      let took := fun (v : Tile) => tokenOut (putTile s f t v) f
      match tl.mark with
      | none =>
        if k.ctrl ∧ ctlCode k = 5 then some (took { tl1 with mark := some k })
        else some (tileFault (took tl1) f t fCtrlBad)
      | some mk =>
        if k.ctrl then some (tileFault (took tl1) f t fCtrlBad)
        else if bits tl.p0.toNat 11 6 ≤ tl.group.length then some (tileFault (took tl1) f t fGroupLen)
        else if !k.last then some (took { tl1 with group := tl.group ++ [k] })
        else if x.builder.isEmpty then
          some (buildReply (took { tl1 with mark := none, group := [] }) f t tl mk (tl.group ++ [k]))
        else none) s

/-! ### The steer decision (R391 to R397) -/

/-- A word of a pattern slot, a byte of its pattern, a bit of its mask, its control (R337). -/
def slotWord (x : Mac) (k w : Nat) : Nat := (tget 0 x.slots (k * 64 + w)).toNat
def slotByte (x : Mac) (k i : Nat) : Nat := slotWord x k (i / 4) / 2 ^ (8 * (i % 4)) % 256
def slotMask (x : Mac) (k i : Nat) : Bool := bit (slotWord x k (32 + i / 32)) (i % 32)
def slotCtl (x : Mac) (k : Nat) : Nat := slotWord x k 36
def slotAction (x : Mac) (k : Nat) : Nat := bits (slotCtl x k) 1 3
def slotRing (x : Mac) (k : Nat) : Nat := bits (slotCtl x k) 4 3

/-- A frame matches an enabled slot (R337). -/
def slotMatches (x : Mac) (k : Nat) (bs : List Byte) : Bool :=
  bit (slotCtl x k) 0 && (List.range 128).all fun i => !slotMask x k i || (match bs[i]? with
    | some b => b.toNat == slotByte x k i
    | none => false)

/-- The lowest-numbered slot that a frame matches. -/
def matchSlot (x : Mac) (bs : List Byte) : Option Nat := (List.range 32).find? fun k => slotMatches x k bs

/-- The MACsec checks of R341 that fail, as the counter of R344: untagged, no SA, replay, and ICV where it is known. -/
def secFail (s : State) (m : Nat) (f : Frame) (icv : Bool) : Option Nat :=
  if !macSecBit s m 0 then none
  else match secTag (frameData f) with
    | none => if secClear s m (frameData f) then none else some 24
    | some g =>
      match tagSc (s.mac m) g, frameSa s m g with
      | some (_, c), some (_, pn, _) =>
        if pn + (regGet s (macPage m) 0xA4).toNat < tget 0 c.pn g.an then some 22
        else if icv && !icvOk s m (frameData f) g then some 21 else none
      | _, _ => some 23

/-- The FIFO takes a frame (R330 step 1). -/
def fifoRoom (s : State) (m : Nat) : Bool := decide (macMaxLen s m + 64 + fifoBytes (s.mac m) ≤ 131072)

/-- Field tokens of a request (R396): window bytes beyond the frame's data read 0. -/
def fieldTokens (x : Fabric) (win : List Byte) (off n : Nat) : List Token :=
  (List.range n).map fun j => x.tok (ofLE ((List.range 8).map fun i => win.getD (off + 8 * j + i) 0)) false (j + 1 == n)

/-- The MARK of a request (R396). -/
def markToken (x : Fabric) (req port rec_ stmp : Nat) : Token :=
  x.tok (5 + req * 2 ^ 8 + port * 2 ^ 24 + rec_ * 2 ^ 26 + stmp * 2 ^ 32) true false

/-- An INGRESS tile serves a slot and a port (R395). -/
def ingressServes (tl : Tile) (k port : Nat) : Bool :=
  tl.conf && tl.ttype == 3 && tl.op == 1 && bit tl.p0.toNat k && bit tl.p2.toNat port

/-- A record is resolved (R397): its verdict is known; a recall that is due is staged with it. -/
def recResolved (x : Fabric) (i : Nat) : Bool :=
  match tfind x.recs i with
  | none => true
  | some r => r.verdict.isSome

/-- Pass an offered frame, with its cause counted (R393). -/
def passFrame (s : State) (f cause : Nat) : State × Option Nat := (evt (pathCount s f cause 1) (pathPage f) 1, none)

/-- Accept a frame as a request (R395 to R397): its record, its MARK and field tokens at the tile; the MARK leaves at once. `stmp` is the
stamp of the frame's first bit (R419), `win` its parse window and `len` its length. -/
def acceptRequest (s : State) (m : Nat) (stmp : Word) (win : List Byte) (len t : Nat) (tl : Tile) : State × Option Nat :=
  let f := m / 4
  let x := s.fabric f
  let y := s.mac m
  let i := x.next
  let p1 := tl.p1.toNat
  let ks := markToken x y.nextReq.toNat (m % 4) i stmp.toNat :: fieldTokens x win (bits p1 0 9) (bits p1 9 7) ++
    fieldTokens x win (bits p1 16 9) (bits p1 25 7)
  let r : ReqRec := { mac := m, req := y.nextReq, port := m % 4, stamp := stmp, bytes := win.take 128,
                      long := decide (macMaxLen s m < len) }
  let x1 := { x.setTile t { tl with deliver := ks } with recs := tput x.recs i r, next := (i + 1) % 64 }
  let s1 := pathCount ((s.setFabric f x1).setMac m { y with nextReq := y.nextReq + 1, open_ := y.open_ ++ [i] }) f 0 1
  let s2 := if x.pstate = 0 then
      match ingressEmit s1 f t with
      | some s2 => settleFabric (bump s2 (ovsPage f) 0 1) f
      | none => s1
    else s1
  (s2, some i)

/-- Offer a frame that selects STEER slot `k` to the fabric of its group (R393): the record when it is accepted. -/
def offerFrame (s : State) (m k : Nat) (stmp : Word) (win : List Byte) (len : Nat) : State × Option Nat :=
  let f := m / 4
  let x := s.fabric f
  let serving := x.tiles.filter fun t => ingressServes t.2 k (m % 4)
  if 2 ≤ x.pstate ∨ x.active.isNone ∨ !x.ingress then passFrame s f 1
  else if serving.isEmpty then passFrame s f 4
  else match serving.find? fun t => t.2.deliver.isEmpty with
    | none => passFrame s f 2
    | some (t, tl) => if recResolved x x.next then acceptRequest s m stmp win len t tl else passFrame s f 3

/-- A port receives: its link is up, the block and reception are enabled. -/
def rxOpen (s : State) (m : Nat) : Bool := macUsed s m && (s.mac m).up && macCfgBit s m 1 && pageOn s (macPage m)

/-- What is known of a frame as it arrives (R330 step 1, R337, R338, R419): it is matched against the table as it stands. -/
def arrive (s : State) (m : Nat) (fr : Frame) : Arrival :=
  let x := s.mac m
  let k := matchSlot x (frameData fr)
  { slot := k, action := slotAction x (k.getD 0), ring := slotRing x (k.getD 0), hash := !macCfgBit s m 2, full := !fifoRoom s m,
    times := rxTimes s fr }

/-- Offer a frame of a STEER slot (R391, R392, R393): the match is counted, and the record kept if the fabric accepts it. -/
def offerArrival (s : State) (m k : Nat) (fr : Frame) (a : Arrival) : State × Arrival :=
  let (s1, r) := offerFrame (macCount s m (32 + k) 1) m k (stampAt a.times) (parseWindow s m fr) (frameLen fr)
  (s1, { a with offered := true, recd := r })

/-- The hub is asleep in NAP, or on its way back to RUN (R339). -/
def hubNaps (s : State) : Bool := (s.die 8).state == 2

/-- The slot decision of a frame (R391, R392): one that selects a STEER slot is offered, in SLOTS mode and while the hub is awake, unless it
was dropped at arrival or fails the checks of MACsec that come before P. -/
def steerDecide (s : State) (m : Nat) (fr : Frame) : State × Arrival :=
  let a := arrive s m fr
  match a.slot with
  | some k =>
    if a.action = 1 ∧ !a.hash ∧ !a.full ∧ 64 ≤ frameLen fr ∧ !hubNaps s ∧ (secFail s m fr false).isNone then offerArrival s m k fr a
    else (s, a)
  | none => (s, a)

/-- STEER_DECISION (R391): P bytes of a frame have reached the MAC. -/
def execSteerDecision (m : Nat) (fr : Frame) (s : State) : Out :=
  .next (
    if rxOpen s m ∧ (s.mac m).steer = none ∧ 64 ≤ frameLen fr ∧ !hubNaps s then
      let (s1, a) := steerDecide s m fr
      s1.setMac m { s1.mac m with steer := some a }
    else s)

/-! ### Verdicts and recalls (R398, R402 to R405) -/

/-- A reply still answers the request of its record, or the record has been taken again after a passed verdict (R397). -/
def replyLive (x : Fabric) (e : Reply) : Option ReqRec :=
  match tfind x.recs e.recd with
  | some r => if r.req = e.req.req ∧ r.port = e.req.port then some r else none
  | none => none

/-- The verdict of a reply's request. -/
def replyVerdict (x : Fabric) (e : Reply) : Option Nat :=
  match replyLive x e with
  | some r => r.verdict
  | none => some 0

/-- Note in the request record how far its reply has come. -/
def markReply (x : Fabric) (e : Reply) (f : ReqRec → ReqRec) : Fabric :=
  match replyLive x e with
  | some r => { x with recs := tput x.recs e.recd (f r) }
  | none => x

/-- A frame carries the reply to a request. -/
def answers (i : Nat) (r : ReqRec) (fr : TxFrame) : Bool :=
  match fr.reply with
  | some e => e.recd == i && e.req.req == r.req && e.req.port == r.port
  | none => false

/-- Class 7 with two frames staged gives the later one back, to be staged again after the recall (R403): a reply to the builder, another
frame to the MAC. -/
def makeRoom (s : State) (f m n : Nat) : State :=
  let y := s.mac m
  if bufRoom y 7 n then s
  else match takeFirst (fun (fr : TxFrame) => fr.cls == 7) y.staged.reverse with
    | none => s
    | some (fr, rest) =>
      match fr.reply with
      | none => s.setMac m { y with staged := rest.reverse, back := fr :: y.back }
      | some e =>
        let s1 := s.setMac m { y with staged := rest.reverse }
        let x := s1.fabric f
        s1.setFabric f (markReply { x with builder := e :: x.builder } e fun r => { r with reply := 1 })

/-- The recall of a committed reply (R403): staged at the head of class 7, behind earlier recalls; lost on a port that is down. -/
def recallReply (s : State) (f : Nat) (r : ReqRec) (reason : Nat) : State :=
  let m := recMac f r
  if !(s.mac m).up then pathCount s f 13 1
  else
    let s1 := makeRoom s f m (r.head.length + 16)
    let y := s1.mac m
    let bs := r.head ++ recallTag s1 f r reason
    let fr : TxFrame := { cls := 7, bytes := bs, src := 3, prot := secProt s1 m bs }
    let s2 := s1.setMac m { y with staged := y.staged.takeWhile (·.src == 3) ++ fr :: y.staged.dropWhile (·.src == 3) }
    evt (pathCount s2 f 8 1) (pathPage f) 0

/-- A failed verdict (R398, R402, R408): nothing of the request is written or signalled; its reply is dropped, removed or recalled. -/
def failRequest (s : State) (f i : Nat) (r : ReqRec) (reason : Nat) : State :=
  let x := s.fabric f
  let m := recMac f r
  let mine := fun (e : Reply) => e.recd == i && e.req.req == r.req && e.req.port == r.port
  let s1 := pathCount (s.setFabric f { x with memq := x.memq.filter fun e => !mine e,
                                              recs := tput x.recs i { r with verdict := some reason } }) f 5 1
  let x1 := s1.fabric f
  match r.reply with
  | 1 =>
    pathCount (s1.setFabric f { x1 with builder := x1.builder.filter fun e => !mine e,
                                        recs := tput x1.recs i { r with verdict := some reason, reply := 4 } }) f 9 1
  | 2 =>
    let y := s1.mac m
    settlePair (pathCount (setRec (s1.setMac m { y with staged := y.staged.filter fun fr => !answers i r fr }) f i
      { r with verdict := some reason, reply := 4 }) f 9 1) m
  | 3 => recallReply (setRec s1 f i { r with verdict := some reason, reply := 4 }) f r reason
  | _ => s1

/-- The verdict of the oldest open request of a port becomes known; LAST_FINAL moves up to it once its recall, if any, is staged. -/
def giveVerdict (s : State) (f i reason : Nat) : State :=
  match tfind (s.fabric f).recs i with
  | none => s
  | some r =>
    let m := recMac f r
    let s1 := s.setMac m { s.mac m with open_ := (s.mac m).open_.drop 1 }
    let s2 := if reason = 0 then setRec s1 f i { r with verdict := some 0 } else failRequest s1 f i r reason
    s2.setMac m { s2.mac m with lastFinal := r.req }

/-- Requests whose port was lost before their last byte fail in their turn (R398). -/
def failLost : Nat → State → Nat → State
  | 0, s, _ => s
  | n + 1, s, m =>
    match (s.mac m).open_ with
    | i :: _ =>
      match tfind (s.fabric (m / 4)).recs i with
      | some r => if r.lost then failLost n (giveVerdict s (m / 4) i 5) m else s
      | none => s
    | [] => s

/-- The verdict that a request's frame has come to (R398): too long once its length is above MAXLEN, else what its checks found at its
end. -/
def dueVerdict (r : ReqRec) : Option Nat := if r.long then some 2 else r.ended

/-- VERDICT (R398): the verdict of a request becomes known, some cycles after its last byte. Verdicts of a port become known in REQ
order. -/
def execVerdict (f i : Nat) (s : State) : Out :=
  .next (
    match if f < 4 then tfind (s.fabric f).recs i else none with
    | none => s
    | some r =>
      let m := recMac f r
      match dueVerdict r with
      | some reason =>
        if (s.mac m).open_.head? = some i ∧ r.verdict = none ∧ !r.lost then failLost 64 (giveVerdict s f i reason) m else s
      | none => s)

/-! ### Staging a reply (R402, R407) -/

/-- The reply of the builder leaves it, and its record moves on. -/
def replyAway (s : State) (f : Nat) (e : Reply) (g : ReqRec → ReqRec) : State :=
  let x := s.fabric f
  s.setFabric f (markReply { x with builder := x.builder.drop 1 } e g)

/-- REPLY_STAGE (R402): the builder's reply enters the transmit buffer: FINAL after a passed verdict, EARLY before it on a port that
may. A port that is down or has no transmit SA for it has the reply discarded (R404, R407). -/
def execReplyStage (f : Nat) (s : State) : Out :=
  .next (
    let x := s.fabric f
    match if f < 4 then x.builder else [] with
    | [] => s
    | e :: _ =>
      let r := e.req
      let m := recMac f r
      let kind := if (replyVerdict x e).isSome then 0 else 1
      let head := replyHead s f r (tileHcopy (replyTile s f e.tile))
      let tag := replyTag s f r kind (8 * e.payload.length)
      let bs := head ++ tag ++ e.payload.flatMap fun w => toLE 8 w.toNat
      let prot := secProt s m bs
      if kind = 1 ∧ !bit (regGet s (pathPage f) 0x40).toNat r.port then s
      else if !(s.mac m).up ∨ (prot ∧ (s.mac m).txAn = none) then
        pathCount (replyAway s f e fun r => { r with reply := 4 }) f 12 1
      else if classRoom (s.mac m) 7 bs.length then
        let s1 := pathCount (replyAway s f e fun r => { r with reply := 2, head := head, tag := tag }) f (6 + kind) 1
        stageTx s1 m { cls := 7, bytes := bs, src := 2, reply := some e, prot := prot }
      else s)

/-! ### Records and signals (R408) -/

/-- The oldest record write or signal of a tile, and the rest. -/
def nextRecord (x : Fabric) (t : Nat) : Option (Reply × List Reply) := takeFirst (fun e => e.tile == t) x.memq

/-- Raise the signal of a reply. -/
def replySignal (s : State) (f t : Nat) (tl : Tile) : State :=
  if !bit tl.p0.toNat 2 then s
  else
    let vid := bits tl.p1.toNat 0 14
    let mode := bits tl.p1.toNat 14 2
    if vidClass vid ≠ modeClass mode then tileFault (if vidClass vid = 3 then nameFault s (fabCtx s f) vid else s) f t fSignalRefused
    else
      let (s1, st, w) := applySig s (fabCtx s f) vid mode (fabSrc f (0xF0 + mode))
      settle (if ioRefused st then tileFault s1 f t fSignalRefused else pathCount s1 f 15 1, w)

/-- Write the record of a reply and produce its credit, then raise its signal; none while the ring has no room. -/
def replyRecord (s : State) (f t : Nat) (e : Reply) (r : ReqRec) : Option State :=
  let tl := replyTile s f t
  let n := fabCtx s f
  if !bit tl.p0.toNat 1 then some (replySignal s f t tl)
  else
    let vid := bits tl.p1.toNat 16 14
    let size := 2 ^ bits tl.p3.toNat 20 4
    let a := tl.p2.toNat + bits tl.p3.toNat 0 20 * 2 ^ 32 + 64 * (tl.posts % size)
    match ioChannel s n vid with
    | none => some (tileFault (ioUnmapped s n vid) f t fSignalRefused)
    | some key =>
      if (s.credit key).faulted then some (tileFault s f t fSignalRefused)
      else if (size : Int) ≤ creditDiff (s.credit key) then none
      else if !ioAllowed s n a 64 true then some (tileFault s f t fIoAccess)
      else
        let bs := replyTag s f r 0 (8 * e.payload.length) ++ (padTo 0 6 e.payload).flatMap fun w => toLE 8 w.toNat
        let s1 := store ((putTile s f t { tl with posts := tl.posts + 1 }).crossMem 8 a 64) a bs
        let (s2, st, w) := ioProduce s1 f n vid
        if ioRefused st then some (settle (tileFault s2 f t fSignalRefused, w))
        else some (replySignal (pathCount (settle (s2, w)) f 14 1) f t tl)

/-- REPLY_RECORD (R408): the oldest record of a tile is written and signalled once its verdict has passed and its ring has room. -/
def execReplyRecord (f t : Nat) (s : State) : Out :=
  .next (
    let x := s.fabric f
    match if f < 4 then nextRecord x t else none with
    | none => s
    | some (e, rest) =>
      if replyVerdict x e = some 0 then (replyRecord (s.setFabric f { x with memq := rest }) f t e e.req).getD s
      else s)

end Sys2Proof.Machine
end

