-- ==== Sys2Proof/Machine/Dma.lean ====
section
/-! DEFINITION. The DMA descriptor: its fields, checks, sides, conversions, sealed pages and sealed objects (08, 16, R240 to R245,
R454, R455, R311). -/

namespace Sys2Proof.Machine

open Sys2Proof

/-! ### Fields (R242, R311) -/

/-- The fields of a DMA descriptor. -/
structure DmaDesc where
  op : Nat
  src : Nat
  dst : Nat
  node : Nat
  remote : Nat
  crypt : Nat
  sfmt : Nat
  dfmt : Nat
  rnd : Nat
  layout : Bool
  rop : Nat
  cols : Nat
  rows : Nat
  sstride : Nat
  dstride : Nat
  tid : Word
  step : Word
  cscale : BitVec 16
  rsigId : Nat
  rsigMode : Nat
  rsigEn : Bool
  /-- Reserved bits are 0. -/
  clean : Bool
  deriving DecidableEq, Repr

/-- The collectives (R310). -/
def isColl (op : Nat) : Bool := decide (0x10 ≤ op) && decide (op ≤ 0x13)

/-- Read the fields of a descriptor of 64 bytes. -/
def dmaDesc (body : List Byte) : DmaDesc :=
  let w1 := fieldLE body 8 8
  let w2 := fieldLE body 0x10 8
  let w3 := fieldLE body 0x18 8
  let w7 := fieldLE body 0x38 8
  let op := fieldLE body 0 1
  { op := op, src := bits w1 0 52, dst := bits w2 0 52, node := bits w3 0 20, remote := bits w3 20 2, crypt := bits w3 22 2,
    sfmt := bits w3 24 4, dfmt := bits w3 28 4, rnd := bits w3 32 2, layout := bit w3 34, rop := bits w3 35 2,
    cols := fieldLE body 0x20 4, rows := fieldLE body 0x24 4, sstride := fieldLE body 0x28 4, dstride := fieldLE body 0x2C 4,
    tid := BitVec.ofNat 32 (fieldLE body 0x30 4), step := BitVec.ofNat 32 (fieldLE body 0x34 4),
    cscale := BitVec.ofNat 16 (bits w7 0 16), rsigId := bits w7 16 14, rsigMode := bits w7 30 2, rsigEn := bit w7 32,
    clean := w1 / 2 ^ 52 == 0 && w2 / 2 ^ 52 == 0 && w7 / 2 ^ 33 == 0 && w3 / 2 ^ (if isColl op then 37 else 35) == 0 }

/-! ### Formats and sides (R243) -/

/-- Rows at a stride: bytes, BF16, FP16. -/
def linearFmt (f : Nat) : Bool := decide (f ≤ 2)

/-- A microscaling format. -/
def mxFmt (f : Nat) : Bool := decide (8 ≤ f)

/-- Element format and form of the codes 0x3 to 0xA. -/
def dmaFmt (f : Nat) : Fmt × Bool :=
  if f = 3 ∨ f = 8 then (fF4, true) else if f = 4 ∨ f = 9 then (fF8, true) else if f = 5 then (fF8, false)
  else if f = 6 ∨ f = 10 then (fF8W, true) else (fF8W, false)

/-- The number format of a 16-bit code. -/
def dense16 (f : Nat) : Fmt := if f = 1 then fBF16 else fFP16

/-- One side of a move. -/
structure Side where
  fmt : Nat
  base : Nat
  stride : Nat
  rows : Nat
  cols : Nat
  alongRow : Bool
  deriving DecidableEq, Repr

/-- Bytes of a row of a linear side. -/
def Side.rowBytes (x : Side) : Nat := x.cols * if x.fmt = 0 then 1 else 2

/-- Bytes from the start of a row to the next: a stride of 0 packs the rows (log entry 21). -/
def Side.pitch (x : Side) : Nat := if x.stride = 0 then x.rowBytes else x.stride

/-- The planes of a quantised or MX side; an MX side has its E8M0 bytes in the flake plane and no crust plane. -/
def Side.planes (x : Side) : Planes := planesAt (dmaFmt x.fmt).1 (dmaFmt x.fmt).2 x.rows x.cols x.alongRow x.base

/-- The pieces of memory that a side covers. -/
def Side.exts (x : Side) : List (Nat × Nat) :=
  if linearFmt x.fmt then (List.range x.rows).map fun r => (x.base + r * x.pitch, x.rowBytes)
  else
    let p := x.planes
    [(p.elems, elemBytes p)] ++ (if p.flaked then [(p.flakes, flakeBytes p)] else []) ++
    (if mxFmt x.fmt then [] else [(p.crusts, crustBytes p)])

/-- The end of a side. -/
def Side.last (x : Side) : Nat := x.exts.foldl (fun m e => max m (e.1 + e.2)) x.base

/-- The source side and the destination side of a descriptor. -/
def srcSide (d : DmaDesc) : Side :=
  { fmt := d.sfmt, base := d.src, stride := d.sstride, rows := d.rows, cols := d.cols, alongRow := !d.layout }
def dstSide (d : DmaDesc) : Side :=
  { fmt := d.dfmt, base := d.dst, stride := d.dstride, rows := d.rows, cols := d.cols, alongRow := !d.layout }

/-- A side packed from offset 0: how a sealed object holds it (R454). -/
def Side.packed (x : Side) : Side := { x with base := 0, stride := 0 }

/-! ### The checks of R244 -/

/-- A pair of formats and a mode on a path of R91. -/
def pathOk (s d rnd : Nat) : Bool :=
  if s = 0 ∧ d = 0 then true
  else if linearFmt s ∧ s ≠ 0 then
    if linearFmt d then d != 0 && d != s
    else if mxFmt d then false
    else if d = 3 then rnd != 1 else true
  else if linearFmt d ∧ d ≠ 0 then decide (3 ≤ s) && !mxFmt s
  else if mxFmt s then ((s == 8 && d == 3) || (s == 9 && d == 4) || (s == 10 && d == 6)) && rnd == 0
  else if mxFmt d then (s == 3 || s == 4 || s == 6) && rnd != 1
  else false

/-- The address is host memory or CXL .mem. -/
def hostSide (a : Nat) : Bool := match rangeOf a with | .host | .cxl => true | _ => false

/-- The address is CXL .mem. -/
def cxlSide (a : Nat) : Bool := match rangeOf a with | .cxl => true | _ => false

/-- Every block of a list of pieces has an attribute in the regions of a context. -/
def allHave (s : State) (n i : Nat) (es : List (Nat × Nat)) : Bool := es.all fun e => (blocks e.1 e.2).all fun a => regionHas s n a i

/-- The signal field of the remote side is ill formed, checked as for SIG_ID (R51). -/
def rsigBad (d : DmaDesc) : Bool := d.rsigEn && vidClass d.rsigId != 3 && vidClass d.rsigId != modeClass d.rsigMode

/-- The fields of a collective (R311). -/
def collOk (d : DmaDesc) : Bool :=
  let sums := d.op == 0x10 || d.op == 0x12
  d.node < 16 && d.remote == 0 && d.rows == 1 && d.sstride == 0 && d.dstride == 0 && d.sfmt == d.dfmt && d.rop != 3 &&
  (d.sfmt == 1 || d.sfmt == 2 || (d.sfmt == 0 && !sums)) && (!sums || d.rop != 0 || d.rnd == 0 || d.rnd == 2)

/-- The host sides of a descriptor. -/
def hostSides (d : DmaDesc) : List Side :=
  (if d.op ≠ 2 ∧ d.remote ≠ 1 ∧ hostSide d.src then [srcSide d] else []) ++
  (if d.remote ≠ 2 ∧ hostSide d.dst then [dstSide d] else [])

/-- The lowest case of R244 that a descriptor meets; 0 when it passes. A collective's field outside R311 is case 1, and a DNOP
meets cases 1 and 9 only (log entry 21). -/
def dmaCheck (s : State) (n : Nat) (body : List Byte) : Nat :=
  let d := dmaDesc body
  if (2 < d.op ∧ !isColl d.op) ∨ !d.clean ∨ d.remote = 3 ∨ d.crypt = 3 ∨ 10 < d.sfmt ∨ 10 < d.dfmt ∨
     (d.rnd = 3 ∧ !(isColl d.op && (d.rop == 1 || d.rop == 2))) ∨ d.rsigMode = 3 ∨
     (isColl d.op ∧ !collOk d) then 1
  else if d.op = 0 then (if rsigBad d then 9 else 0)
  else if !isColl d.op ∧ (if d.op = 2 then d.sfmt != 0 || d.dfmt != 0 else !pathOk d.sfmt d.dfmt d.rnd) then 2
  else if d.rows = 0 ∨ d.cols = 0 ∨ 2 ^ 48 < d.rows * d.cols ∨ (d.op = 2 ∧ d.cols % 4 ≠ 0) then 3
  else if (d.op ≠ 2 ∧ !linearFmt d.sfmt ∧ d.sstride ≠ 0) ∨ (!linearFmt d.dfmt ∧ d.dstride ≠ 0) then 4
  else if (d.remote = 1 ∧ d.op ≠ 2 ∧ hostSide d.src) ∨ (d.remote = 2 ∧ hostSide d.dst) then 5
  else if d.crypt ≠ 0 ∧ (hostSides d).isEmpty then 6
  else if (d.crypt = 0 ∧ !((hostSides d).all fun x => allHave s n 3 x.exts)) ∨
          (d.crypt = 1 ∧ !((hostSides d).all fun x => allHave s n 5 x.exts)) then 7
  else if d.crypt = 1 ∧ (hostSides d).any fun x => cxlSide x.base && x.base % 4096 != 0 then 8
  else if rsigBad d then 9
  else 0

/-! ### Values of a source -/

/-- The exact value of an element of a side, through a byte reader (R81, R92). -/
def sideVal (rd : Nat → Byte) (x : Side) (r c : Nat) : Val :=
  if linearFmt x.fmt then
    let a := x.base + r * x.pitch + 2 * c
    decodeFmt (dense16 x.fmt) ((rd a).toNat + 256 * (rd (a + 1)).toNat)
  else readQVal rd x.planes r c

/-- What a conversion writes: pieces in ascending address, and the counts of R93. -/
structure Moved where
  segs : List (Nat × List Byte)
  sat : Nat := 0
  nonfin : Nat := 0
  requant : Nat := 0
  deriving DecidableEq, Repr

/-! ### Writing planes (R82, R83) -/

/-- The positions of each flake, in the order of the flake plane. -/
def flakeCells (p : Planes) : List (List (Nat × Nat)) :=
  if p.alongRow then
    (List.range p.prows).flatMap fun r => (List.range (p.pcols / 32)).map fun j => (List.range 32).map fun i => (r, 32 * j + i)
  else
    (List.range (p.prows / 32)).flatMap fun j => (List.range p.pcols).map fun c => (List.range 32).map fun i => (32 * j + i, c)

/-- The element plane from the codes of the flakes, in the order of the flake plane. -/
def elemPlane (p : Planes) (flakes : List (List Nat)) : List Byte :=
  let code := fun i =>
    let r := i / p.pcols
    let c := i % p.pcols
    (flakes.getD (flakeAt p r c - p.flakes) []).getD (if p.alongRow then c % 32 else r % 32) 0
  if isF4 p.fmt then (List.range (p.prows * p.pcols / 2)).map fun i => BitVec.ofNat 8 (code (2 * i) + 16 * code (2 * i + 1))
  else (List.range (p.prows * p.pcols)).map fun i => BitVec.ofNat 8 (code i)

/-- The crust plane. -/
def crustPlane (p : Planes) (c : Nat → BitVec 16) : List Byte :=
  ((List.range (p.prows / 128 * (p.pcols / 128))).map fun i => toLE 2 (c i).toNat).flatten

/-- The index of the crust of an element. -/
def crustIdx (p : Planes) (r c : Nat) : Nat := r / 128 * (p.pcols / 128) + c / 128

/-- The planes of a side as pieces. -/
def planeSegs (x : Side) (codes : List (List Nat)) (scales : List Nat) (crust : Nat → BitVec 16) : List (Nat × List Byte) :=
  let p := x.planes
  [(p.elems, elemPlane p codes)] ++
  (if p.flaked then [(p.flakes, scales.map fun n => BitVec.ofNat 8 n)] else []) ++
  (if mxFmt x.fmt then [] else [(p.crusts, crustPlane p crust)])

/-- An element lies inside the shape, not in the padding. -/
def Side.inside (x : Side) (at_ : Nat × Nat) : Bool := decide (at_.1 < x.rows) && decide (at_.2 < x.cols)

/-- Quantise into a FLAKED or CRUST_ONLY side (R83, R89, R90). -/
def quantSide (x : Side) (mode : Rnd) (c : BitVec 16) (val : Nat → Nat → Val) (rb : Nat → Nat → Nat) : Moved :=
  let p := x.planes
  let cells := flakeCells p
  let one := fun (l : List (Nat × Nat)) =>
    let xs := l.map fun a => if x.inside a then (val a.1 a.2, rb a.1 a.2) else (Val.zero, 0)
    if !l.any x.inside then ({ s8 := 0, codes := l.map fun _ => 0, sat := false, nonfin := false } : QFlake)
    else quantFlake p.fmt mode c (xs.map (·.1)) xs
  if p.flaked then
    let q := cells.map one
    { segs := planeSegs x (q.map (·.codes)) (q.map (·.s8)) fun _ => c, sat := q.countP (·.sat), nonfin := q.countP (·.nonfin) }
  else
    let q := cells.map fun l => l.map fun a => if x.inside a then quantCrust p.fmt mode c (val a.1 a.2) (rb a.1 a.2) else (0, false)
    { segs := planeSegs x (q.map fun l => l.map (·.1)) [] fun _ => c, sat := (q.map fun l => l.countP (·.2)).foldl (· + ·) 0,
      nonfin := if crustNonfin c then p.prows * p.pcols / 32 else 0 }

/-- Convert into a 16-bit side (R84 to R87). -/
def denseSide (x : Side) (mode : Rnd) (val : Nat → Nat → Val) (rb : Nat → Nat → Nat) : Moved :=
  { segs := (List.range x.rows).map fun r =>
      (x.base + r * x.pitch, ((List.range x.cols).map fun c => toLE 2 (code (dense16 x.fmt) mode (rb r c) (val r c))).flatten) }

/-- Copy rows of bytes. -/
def copySide (rd : Nat → Byte) (x y : Side) : Moved :=
  { segs := (List.range y.rows).map fun r => (y.base + r * y.pitch, (List.range y.rowBytes).map fun i => rd (x.base + r * x.pitch + i)) }

/-! ### Microscaling (R99 to R101) -/

/-- Import (R100): codes unchanged, scales mapped crust by crust. -/
def importSide (rd : Nat → Byte) (x y : Side) : Moved :=
  let p := x.planes
  let cells := flakeCells p
  let live := fun (l : List (Nat × Nat)) => l.any y.inside
  let xOf : List (Nat × Nat) → Nat := fun l => match l with | a :: _ => (rd (flakeAt p a.1 a.2)).toNat | [] => 0
  let crustOf := fun (l : List (Nat × Nat)) => match l with | a :: _ => crustIdx p a.1 a.2 | [] => 0
  let top : Nat → Nat := fun i => max 16 (cells.foldl (fun m l =>
    if crustOf l = i ∧ live l ∧ xOf l ≠ 0xFF then max m (xOf l) else m) 0)
  let scale := fun i => scaleCode ((top i : Int) - 142)
  let codeAt := fun (a : Nat × Nat) => if y.inside a then readElem rd p a.1 a.2 else 0
  let flake : List (Nat × Nat) → List Nat × Nat × Bool := fun l =>
    let xc : Nat := xOf l
    let m : Nat := top (crustOf l)
    let codes := l.map codeAt
    if !live l then (codes, 0, false)
    else if xc = 0xFF then (codes, 0xF8, false)
    else if m ≤ xc + 29 then (codes, (xc + 30 - m) * 8, false)
    else
      let div := (s8Val 0x08).mul (crustAbs (scale (crustOf l)))
      (codes.map fun e => code p.fmt .rne 0 (((decodeFmt p.fmt e).mul (e8m0 xc)).div div), 0x08, true)
  let q := cells.map flake
  { segs := planeSegs y (q.map (·.1)) (q.map fun z => z.2.1) scale, requant := q.countP fun z => z.2.2 }

/-- Export (R101): each block from one flake. -/
def exportSide (y : Side) (mode : Rnd) (val : Nat → Nat → Val) (rb : Nat → Nat → Nat) : Moved :=
  let p := y.planes
  let q := (flakeCells p).map fun l =>
    if l.any y.inside then mxExport p.fmt mode ((l.filter y.inside).map fun a => (val a.1 a.2, rb a.1 a.2)) else (0, [], 0)
  { segs := planeSegs y (q.map fun z => z.2.1) (q.map (·.1)) fun _ => 0, sat := (q.map fun z => z.2.2).sum }

/-! ### A move -/

/-- What a DMOVE writes, from a byte reader of its source (R91, R245). -/
def moveData (rd : Nat → Byte) (d : DmaDesc) (x y : Side) (seed : Dword) : Moved :=
  let mode := rndOf d.rnd
  let rb := fun r c => if mode = .sr then srBits seed d.tid d.step (r * d.cols + c) else 0
  let val := sideVal rd x
  if x.fmt = 0 then copySide rd x y
  else if mxFmt x.fmt then importSide rd x y
  else if mxFmt y.fmt then exportSide y mode val rb
  else if linearFmt y.fmt then denseSide y mode val rb
  else quantSide y mode d.cscale val rb

/-- What a DFILL writes: the pattern over the destination rows (R245). -/
def fillData (d : DmaDesc) (y : Side) : Moved :=
  { segs := (List.range y.rows).map fun r =>
      (y.base + r * y.pitch, (List.range y.rowBytes).map fun i => BitVec.ofNat 8 (d.tid.toNat / 2 ^ (8 * (i % 4)))) }

/-- The bytes of pieces, in ascending address. -/
def segBytes (segs : List (Nat × List Byte)) : List Byte := segs.flatMap (·.2)

/-- The byte of a list of pieces at an address; 0 between them. -/
def segByte (segs : List (Nat × List Byte)) (a : Nat) : Byte :=
  match segs.find? fun g => decide (g.1 ≤ a) && decide (a < g.1 + g.2.length) with
  | some g => g.2.getD (a - g.1) 0
  | none => 0

/-! ### Encryption (R240, R449, R454) -/

/-- A key that HKDF-SHA-384 derives from a seal secret with a label (R449); no salt is named, so none goes in (log entry 7). -/
def sealDerived (label : List Byte) (k : Nat) : List Byte := hkdf384 [] (drawnBytes k 4) label 32

/-- The page key and the object key of a context, from its seal secret with the labels "page" and "object" (R449). -/
def pageKey (c : Ctx) : Option (List Byte) := c.sealKey.map (sealDerived [0x70, 0x61, 0x67, 0x65])
def objectKey (c : Ctx) : Option (List Byte) := c.sealKey.map (sealDerived [0x6F, 0x62, 0x6A, 0x65, 0x63, 0x74])

/-! ### Sealed pages (R240, R241) -/

/-- The pages that an interval of CXL .mem touches, by page index. -/
def sealPages (lo hi : Nat) : List Nat :=
  if hi ≤ lo then [] else (List.range ((hi - 1) / 4096 - lo / 4096 + 1)).map fun i => lo / 4096 + i - cxlBase / 4096

/-- The metadata of a page. -/
def metaAddr (s : State) (n p : Nat) : Nat := (s.ctx n).sealTab.toNat + 32 * p

/-- The metadata lies where the host can neither read nor write it (R240). -/
def metaOk (s : State) (n a : Nat) : Bool :=
  (match rangeOf a with | .stack _ => true | _ => false) &&
  [a, a + 31].all fun x => (regionsAt s n x).any fun r => r.has 1 && r.has 2 && !r.has 3 && !r.has 4

/-- IV and additional data of a page (R240): little-endian words (log entry 7). -/
def pageIv (wcount p : Nat) : List Byte := toLE 8 wcount ++ toLE 4 p
def pageAad (n p : Nat) : List Byte := toLE 4 n ++ toLE 4 p

/-- Open a page: its plaintext, zeros where it was never written; nothing when its tag fails. -/
def openPage (s : State) (n p : Nat) : Option (List Byte) :=
  let m := metaAddr s n p
  let w := ofLE (load s m 8)
  if w = 0 then some (List.replicate 4096 0)
  else
    match pageKey (s.ctx n) with
    | none => none
    | some k =>
      let ct := load s (cxlBase + p * 4096) 4096
      if gcmTag k (pageIv w p) (pageAad n p) ct = load s (m + 8) 16 then some (gcmStream k (pageIv w p) ct) else none

/-- The first page of a list whose tag fails. -/
def badPage (s : State) (n : Nat) (ps : List Nat) : Option Nat := ps.find? fun p => (openPage s n p).isNone

/-- A page whose counter is exhausted. -/
def worn (s : State) (n : Nat) (ps : List Nat) : Bool := ps.any fun p => ofLE (load s (metaAddr s n p) 8) == 2 ^ 64 - 1

/-- Seal a page: the data, then the new WCOUNT and TAG. -/
def sealPage (s : State) (n p : Nat) (pt : List Byte) : State :=
  let m := metaAddr s n p
  let w := ofLE (load s m 8) + 1
  let k := (pageKey (s.ctx n)).getD []
  let ct := gcmStream k (pageIv w p) pt
  store (store s (cxlBase + p * 4096) ct) m (toLE 8 w ++ gcmTag k (pageIv w p) (pageAad n p) ct)

/-! ### Sealed objects (R454, R455) -/

/-- The host extent of an object of L plaintext bytes. -/
def objectBytes (l : Nat) : Nat := 64 + l + 16 * cdiv l 4096

/-- The OTK slots that a context may use: those of its configuration (R455), and among them those that a loaded owner policy permits its
class (R451). -/
def permittedOtk (s : State) (n : Nat) : BitVec 4 :=
  match s.sec.policy with
  | some p => (s.ctx n).otkSlots &&& Config.policyOtk p.digest n
  | none => (s.ctx n).otkSlots

/-- The key of a KEYSEL for a context, and the SEALER and object counter that go with it; nothing when it is not installed or not
permitted. -/
def objKey (s : State) (n sel : Nat) : Option (List Byte × Nat × Nat) :=
  let c := s.ctx n
  if sel = 0 then (objectKey c).map fun k => (k, 0, c.objCounter.toNat)
  else if (permittedOtk s n).toNat.testBit (sel - 1) then
    (tfind s.sec.otk (sel - 1)).map fun x => (toLE 32 x.key.toNat, x.sealer.toNat, x.counter.toNat)
  else none

/-- Set the object counter of a KEYSEL. -/
def setObjCounter (s : State) (n sel v : Nat) : State :=
  if sel = 0 then s.setCtx n { s.ctx n with objCounter := BitVec.ofNat 32 v }
  else
    match tfind s.sec.otk (sel - 1) with
    | some x => { s with sec := { s.sec with otk := tput s.sec.otk (sel - 1) { x with counter := BitVec.ofNat 32 v } } }
    | none => s

/-- The header of an object. -/
def objHeader (sel sealer counter l n : Nat) (tid step : Word) : List Byte :=
  toLE 4 0x5A534F31 ++ toLE 4 sel ++ toLE 4 sealer ++ toLE 4 counter ++ toLE 4 tid.toNat ++ toLE 4 step.toNat ++ toLE 8 l ++
  toLE 4 (if sel = 0 then n else 0) ++ List.replicate 28 0

/-- IV and additional data of chunk i (R454). -/
def chunkIv (sealer counter i : Nat) : List Byte := toLE 4 sealer ++ toLE 4 counter ++ toLE 4 i
def chunkAad (hdr : List Byte) (i : Nat) : List Byte := hdr ++ toLE 4 i

/-- Ciphertext and tags of the chunks of a plaintext. -/
def sealChunks (key : List Byte) (sealer counter : Nat) (hdr : List Byte) : Nat → List (List Byte) → List Byte
  | _, [] => []
  | i, pt :: rest =>
    let iv := chunkIv sealer counter i
    let ct := gcmStream key iv pt
    ct ++ gcmTag key iv (chunkAad hdr i) ct ++ sealChunks key sealer counter hdr (i + 1) rest

/-- Open the chunks of an object at an address: the plaintext up to the first chunk whose tag fails, and that chunk. -/
def openChunks (s : State) (key : List Byte) (sealer counter : Nat) (hdr : List Byte) : Nat → Nat → Nat → Nat → List Byte × Option Nat
  | 0, _, _, _ => ([], none)
  | f + 1, i, a, left =>
    if left = 0 then ([], none)
    else
      let n := min left 4096
      let iv := chunkIv sealer counter i
      let ct := load s a n
      if gcmTag key iv (chunkAad hdr i) ct = load s (a + n) 16 then
        let (pt, bad) := openChunks s key sealer counter hdr f (i + 1) (a + n + 16) (left - n)
        (gcmStream key iv ct ++ pt, bad)
      else ([], some i)

/-- The fixed parts of a header are right for an opening descriptor (R455). -/
def headerOk (h : List Byte) (n l : Nat) (tid step : Word) : Bool :=
  fieldLE h 0 4 == 0x5A534F31 && fieldLE h 4 4 ≤ 4 && fieldLE h 0x10 4 == tid.toNat && fieldLE h 0x14 4 == step.toNat &&
  fieldLE h 0x18 8 == l && fieldLE h 0x20 4 == (if fieldLE h 4 4 = 0 then n else 0) && (slice h 0x24 28).all (· == 0)

end Sys2Proof.Machine
end

