-- ==== Sys2Proof/Machine/DmaRun.lean ====
section
/-! DEFINITION. DMA operations: what DNOP, DMOVE and DFILL do, locally and with a neighbour (08, R242 to R245; 10, R301). -/

namespace Sys2Proof.Machine

open Sys2Proof

def cGrlNoRoute : Nat := 0x7001
def cGrlLinkDown : Nat := 0x7002
def cGrlQuarantine : Nat := 0x7003
def cKeyAbsent : Nat := 0xC003

/-- The page of a DMA engine. -/
def dmaPage (e : Nat) : Nat := pageOf 14 (dmaInst e)

/-- The payload of a DMA record (R62). -/
def dmaPayload (n : Nat) (crc : Word) : List Word := [BitVec.ofNat 32 n, BitVec.ofNat 32 (n / 2 ^ 32), crc, 0]

/-- The DMA operation under way on an engine that is neither done, nor stopped, nor waiting for Griros. -/
def dmaOp (s : State) (e : Nat) : Option (Op × DmaDesc) :=
  if engKind e ≠ .dma ∧ engKind e ≠ .hubDma then none
  else match s.run e 0 with
    | some op => if op.done || op.stop != 0 || op.phase == 4 then none else some (op, dmaDesc op.body)
    | none => none

/-- The work of the engine's operation is done with a status, having written bytes of a CRC. -/
def dmaDone (s : State) (e status n : Nat) (crc : Word) : State :=
  match s.run e 0 with
  | some op => s.setRun e 0 { op with done := true, status := BitVec.ofNat 16 status, payload := dmaPayload n crc }
  | none => s

/-- The operation ends with a status and moves nothing. -/
def dmaEnd (s : State) (e status : Nat) : State := dmaDone s e status 0 0

/-! ### A neighbour (R301) -/

/-- The job slot of a context and the links to a neighbour that are usable, or the status that the operation ends with. -/
def route (s : State) (n node : Nat) : Sum Nat (Nat × List Nat) :=
  match jobOf s n with
  | none => .inl cGrlNoRoute
  | some slot =>
    match usableLinks s slot node with
    | [] => .inl (if (nbrLinks s slot node).any fun k => (s.link k).state == 5 then cGrlQuarantine else cGrlNoRoute)
    | ks => .inr (slot, ks)

/-- Pieces of at most 16 KiB of one piece of memory (R290, R301). -/
def cut (a n : Nat) : List (Nat × Nat) := (List.range (cdiv n 16384)).map fun i => (a + 16384 * i, min 16384 (n - 16384 * i))

/-- Deal messages round-robin over links in ascending number (R301). -/
def deal (s : State) (ks : List Nat) (ms : List Msg) : State :=
  ms.zipIdx.foldl (fun s x => sendMsg s (ks.getD (x.2 % ks.length) 0) x.1 none) s

/-- The message header of a transfer of an operation. -/
def xferMsg (s : State) (slot : Nat) (op : Op) (d : DmaDesc) (mtype total : Nat) : Msg :=
  { vc := 1, mtype := mtype, jobTag := (s.jobSlot slot).tag, epoch := op.epoch, mark := op.mark, xfer := (s.jobSlot slot).xferNo.toNat,
    sigId := d.rsigId, sigMode := d.rsigMode, sigEn := d.rsigEn && mtype == 1, xferBytes := total % 2 ^ 32 }

/-- Send the messages of a transfer (R301): each link used first brings the extents of the transfer, one message without data for each,
with the address and the bytes of the extent; then the messages are dealt. The job's transfer number advances. -/
def sendXfer (s : State) (slot : Nat) (ks : List Nat) (m : Msg) (exts : List (Nat × Nat)) (ms : List Msg) : State :=
  let j := s.jobSlot slot
  let s1 := s.setJob slot { j with xferNo := j.xferNo + 1 }
  let heads := exts.map fun x => { m with addr := x.1, len := 0, data := [], sigEn := false, xferBytes := x.2 }
  deal ((ks.take ms.length).foldl (fun s k => heads.foldl (fun s h => sendMsg s k h none) s) s1) ks ms

/-- The remote signal of an operation, behind its data on the same VC (R274, R292, R307). -/
def sendRsig (s : State) (op : Op) (d : DmaDesc) (slot vc : Nat) (ks : List Nat) : State :=
  sendMsg s (ks.getD 0 0) (signalMsg s slot vc d.rsigId d.rsigMode op.mark) none

/-- The answer of the receiving hub to the first messages (R301, R302): a free value (log entry 20). -/
def takeVerdict (s : State) : Nat × State :=
  let v := Config.peerVerdict s.free % 3
  (if v = 0 then 0 else if v = 1 then cMemAccess else cGrlNoRoute, { s with free := s.free + 1 })

/-- The engine's operation waits for Griros with a status, payload and transfer. -/
def dmaAway (s : State) (e : Nat) (x : TxXfer) (status : Nat) (payload : List Word) : State :=
  match s.run e 0 with
  | some op => { s with txXfers := s.txXfers ++ [x] }.setRun e 0
      { op with phase := 4, status := BitVec.ofNat 16 status, payload := payload }
  | none => s

/-- Send what an operation writes to a neighbour (R301): WRITE messages, dealt over the links of the bundle. -/
def sendWrites (s : State) (e : Nat) (op : Op) (d : DmaDesc) (segs : List (Nat × List Byte)) : State :=
  match route s op.ctx d.node with
  | .inl st => dmaEnd s e st
  | .inr (slot, ks) =>
    let bytes := segBytes segs
    let (st, s1) := takeVerdict s
    let m := xferMsg s slot op d 1 bytes.length
    let ms := segs.flatMap fun g => (cut g.1 g.2.length).map fun c =>
      { m with addr := c.1, len := c.2, data := slice g.2 (c.1 - g.1) c.2 }
    let s2 := dmaAway s1 e { engine := e, xfer := m.xfer, slot := slot, node := d.node, links := ks.take ms.length, read := false }
      st (if st = 0 then dmaPayload bytes.length (crc32c bytes) else dmaPayload 0 0)
    sendXfer s2 slot ks m (segs.map fun g => (g.1, g.2.length)) ms

/-- Ask a neighbour for the source of an operation (R301): READ_REQ messages. A refused read ends when its requests are
acknowledged. -/
def sendReads (s : State) (e : Nat) (op : Op) (d : DmaDesc) (crcBad : Option Nat) : State :=
  match route s op.ctx d.node with
  | .inl st => dmaEnd s e st
  | .inr (slot, ks) =>
    let pieces := (srcSide d).exts.flatMap fun x => cut x.1 x.2
    let (st, s1) := takeVerdict s
    let m := xferMsg s slot op d 2 (pieces.foldl (fun n p => n + p.2) 0)
    let want := pieces.zipIdx.map fun p => (p.1.1, p.1.2, ks.getD (p.2 % ks.length) 0)
    let s2 := dmaAway s1 e { engine := e, xfer := m.xfer, slot := slot, node := d.node, links := ks.take pieces.length,
                             read := st == 0, want := if st = 0 then want else [] }
      (if st ≠ 0 then st else if crcBad.isSome then cDmaCrc else 0) (dmaPayload (if st = 0 then crcBad.getD 0 else 0) 0)
    sendXfer s2 slot ks m (srcSide d).exts (pieces.map fun p => { m with addr := p.1, len := p.2 })

/-! ### Checks before any byte moves (R227, R241, R455) -/

/-- A host side under sealed objects, under sealed pages. -/
def sealsObject (d : DmaDesc) (a : Nat) : Bool := d.crypt == 2 && hostSide a
def sealsPages (d : DmaDesc) (a : Nat) : Bool := d.crypt == 1 && cxlSide a

/-- The pages of a side. -/
def sidePages (x : Side) : List Nat := sealPages x.base x.last

/-- The extents of a local side with what its sealing touches. -/
def sideExts (s : State) (n : Nat) (d : DmaDesc) (x : Side) (write : Bool) : List Ext :=
  if sealsObject d x.base then [{ addr := x.base, len := objectBytes x.packed.last, write := write }]
  else if sealsPages d x.base then
    (sidePages x).flatMap fun p =>
      [{ addr := cxlBase + p * 4096, len := 4096, write := write }, { addr := metaAddr s n p, len := 32, write := write }]
  else x.exts.map fun e => { addr := e.1, len := e.2, write := write }

/-- The metadata of a side's pages lies where R240 asks for it. -/
def sideMeta (s : State) (n : Nat) (d : DmaDesc) (x : Side) : Bool :=
  !sealsPages d x.base || (sidePages x).all fun p => metaOk s n (metaAddr s n p)

/-- The local sides of an operation: source, destination. -/
def localSrc (d : DmaDesc) : Option Side := if d.op = 1 ∧ d.remote ≠ 1 then some (srcSide d) else none
def localDst (d : DmaDesc) : Option Side := if d.remote ≠ 2 then some (dstSide d) else none

/-- The address checks of an operation's local sides, in the order of R227. -/
def addrCheck (s : State) (n : Nat) (d : DmaDesc) : Nat :=
  let c := extCheck s n (((localSrc d).toList.flatMap fun x => sideExts s n d x false) ++
                         ((localDst d).toList.flatMap fun x => sideExts s n d x true))
  if c = cMemUnmapped then c
  else if !((localSrc d).toList ++ (localDst d).toList).all (sideMeta s n d) then cMemAccess
  else c

/-- The key and counter checks of a destination (R241, R455). -/
def sealCheck (s : State) (n : Nat) (d : DmaDesc) (y : Side) : Nat :=
  if sealsObject d y.base then
    match objKey s n (s.ctx n).keySel with
    | none => cKeyAbsent
    | some (_, _, c) => if c = 2 ^ 32 - 1 then cMemSealFail else 0
  else if sealsPages d y.base then
    if (pageKey (s.ctx n)).isNone then cKeyAbsent else if worn s n (sidePages y) then cMemSealFail else 0
  else 0

/-- The KEYSEL of a source object names a key that is absent (R455). -/
def openAbsent (s : State) (n : Nat) (d : DmaDesc) (x : Side) : Bool :=
  sealsObject d x.base && (let sel := fieldLE (load s x.base 64) 4 4; decide (sel ≤ 4) && (objKey s n sel).isNone)

/-! ### Writing a destination -/

/-- Count the conversions (R93, R249). -/
def countMoved (s : State) (e : Nat) (m : Moved) : State :=
  bump (bump (bump s (dmaPage e) 0 m.sat) (dmaPage e) 1 m.nonfin) (dmaPage e) 2 m.requant

/-- Write pieces to a local destination, sealed as the descriptor says. -/
def writeLocal (s : State) (n : Nat) (d : DmaDesc) (segs : List (Nat × List Byte)) : State :=
  if sealsObject d d.dst then
    let sel := (s.ctx n).keySel
    match objKey s n sel with
    | none => s
    | some (key, sealer, c) =>
      let l := (dstSide d).packed.last
      let pt := (List.range l).map (segByte segs)
      let hdr := objHeader sel sealer (c + 1) l n d.tid d.step
      store (setObjCounter s n sel (c + 1)) d.dst (hdr ++ sealChunks key sealer (c + 1) hdr 0 (chunks 4096 (l + 1) pt))
  else if sealsPages d d.dst then
    (sidePages (dstSide d)).foldl (fun s p =>
      sealPage s n p ((List.range 4096).map fun i => segByte segs (cxlBase + p * 4096 + i))) s
  else segs.foldl (fun s g => netStore s g.1 g.2) s

/-- The first `n` bytes of pieces. -/
def takeSegs : Nat → List (Nat × List Byte) → List (Nat × List Byte)
  | _, [] => []
  | n, g :: gs => if n = 0 then [] else (g.1, g.2.take n) :: takeSegs (n - min n g.2.length) gs

/-- The side that a conversion writes to: packed for a sealed object. -/
def outSide (d : DmaDesc) : Side := if d.remote ≠ 2 ∧ sealsObject d d.dst then (dstSide d).packed else dstSide d

/-- The traffic of an operation's local sides with its engine crosses the mesh (R24). -/
def crossSides (s : State) (e n : Nat) (d : DmaDesc) : State :=
  (((localSrc d).toList.flatMap fun x => sideExts s n d x false) ++ ((localDst d).toList.flatMap fun x => sideExts s n d x true)).foldl
    (fun s x => s.crossMem (e / 256) x.addr x.len) s

/-- Free values in place of bytes `lo` to `hi` − 1 of the pieces that a transfer carries, `off` bytes from their start. -/
def spoil (free lo hi : Nat) : Nat → List (Nat × List Byte) → List (Nat × List Byte)
  | _, [] => []
  | off, g :: gs =>
    (g.1, g.2.zipIdx.map fun x => if lo ≤ off + x.2 ∧ off + x.2 < hi then BitVec.ofNat 8 (Config.draw (free + (off + x.2 - lo))).toNat else x.1)
      :: spoil free lo hi (off + g.2.length) gs

/-- What comes of data whose CRC does not match at 64-byte granule `g` of the transfer (R235): an uncorrectable error, counted at the
destination's store and charged to the issuing context. The data is delivered as it was read at the destination: the granule's bytes
are free values (log entry 82). -/
def crcMismatch (s : State) (e : Nat) (op : Op) (d : DmaDesc) (g : Nat) (segs : List (Nat × List Byte)) :
    List (Nat × List Byte) × State :=
  let s1 := if d.remote = 2 then s else match eccCounter d.dst with | some (page, i) => bump s page (i + 1) 1 | none => s
  (spoil s.free (64 * g) (64 * g + 64) 0 segs, settle ({ s1 with free := s1.free + 64 }, [.charge cDmaCrc op.ctx e d.dst op.tag]))

/-- Land data: count, check the CRC (R235), write locally or send; a local destination is then done (R245). `crcBad` is the granule that
changed in transit, if one did. -/
def landData (s : State) (e : Nat) (op : Op) (d : DmaDesc) (m : Moved) (crcBad : Option Nat) : State :=
  let (segs, s1) := match crcBad with
    | some g => crcMismatch (countMoved s e m) e op d g m.segs
    | none => (m.segs, countMoved s e m)
  if d.remote = 2 then sendWrites s1 e op d segs
  else
    let bytes := segBytes segs
    let s2 := dmaDone (writeLocal s1 op.ctx d segs) e (if crcBad.isSome then cDmaCrc else 0) bytes.length (crc32c bytes)
    if d.rsigEn then
      match route s2 op.ctx d.node with
      | .inl _ => s2
      | .inr (slot, ks) => sendRsig s2 op d slot 1 ks
    else s2

/-- A sealed source fails its check: what was delivered stands, the operation ends with MEM_SEAL_FAIL, and its context is
charged (R241, R455). -/
def sealFail (s : State) (e : Nat) (op : Op) (addr info n : Nat) (crc : Word) : State :=
  settle (dmaDone s e cMemSealFail n crc, [.charge cMemSealFail op.ctx e addr info])

/-- Move from a source through a byte reader. -/
def moveFrom (s : State) (e : Nat) (op : Op) (d : DmaDesc) (rd : Nat → Byte) (x : Side) (crcBad : Option Nat) : State :=
  landData s e op d (moveData rd d x (outSide d) (ctxSeed s op.ctx)) crcBad

/-- Move from a sealed object: its header, then its chunks; the chunks before a failing one are delivered where rows go to rows. -/
def moveObject (s : State) (e : Nat) (op : Op) (d : DmaDesc) (crcBad : Option Nat) : State :=
  let x := (srcSide d).packed
  let l := x.last
  let h := load s d.src 64
  match objKey s op.ctx (fieldLE h 4 4) with
  | none => sealFail s e op d.src 0 0 0
  | some (key, _, _) =>
    if !headerOk h op.ctx l d.tid d.step then sealFail s e op d.src 0 0 0
    else
      let (pt, bad) := openChunks s key (fieldLE h 8 4) (fieldLE h 0xC 4) h (l + 1) 0 (d.src + 64) l
      match bad with
      | none => moveFrom s e op d (fun a => pt.getD a 0) x crcBad
      | some i =>
        let good := if linearFmt d.sfmt && linearFmt d.dfmt && d.remote != 2 && !sealsObject d d.dst && !sealsPages d d.dst then
            takeSegs (pt.length / (if d.sfmt = 0 then 1 else 2) * (if d.dfmt = 0 then 1 else 2))
              (moveData (fun a => pt.getD a 0) d x (outSide d) (ctxSeed s op.ctx)).segs
          else []
        let bytes := segBytes good
        sealFail (writeLocal s op.ctx d good) e op (d.src + 64 + i * 4112) i bytes.length (crc32c bytes)

/-- A reader of sealed pages whose tags have all been checked (R241), or the address and number of the first page that fails. -/
def openPages (s : State) (n : Nat) (x : Side) : Sum (Nat × Nat) (Nat → Byte) :=
  let ps := sidePages x
  match badPage s n ps with
  | some p => .inl (cxlBase + p * 4096, p)
  | none =>
    let text := ps.map fun p => (p, (openPage s n p).getD [])
    .inr fun a => ((text.lookup ((a - cxlBase) / 4096)).getD []).getD (a % 4096) 0

/-- Move from sealed pages: every tag is checked before any byte is delivered (R241). -/
def movePages (s : State) (e : Nat) (op : Op) (d : DmaDesc) (crcBad : Option Nat) : State :=
  match openPages s op.ctx (srcSide d) with
  | .inl (a, p) => sealFail s e op a p 0 0
  | .inr rd => moveFrom s e op d rd (srcSide d) crcBad

/-- The bytes of a linear source in clear (R241, R454): those of a sealed object or of sealed pages when all of it is authentic, or the
address and number of what fails. -/
def openText (s : State) (n : Nat) (d : DmaDesc) : Sum (Nat × Nat) (List Byte) :=
  let x := (srcSide d).packed
  if sealsObject d d.src then
    let h := load s d.src 64
    match objKey s n (fieldLE h 4 4) with
    | none => .inl (d.src, 0)
    | some (key, _, _) =>
      if !headerOk h n x.last d.tid d.step then .inl (d.src, 0)
      else match openChunks s key (fieldLE h 8 4) (fieldLE h 0xC 4) h (x.last + 1) 0 (d.src + 64) x.last with
        | (pt, none) => .inr pt
        | (_, some i) => .inl (d.src + 64 + i * 4112, i)
  else if sealsPages d d.src then
    match openPages s n (srcSide d) with
    | .inl f => .inl f
    | .inr rd => .inr ((List.range x.last).map fun i => rd (d.src + i))
  else .inr (load s d.src x.last)

/-- The operation's checks before it moves anything; 0 when it may go on. A remote signal needs a remote side (log entry 21). -/
def startCheck (s : State) (op : Op) (d : DmaDesc) : Nat :=
  if d.rsigEn ∧ d.remote = 0 then cGrlNoRoute
  else
    let a := addrCheck (s.asOf op) op.ctx d
    if a ≠ 0 then a
    else if (localSrc d).toList.any (openAbsent s op.ctx d) then cKeyAbsent
    else match localDst d with
      | some y => sealCheck s op.ctx d y
      | none => 0

/-! ### The rows -/

/-- DNOP (R242, R309): nothing moves; its remote signal leaves as it starts. -/
def execDnop (e : Nat) (s : State) : Out :=
  .next (match dmaOp s e with
    | some (op, d) =>
      if d.op ≠ 0 then s
      else if !d.rsigEn then dmaEnd s e 0
      else if d.remote = 0 then dmaEnd s e cGrlNoRoute
      else match route s op.ctx d.node with
        | .inl st => dmaEnd s e st
        | .inr (slot, ks) => sendRsig (dmaEnd s e 0) op d slot 1 ks
    | none => s)

/-- DMOVE (R245): the matrix is read, converted and written. `srcErr` is what the code of the source's store finds `errAt` bytes
from SRC_ADDR; `crcBad` is the 64-byte granule of the transfer that changes in transit, if one does (R235). -/
def execDmove (e : Nat) (srcErr : Ecc) (errAt : Nat) (crcBad : Option Nat) (s : State) : Out :=
  .next (match dmaOp s e with
    | some (op, d) =>
      if d.op ≠ 1 then s
      else
        let st := startCheck s op d
        let s0 := crossSides s e op.ctx d
        if st ≠ 0 then dmaEnd s e st
        else if d.remote = 1 then sendReads s0 e op d crcBad
        else
          let hit := (srcSide d).exts.any fun x => decide (x.1 ≤ d.src + errAt) && decide (d.src + errAt < x.1 + x.2)
          let s1 := if hit then eccAt s0 e (d.src + errAt) srcErr false else s0
          if sealsObject d d.src then moveObject s1 e op d crcBad
          else if sealsPages d d.src then movePages s1 e op d crcBad
          else moveFrom s1 e op d (loadByte s1) (srcSide d) crcBad
    | none => s)

/-- DFILL (R245). -/
def execDfill (e : Nat) (s : State) : Out :=
  .next (match dmaOp s e with
    | some (op, d) =>
      if d.op ≠ 2 then s
      else
        let st := startCheck s op d
        if st ≠ 0 then dmaEnd s e st else landData (crossSides s e op.ctx d) e op d (fillData d (outSide d)) none
    | none => s)

/-- The data of a remote read has all come: it is converted and written (R301). -/
def readLanded (s : State) (x : TxXfer) : State :=
  match s.run x.engine 0 with
  | some op =>
    if op.done ∨ op.stop ≠ 0 then s
    else
      let d := dmaDesc op.body
      let rd := fun a => match x.parts.find? fun g => decide (g.1 ≤ a) && decide (a < g.1 + g.2.length) with
        | some g => g.2.getD (a - g.1) 0
        | none => 0
      moveFrom ((crossSides s x.engine op.ctx d).setRun x.engine 0 { op with status := 0 }) x.engine op d rd (srcSide d)
        (if op.status = 0 then none else some (op.payload.getD 0 0).toNat)
  | none => s

end Sys2Proof.Machine
end

