-- ==== Sys2Proof/Machine/OvsOps.lean ====
section
/-! DEFINITION. Descriptors of a fabric, harvests, forced switches, dozing and sleeping, assignment (12, R367, R371 to R389). -/

namespace Sys2Proof.Machine

open Sys2Proof

/-! ### Descriptors (R372 to R374) -/

/-- The fields of an Ouvvos descriptor (R372). -/
structure OvsDesc where
  op : Nat
  addr : Nat
  len : Nat
  slot : Nat
  tile : Nat
  moff : Nat
  atEn : Bool
  pstate : Nat
  atSec : Nat
  atNs : Nat
  clean : Bool
  deriving DecidableEq, Repr

/-- The fields of a descriptor's 64 bytes. `clean`: every reserved field is 0. -/
def ovsDesc (body : List Byte) : OvsDesc :=
  let w := fun i => fieldLE body (8 * i) 8
  { op := bits (w 0) 0 8, addr := bits (w 1) 0 52, len := bits (w 2) 0 32, slot := bits (w 2) 32 4, tile := bits (w 2) 40 10,
    moff := bits (w 3) 0 15, atEn := bit (w 3) 16, pstate := bits (w 3) 17 2, atSec := bits (w 3) 32 32, atNs := bits (w 4) 0 30,
    clean := bits (w 1) 52 12 == 0 && bits (w 2) 36 4 == 0 && bits (w 2) 50 14 == 0 && !bit (w 3) 15 && bits (w 3) 19 13 == 0 &&
      bits (w 4) 30 34 == 0 && (w 5) == 0 && (w 6) == 0 && (w 7) == 0 }

/-- The lowest reason of R373 that applies; 0 when none does. Reasons 3, 5 and 6 concern the fields that the operation uses. -/
def ovsCheck (body : List Byte) : Nat :=
  let d := ovsDesc body
  let memOp := d.op == 4 || d.op == 5
  if 6 < d.op then 1
  else if !d.clean then 2
  else if (memOp ∧ columnType (d.tile % 32) ≠ 2) ∨ (d.op = 2 ∧ 1000000000 ≤ d.atNs) then 3
  else if ((memOp ∨ d.op = 1) ∧ (d.len = 0 ∨ d.len % 8 ≠ 0)) ∨ (memOp ∧ 32768 < d.moff + d.len) ∨ (d.op = 1 ∧ 786432 < d.len) then 4
  else if d.op = 6 ∧ 2 ≤ d.pstate then 5
  else if (d.op = 1 ∧ d.addr % 64 ≠ 0) ∨ (memOp ∧ (d.addr % 8 ≠ 0 ∨ d.moff % 8 ≠ 0)) then 6
  else 0

/-- The first payload word of an Ouvvos record (R374): slot, epoch and power state as they stand, and CHECK. -/
def ovsWord0 (s : State) (f check : Nat) : Word :=
  let x := s.fabric f
  BitVec.ofNat 32 (x.active.getD 0 + x.epoch.toNat * 16 + (if x.pstate = 3 then 2 else x.pstate) * 64 + check * 256)

/-- The payload of an Ouvvos record. CYCLES is free (log entry 9). -/
def ovsPayload (s : State) (f check imbal residue flags : Nat) : List Word :=
  [ovsWord0 s f check, BitVec.ofNat 32 (imbal % 2 ^ 16 + residue % 2 ^ 16 * 2 ^ 16), (Config.draw s.free).truncate 32,
   BitVec.ofNat 32 flags]

/-- The fabric's operation is done with a status. -/
def ovsDone (s : State) (f status imbal residue flags : Nat) : State :=
  let e := fabEng f
  match s.run e 0 with
  | some op =>
    ({ s with free := s.free + 1 } : State).setRun e 0
      { op with done := true, status := BitVec.ofNat 16 status, payload := ovsPayload s f 0 imbal residue flags }
  | none => s

/-- The operation under way on a fabric that is neither done nor stopped, with its descriptor; `away` selects one that waits for its
time, its harvest or the wake-up. A dozing fabric wakes first (R386). -/
def ovsOp (s : State) (f : Nat) (away : Bool) : Option (Op × OvsDesc) :=
  if 4 ≤ f then none
  else match s.run (fabEng f) 0 with
    | some op => if op.done || op.stop != 0 || (op.phase == 4) != away then none else some (op, ovsDesc op.body)
    | none => none

/-- The operation waits. -/
def ovsWait (s : State) (f : Nat) (op : Op) : State := s.setRun (fabEng f) 0 { op with phase := 4 }

/-- Carry out an operation code of a fabric in RUN or SLEEP. -/
def ovsRow (f code : Nat) (g : State → Op → OvsDesc → State) (s : State) : Out :=
  .next (match ovsOp s f false with
    | some (op, d) =>
      if d.op = code ∧ ((s.fabric f).pstate = 0 ∨ (s.fabric f).pstate = 2) then g s op d else s
    | none => s)

/-- The fabric sleeps. -/
def asleep (s : State) (f : Nat) : Bool := (s.fabric f).pstate == 2

/-- ONOP (R372). -/
def execOnop (f : Nat) (s : State) : Out := ovsRow f 0 (fun s _ _ => ovsDone s f 0 0 0 0) s

/-- OLOAD (R371, R375): the image is checked and kept with its slot; a refused one leaves the slot as it was. -/
def execOload (f : Nat) (s : State) : Out :=
  ovsRow f 1 (fun s op d =>
    let x := s.fabric f
    if x.active = some d.slot then ovsDone s f cOvsSlotActive 0 0 0
    else
      let st := extCheck (s.asOf op) op.ctx [{ addr := d.addr, len := d.len, write := false }]
      if st ≠ 0 then ovsDone s f st 0 0 0
      else
        let img := load s d.addr d.len
        match imageBad img with
        | some (reason, off) => ovsDone (pageErr (s.crossMem 8 d.addr d.len) (ovsPage f) cOvsImageBad reason off) f cOvsImageBad 0 0 0
        | none => ovsDone ((s.crossMem 8 d.addr d.len).setFabric f { x with images := tput x.images d.slot img }) f 0 0 0 0) s

/-- TB3 against AT (R380): the difference of the seconds modulo 2^32, read as signed, then the nanoseconds. -/
def atReached (s : State) (d : OvsDesc) (strict : Bool) : Bool :=
  let diff := signed 32 (s.tb3.sec.toNat % 2 ^ 32 + 2 ^ 32 - d.atSec)
  decide (0 < diff) || (diff == 0 && (if strict then decide (d.atNs < s.tb3.ns) else decide (d.atNs ≤ s.tb3.ns)))

/-- Timed triggers are disabled for the job of a context (R304, R380). -/
def untimed (s : State) (n : Nat) : Bool :=
  match jobOf s n with
  | some k => !(s.jobSlot k).timeOk
  | none => false

/-- OSWITCH (R375, R376, R380). -/
def execOswitch (f : Nat) (s : State) : Out :=
  ovsRow f 2 (fun s op d =>
    let x := s.fabric f
    if asleep s f then ovsDone s f cOvsAsleep 0 0 0
    else if !x.isHarvested then ovsDone s f cOvsCfgBusy 0 0 0
    else if (x.image d.slot).isNone then ovsDone s f cOvsSlotEmpty 0 0 0
    else if d.atEn ∧ !untimed s op.ctx ∧ !atReached s d false then ovsWait s f op
    else
      let late := d.atEn && atReached s d true
      ovsDone (doSwitch s f d.slot) f 0 0 0 (b2n late + b2n (d.atEn && untimed s op.ctx) * 2)) s

/-- OSWITCH_AT (R380): TB3 has reached AT. -/
def execOswitchAt (f : Nat) (s : State) : Out :=
  .next (match ovsOp s f true with
    | some (_, d) => if d.op = 2 ∧ atReached s d false then ovsDone (doSwitch s f d.slot) f 0 0 0 0 else s
    | none => s)

/-- OHARVEST (R377). -/
def execOharvest (f : Nat) (s : State) : Out :=
  ovsRow f 3 (fun s op _ =>
    if asleep s f then ovsDone s f cOvsAsleep 0 0 0 else ovsWait (startHarvest s f) f op) s

/-- OMEMW (R372, R382): each word of the MEM tile is written whole. -/
def execOmemw (f : Nat) (s : State) : Out :=
  ovsRow f 4 (fun s op d =>
    if asleep s f then ovsDone s f cOvsAsleep 0 0 0
    else
      let st := extCheck (s.asOf op) op.ctx [{ addr := d.addr, len := d.len, write := false }]
      if st ≠ 0 then ovsDone s f st 0 0 0
      else
        let x := s.fabric f
        let mems := (List.range (d.len / 8)).foldl (fun m i =>
          tset 0 m (d.tile * 4096 + d.moff / 8 + i) (BitVec.ofNat 64 (ofLE (load s (d.addr + 8 * i) 8)))) x.mems
        ovsDone ((s.crossMem 8 d.addr d.len).setFabric f { x with mems := mems }) f 0 0 0 0) s

/-- OMEMR (R372). -/
def execOmemr (f : Nat) (s : State) : Out :=
  ovsRow f 5 (fun s op d =>
    if asleep s f then ovsDone s f cOvsAsleep 0 0 0
    else
      let st := extCheck (s.asOf op) op.ctx [{ addr := d.addr, len := d.len, write := true }]
      if st ≠ 0 then ovsDone s f st 0 0 0
      else
        let bs := (List.range (d.len / 8)).flatMap fun i => toLE 8 (memWord (s.fabric f) d.tile (d.moff / 8 + i)).toNat
        ovsDone (netStore (s.crossMem 8 d.addr d.len) d.addr bs) f 0 0 0 0) s

/-- OPOWER (R387). -/
def execOpower (f : Nat) (s : State) : Out :=
  ovsRow f 6 (fun s op d =>
    let x := s.fabric f
    if d.pstate = 1 then
      if asleep s f then ovsDone s f 0 0 0 0
      else if !x.isHarvested then ovsDone s f cOvsCfgBusy 0 0 0
      else let s1 := s.setFabric f { x with pstate := 2, ingress := false }; ovsDone s1 f 0 0 0 0
    else if asleep s f then ovsWait (s.setFabric f { x with pstate := 3 }) f op
    else ovsDone s f 0 0 0 0) s

/-- FABRIC_WAKE_DONE (R387): the fabric is in RUN with the same active slot. -/
def execFabricWakeDone (f : Nat) (s : State) : Out :=
  .next (
    let x := s.fabric f
    if f < 4 ∧ x.pstate = 3 then
      let s1 := s.setFabric f { x with pstate := 0 }
      match ovsOp s1 f true with
      | some (_, d) => if d.op = 6 then ovsDone s1 f 0 0 0 0 else s1
      | none => s1
    else s)

/-! ### When nothing fires (R377, R386, R389) -/

/-- The row of an operation. -/
def tileRow (ttype op : Nat) : Nat → Nat → State → Out :=
  match ttype, op with
  | 0, 1 => execDot | 0, 2 => execDotw | 0, 3 => execAdd2 | 0, 4 => execMul2 | 0, 5 => execFma2 | 0, 6 => execMax2 | 0, _ => execBias2
  | 1, 1 => execFunc2 | 1, 2 => execActpack | 1, 3 => execUnpack | 1, 4 => execArgmax | 1, 5 => execThresh | 1, _ => execClassify
  | 2, 1 => execTable | 2, 2 => execRead | 2, 3 => execWrite | 2, _ => execFifo
  | 3, 1 => execIngress | 3, 3 => execMread | 3, 4 => execPost | 3, 5 => execSignal | 3, _ => execEndHarvest
  | _, 1 => execSteer | _, 2 => execMerge | _, 3 => execSluRepeat | _, 4 => execZip | _, 5 => execCount | _, 6 => execRate
  | _, _ => execGen

/-- An EGRESS tile has a token to take; the LAST token of a group goes to the builder, which holds one reply (R400). -/
def egressReady (x : Fabric) (tl : Tile) : Bool :=
  tl.ttype == 3 && tl.op == 2 && !tl.fault &&
  match headOf tl.a with
  | some k => x.builder.isEmpty || k.ctrl || !k.last || tl.mark.isNone
  | none => false

/-- A tile cannot fire: its row changes nothing in the fabric. A RATE tile that holds an element waits for its bucket (R364). -/
def tileIdle (s : State) (f t : Nat) : Bool :=
  let x := s.fabric f
  let tl := x.tile t
  if tl.ttype = 3 ∧ tl.op = 2 then !egressReady x tl
  else if tl.ttype = 4 ∧ tl.op = 6 then !armed s f t 4 6 || (rateFire x tl 0).isNone
  else match tileRow tl.ttype tl.op f t s with
    | .next s1 => s1.fabric f == x && s1.free == s.free
    | _ => true

/-- No tile fires and no token moves. -/
def fabricStill (s : State) (f : Nat) : Bool :=
  still (s.fabric f) && (s.fabric f).stray.isEmpty && (s.fabric f).tiles.all fun t => tileIdle s f t.1

/-- IO requests of a fabric that are not finished (R377, R410): reads, replies in the builder, records and signals that wait. -/
def ioOutstanding (x : Fabric) : Bool := (x.tiles.any fun t => !t.2.reads.isEmpty) || !x.builder.isEmpty || !x.memq.isEmpty

/-- Tokens stand in queues, buffers or on links. -/
def tokensQueued (x : Fabric) : Bool :=
  !x.skids.isEmpty || x.tiles.any fun t => !(t.2.a.isEmpty && t.2.b.isEmpty && t.2.c.isEmpty && t.2.out0.isEmpty &&
    t.2.out1.isEmpty && t.2.fifo.isEmpty)

/-- An operation of a fabric is under way. -/
def fabricRuns (s : State) (f : Nat) : Bool := (s.run (fabEng f) 0).isSome

/-! ### Harvests (R377 to R381) -/

/-- A sluice that pairs control with data (R362). -/
def pairing (tl : Tile) : Bool := tl.ttype == 4 && (tl.op == 1 || tl.op == 2 || tl.op == 3)

/-- A pairing sluice is unbalanced (R379). -/
def imbalanced (tl : Tile) : Bool := pairing tl && (!tl.a.isEmpty || !tl.b.isEmpty || !tl.c.isEmpty || tl.groupOpen)

/-- Another tile with a token left in a queue (R379). -/
def hasResidue (tl : Tile) : Bool := !pairing tl && (!tl.a.isEmpty || !tl.b.isEmpty || !tl.c.isEmpty)

/-- Report what one tile has left (R379, R389). -/
def reportTile (s : State) (f t : Nat) (tl : Tile) : State :=
  if imbalanced tl then
    ovsEvent s f 3 (t + tl.c.length * 2 ^ 10 + (tl.a.length + tl.b.length) * 2 ^ 16 + b2n tl.groupOpen * 2 ^ 22)
  else if hasResidue tl then
    [0, 1, 2].foldl (fun s p => if (tl.inq p).isEmpty then s
      else ovsEvent s f 4 (t + p * 2 ^ 10 + (tl.inq p).length * 2 ^ 12)) s
  else s

/-- The harvest's operation, if one waits for it, is done. -/
def harvestRecord (s : State) (f status imbal residue flags : Nat) : State :=
  match ovsOp s f true with
  | some (_, d) => if d.op = 3 then ovsDone s f status imbal residue flags else s
  | none => s

/-- SWITCHED (R389): slot, epoch, and whether it was forced. -/
def switchedInfo (x : Fabric) (forced : Bool) : Nat := x.active.getD 0 + x.epoch.toNat * 16 + b2n forced * 64

/-- A harvest that ended OK goes on to the next section (R381): the state, and whether it switched. SECTION_END names the section
that has ended. -/
def nextSection (s : State) (f : Nat) : State × Bool :=
  let x := s.fabric f
  match x.active with
  | none => (s, false)
  | some k =>
    match x.image k with
    | none => (s, false)
    | some img =>
      if !imgNextEn img then (s, false)
      else if (x.image (imgNextSlot img)).isSome then
        let s1 := doSwitch s f (imgNextSlot img)
        (ovsEvent s1 f 6 (switchedInfo (s1.fabric f) false), true)
      else (ovsEvent s f 5 k, false)

/-- A harvest that the epoch increment found running is followed by the reopening (R384). -/
def reopenAfter (s : State) (f : Nat) : State :=
  if (s.fabric f).reopenDue then s.setFabric f (reopenFabric (s.fabric f)) else s

/-- HARVEST_QUIESCE (R377, R379, R381). -/
def execHarvestQuiesce (f : Nat) (s : State) : Out :=
  .next (
    let x := s.fabric f
    if f < 4 ∧ x.harvesting ∧ fabricStill s f ∧ !ioOutstanding x then
      let imbal := x.tiles.countP fun t => imbalanced t.2
      let residue := x.tiles.countP fun t => hasResidue t.2
      let s1 := x.tiles.foldl (fun s t => reportTile s f t.1 t.2) s
      let x1 := s1.fabric f
      let x2 := { x1 with harvesting := false, harvested := true, skids := [], tiles := x1.tiles.map fun t => (t.1, clearTile t.2) }
      let s2 := bump (s1.setFabric f x2) (ovsPage f) 10 1
      let status := if imbal ≠ 0 then cOvsImbalance else if residue ≠ 0 then cOvsResidue else 0
      let (s3, went) := if status = 0 then nextSection s2 f else (s2, false)
      reopenAfter (harvestRecord s3 f status imbal residue (b2n went * 4)) f
    else s)

/-- OVS_HARVEST_TMO (R378): the harvest ends, the fabric is not harvested and ingress stays closed. -/
def execOvsHarvestTmo (f : Nat) (s : State) : Out :=
  .next (
    let x := s.fabric f
    if f < 4 ∧ x.harvesting then
      reopenAfter (harvestRecord (s.setFabric f { x with harvesting := false, harvested := false }) f cOvsHarvestTmo 0 0 0) f
    else s)

/-- The accessor may write the registers of a fabric that are open to its context (R389, R411). -/
def fabricOpen (s : State) (a : Acc) (f : Nat) : Bool :=
  accLive s a && (isWarden s a || ((s.fabric f).ctx.isSome && (s.fabric f).ctx == accCtx s a))

/-- A write of OVS_CMD (R378). -/
def ovsCmdWrite (s : State) (a : Acc) (f : Nat) (v : Word) : State :=
  if f < 4 ∧ fabricOpen s a f then
    if bit v.toNat 0 then s.setFabric f (reopenFabric (s.fabric f)) else s
  else denied s a

/-- REOPEN (R378). -/
def execReopen (a : Acc) (f : Nat) (v : Word) (s : State) : Out := .next (ovsCmdWrite s a f v)

/-! ### Forced switches (R383) -/

/-- A write of OVS_FORCE (R383): GO with a loaded slot closes ingress; a sleeping fabric first wakes. -/
def ovsForceWrite (f : Nat) (v : Word) (s : State) : State :=
  if 4 ≤ f then s
  else
    let s1 := plainWrite s (ovsPage f) 0x90 v
    let x := s1.fabric f
    let k := bits v.toNat 0 4
    if bit v.toNat 31 ∧ (x.image k).isSome then
      s1.setFabric f { x with force := some k, ingress := false, pstate := if x.pstate = 2 then 3 else x.pstate }
    else s1

/-- OVS_FORCE (R383). -/
def execOvsForce (a : Acc) (f : Nat) (v : Word) (s : State) : Out := .next (wardenOnly s a (ovsForceWrite f v))

/-- Tokens in the queues, output buffers and FIFOs of a tile. -/
def tileTokens (t : Tile) : Nat :=
  t.a.length + t.b.length + t.c.length + t.out0.length + t.out1.length + t.spill0.length + t.spill1.length + t.fifo.length

/-- The tokens that stand on links (R348, R383): the tiles and ports that each has yet to reach. -/
def onLinks (x : Fabric) : List (Nat × Nat × Token) :=
  x.skids.flatMap fun e =>
    let at_ := e.1 % 1024
    let ds := (routeDests x (e.1 / 2048) (e.1 / 1024 % 2)).filter fun d => (pathOf d.src d.way d.tile).contains at_
    e.2.flatMap fun k => ds.map fun d => (d.tile, d.inPort, k)

/-- FORCED_SWITCH (R383, R410): due once every read, reply, record write and signal has finished. Tokens on links are left for STALE;
replies that EGRESS tiles have begun are discarded (log entry 26). -/
def execForcedSwitch (f : Nat) (s : State) : Out :=
  .next (
    let x := s.fabric f
    match x.force with
    | none => s
    | some k =>
      if 4 ≤ f ∨ 2 ≤ x.pstate ∨ ioOutstanding x then s
      else
        let drops := (x.tiles.map fun t => tileTokens t.2).sum
        let begun := x.tiles.countP fun t => t.2.mark.isSome
        let s1 := bump (bump s (ovsPage f) 4 drops) (pathPage f) 12 begun
        let x1 := { s1.fabric f with force := none, pstate := 0, stray := x.stray ++ onLinks x, harvesting := false, reopenDue := false }
        let s2 := doSwitch (s1.setFabric f x1) f k
        let s3 := ovsEvent s2 f 6 (switchedInfo (s2.fabric f) true)
        if (ovsOp s3 f false).isSome ∨ (ovsOp s3 f true).isSome then ovsDone s3 f cOvsForced 0 0 0 else s3)

/-- STALE (R383): a token that a forced switch left on a link reaches its tile and is discarded; the first since the switch posts STALE. -/
def execStale (f t port : Nat) (tok : Token) (s : State) : Out :=
  .next (
    let x := s.fabric f
    if f < 4 ∧ x.stray.contains (t, port, tok) then
      let s1 := bump (s.setFabric f { x with staleSeen := true, stray := x.stray.erase (t, port, tok) }) (ovsPage f) 3 1
      if x.staleSeen then s1 else ovsEvent s1 f 7 (t % 1024)
    else s)

/-! ### Dozing (R386) and the watchdog (R389) -/

/-- DOZE_ENTER (R386). -/
def execDozeEnter (f : Nat) (s : State) : Out :=
  .next (
    let x := s.fabric f
    if f < 4 ∧ x.pstate = 0 ∧ bit (regGet s (ovsPage f) 0x84).toNat 0 ∧ fabricStill s f ∧ !fabricRuns s f
    then s.setFabric f { x with pstate := 1 } else s)

/-- DOZE_WAKE (R386): a token is offered at an IO tile, or a descriptor is at the head of the queue. -/
def execDozeWake (f : Nat) (s : State) : Out :=
  .next (
    let x := s.fabric f
    if f < 4 ∧ x.pstate = 1 ∧ ((x.tiles.any fun t => !t.2.deliver.isEmpty || !t.2.reads.isEmpty) ∨ !(s.queue (fabEng f) 0).isEmpty ∨
        fabricRuns s f)
    then s.setFabric f { x with pstate := 0 } else s)

/-- The tile with the most queued tokens, the lowest-numbered of them (R389). -/
def fullestTile : List (Nat × Tile) → Nat × Nat → Nat
  | [], best => best.1
  | (t, x) :: r, best =>
    let n := x.a.length + x.b.length + x.c.length
    fullestTile r (if best.2 < n then (t, n) else best)

/-- PAUSE or PFC holds the reply builder (R389): class 7 of the port of its reply is paused. -/
def builderHeld (s : State) (f : Nat) : Bool :=
  match (s.fabric f).builder with
  | e :: _ => classPaused (s.mac (4 * f + e.req.port)) 7
  | [] => false

/-- OVS_STALL (R389): the watchdog expires: tokens are queued, nothing moves, no IO tile's request is outstanding and no pause holds the
builder. -/
def execOvsStall (f : Nat) (s : State) : Out :=
  .next (
    let x := s.fabric f
    if f < 4 ∧ regGet s (ovsPage f) 0x88 ≠ 0 ∧ tokensQueued x ∧ fabricStill s f ∧ (x.tiles.all fun t => t.2.reads.isEmpty) ∧
        !builderHeld s f then
      let info := fullestTile x.tiles (0, 0)
      ovsEvent (bump (pageErrOpen (s.setFabric f { x with stalled := true }) (ovsPage f) cOvsStall) (ovsPage f) 11 1) f 2 info
    else s)

/-! ### Assignment (R384) -/

/-- Clear the counters of a page, and its OVF bits. -/
def clearCounters (s : State) (page : Nat) : State :=
  { s with cnts := s.cnts.filter fun c => c.1 / 256 != page }

/-- Clear the path page of a fabric (R411): its registers, counters and request numbers. -/
def clearPath (s : State) (f : Nat) : State :=
  let s1 := { s with regs := s.regs.filter fun r => r.1 / 4096 != pathPage f }
  (List.range 4).foldl (fun s p =>
    let m := 4 * f + p
    s.setMac m { s.mac m with open_ := [], nextReq := 0, lastFinal := 0xFFFF, steer := none }) (clearCounters s1 (pathPage f))

/-- A fabric as it stands after assignment or block reset: slots and stores empty, epoch 0, RUN (R384). -/
def freshFabric (n : Option Nat) : Fabric := { ctx := n }

/-- Assign a fabric to a context, or to none. -/
def assignFabric (s : State) (f : Nat) (n : Option Nat) : State :=
  let s1 := regPut (clearPath (clearCounters s (ovsPage f)) f) (ovsPage f) 0xA4 0
  let aborted := match n with | some k => (s.ctx k).st == .aborted | none => false
  let s2 := s1.setFabric f { freshFabric n with harvesting := aborted, evq := (s.fabric f).evq }
  match n with
  | some k => { s2 with owner := tput s2.owner (fabEng f * 4) k }
  | none => { s2 with owner := tdel s2.owner (fabEng f * 4) }

/-- A write of OVS_ASSIGN (R384). -/
def ovsAssignWrite (f : Nat) (v : Word) (s : State) : State :=
  if 4 ≤ f then s
  else assignFabric (plainWrite s (ovsPage f) 0x44 v) f (if bit v.toNat 31 then some (bits v.toNat 0 6) else none)

/-- OVS_ASSIGN (R384): the warden assigns the fabric. -/
def execOvsAssign (a : Acc) (f : Nat) (v : Word) (s : State) : Out := .next (wardenOnly s a (ovsAssignWrite f v))

/-- A read of OVS_EVQ_LO (R389): the head event leaves the queue; to the context the register reads 0 and removes nothing. -/
def ovsEvqRead (s : State) (a : Acc) (f : Nat) : State :=
  if 4 ≤ f then s
  else if isWarden s a ∧ accLive s a then
    match (s.fabric f).evq with
    | [] => setRead (regPut s (ovsPage f) 0xAC 0) a 0
    | e :: rest =>
      setRead (regPut (s.setFabric f { s.fabric f with evq := rest }) (ovsPage f) 0xAC
        (BitVec.ofNat 32 (e.ctx + e.code * 256 + 2 ^ 31))) a e.info
  else deniedRead s a

/-- OVS_EVQ_READ (R389). -/
def execOvsEvqRead (a : Acc) (f : Nat) (s : State) : Out := .next (ovsEvqRead s a f)

end Sys2Proof.Machine
end

