-- ==== Sys2Proof/Machine/Pan.lean ====
section
/-! DEFINITION. The events of a pan: tiles, replay, bittern, output, and how its operation ends (04, R105 to R141). An event
that is not due for the operation under way changes nothing (log entry 2). -/

namespace Sys2Proof.Machine

open Sys2Proof

/-- The PAN page of a bay. -/
def panPage (b : Nat) : Nat := pageOf 10 b

/-- The payload of R139: flags, with the cycles as a free value (log entry 9). -/
def panPayload (p : Pan) (check : Nat) (cycles : Word) : List Word :=
  [ BitVec.ofNat 32 (p.replays % 65536 + p.lates % 65536 * 65536),
    BitVec.ofNat 32 (p.fallbacks % 65536 + p.outMax % 65536 * 65536),
    cycles,
    BitVec.ofNat 32 (b2n p.inSat + 2 * b2n p.nonfin + 4 * b2n p.oor + 8 * b2n p.outSat + 16 * b2n p.outNonfin +
      32 * b2n p.reconv + 256 * check) ]

/-- The operation of a pan is done with a status: its payload and flags stand in it (R132, R139), its busy cycles are counted
(log entry 9), and its requests are dropped. -/
def panDone (s : State) (b : Nat) (op : Op) (status : Nat) : State :=
  let p := s.pan b
  let (cyc, s1) := drawFree s
  let rf := b2n (decide (0 < p.replays) || p.reconv) + 2 * b2n (decide (0 < p.lates))
  let s2 := s1.setRun (bayEng b) 0 { op with done := true, status := BitVec.ofNat 16 status, rflags := BitVec.ofNat 16 rf,
                                             payload := panPayload p 0 (BitVec.ofNat 32 cyc.toNat) }
  dropWaiter (dropWaiter (dropRequests (bumpFree (s2.setPan b { p with stage := 9 }) (panPage b) 4) (bayEng b) 0) (.pan b 0)) (.pan b 1)

/-- The pan operation under way on a bay that is neither done nor marked to stop, with its fields. -/
def panRun (s : State) (b : Nat) : Option (Op × PanDesc) :=
  match s.run (bayEng b) 0 with
  | some op => if op.done || op.stop != 0 then none else some (op, panDesc op.body)
  | none => none

/-- The same while it goes on: once a guarded granule was written, MEM_RESIDENCY is all that is left of it (R230). -/
def panOp (s : State) (b : Nat) : Option (Op × PanDesc) := if (s.pan b).guardHit then none else panRun s b

/-- Act on the pan operation under way at a stage. -/
def panAt (s : State) (b stage : Nat) (f : Op → PanDesc → Pan → State) : Out :=
  .next (match panOp s b with
    | some (op, d) => if (s.pan b).stage = stage ∧ d.op ≠ 0 then f op d (s.pan b) else s
    | none => s)

/-! ### Waiting for slots (R118) -/

/-- Begin the wait of a streamed operand for its next slot: none when the channel's difference already exceeds the slots
held; a faulted or unmapped channel stops the operation with its code (R9, R269). -/
def armSlot (s : State) (b : Nat) (op : Op) (isB : Bool) (vid : Nat) : State :=
  let stopWith := fun (s : State) (c : Nat) => s.setRun (bayEng b) 0 { op with stop := BitVec.ofNat 16 c }
  match translate s op.ctx vid with
  | none => stopWith (nameFault s op.ctx vid) cSyncUnmapped
  | some key =>
    let s := s.cross (b / 32) (objDie 2 key)
    let c := s.credit key
    let p := s.pan b
    let held := if isB then p.b.held else p.a.held
    if homeOff s vid key then stopWith s cEngineFenced
    else if c.faulted then stopWith s cCreditFaulted
    else if (held : Int) < creditDiff c then s
    else
      let w : WaitEnt := { who := .pan b (if isB then 1 else 0), ctx := op.ctx, vid := vid, clears := false, arg := held + 1,
                           noTmo := (s.ctx op.ctx).tmo == 0, seq := s.waitSeq }
      let s1 := { s with waitSeq := s.waitSeq + 1 }.setCredit key { c with waiters := c.waiters ++ [w] }
      s1.setPan b (if isB then { p with b := { p.b with waits := true } } else { p with a := { p.a with waits := true } })

/-- Arrive at a tile: each streamed operand begins its wait. -/
def armTile (s : State) (b : Nat) (op : Op) (d : PanDesc) : State :=
  let s1 := if d.aStream then armSlot s b op false d.aCredit else s
  match s1.run (bayEng b) 0 with
  | some op1 => if d.bStream ∧ op1.stop = 0 then armSlot s1 b op1 true d.bCredit else s1
  | none => s1

/-- PAN_SLOT_READY (R118): the slots of the tile are filled. -/
def execPanSlotReady (b : Nat) (s : State) : Out :=
  panAt s b 1 fun _ d p =>
    if (d.aStream || d.bStream) && !p.a.waits && !p.b.waits then s.setPan b { p with ready := true } else s

/-! ### Opening a tile (R120, R126) -/

/-- The scale request of an operand of the pan (R143). -/
def panRequest (op : Op) (d : PanDesc) (operand : Nat) : SalReq :=
  { engine := op.engine, unit := 0, operand := operand, ctx := op.ctx, step := d.step,
    tid := if operand = 0 then d.aTid else if operand = 1 then d.bTid else d.dTid,
    fmt := if operand = 0 then (loadFmt d.aFmt).getD 0 else if operand = 1 then (loadFmt d.bFmt).getD 0 else (outFmt d.dFmt).2.2 }

/-- A fresh tile of an operand: its slot is held, its scale not yet known. -/
def openRun (o : OpRun) (streamed asks : Bool) : OpRun :=
  { held := if streamed then o.held + 1 else o.held, scale := { asked := asks } }

/-- PAN_TILE_START (R120, R126): the checkpoint is taken and the scales are asked for. -/
def execPanTileStart (b : Nat) (s : State) : Out :=
  panAt s b 1 fun op d p =>
    if (d.aStream || d.bStream) && !p.ready then s
    else
      let qa := (loadFmt d.aFmt).isSome
      let qb := (loadFmt d.bFmt).isSome
      let s1 := s.setPan b { p with stage := 2, ckAcc := p.acc, ckBit := p.bit, a := openRun p.a d.aStream qa,
                                    b := openRun p.b d.bStream qb, outliers := [], capMiss := false, bTile := [] }
      let s2 := if qa then askScale s1 (panRequest op d 0) else s1
      if qb then askScale s2 (panRequest op d 1) else s2

/-- The scales that a tile asked for are known. -/
def scalesKnown (p : Pan) : Bool := (!p.a.scale.asked || p.a.scale.known) && (!p.b.scale.asked || p.b.scale.known)

/-! ### Releasing slots (R118, R130) -/

/-- Release the slot of a streamed operand: one credit is consumed (R118). -/
def releaseSlot (s : State) (b : Nat) (op : Op) (isB : Bool) (vid : Nat) : State :=
  let p := s.pan b
  let s1 := s.setPan b (if isB then { p with b := { p.b with held := p.b.held - 1 } } else { p with a := { p.a with held := p.a.held - 1 } })
  match translate s1 op.ctx vid with
  | none => nameFault s1 op.ctx vid
  | some key =>
    let (s2, _, _, k) := creditOp (s1.reach (b / 32) (objDie 2 key)) key op.ctx vid false 1 { eng := op.engine, op := 0xF4 }
    settle (s2, k)

/-- A 16-bit source under EVICT_OK is released once it is read, every other one when its tile has completed (R130). -/
def releasesEarly (d : PanDesc) (isB : Bool) : Bool := d.evict && (srcFmt (if isB then d.bFmt else d.aFmt)).isSome

/-- Release the slots of the operands that go at this time. -/
def releaseSlots (s : State) (b : Nat) (op : Op) (d : PanDesc) (early : Bool) : State :=
  let s1 := if d.aStream ∧ releasesEarly d false = early then releaseSlot s b op false d.aCredit else s
  if d.bStream ∧ releasesEarly d true = early then releaseSlot s1 b op true d.bCredit else s1

/-! ### Running a tile (R107 to R111, R123 to R130) -/

/-- Whether a saturated or overflowing operand falls back to its shadow (R130). -/
def usesShadow (d : PanDesc) (u : Used) (miss : Bool) : Bool := d.evict && u.eff != 3 && (miss || (u.eff == 0 && !u.sat.isEmpty))

/-- Record a run of the tile in the pan. -/
def storeRun (p : Pan) (a b : Used) (miss : Bool) (stage : Nat) : Pan :=
  { p with stage := stage, acc := accumulate p.ckAcc a.strips b.strips, bit := p.ckBit, bTile := widenB b.strips,
           outliers := if miss then [] else a.outliers, capMiss := miss,
           nonfin := p.nonfin || a.nonfin || b.nonfin,
           outMax := max p.outMax (if miss then 2048 else a.outliers.length),
           a := { p.a with scale := a.scale, eff := a.eff, obs := a.obs, sat := a.sat },
           b := { p.b with scale := b.scale, eff := b.eff, obs := b.obs, sat := b.sat } }

/-- The late fall-back of a tile (R130): from the checkpoint, with the shadow in place of each operand that calls for it. -/
def lateRunOf (p : Pan) (a b : Used) (la lb : Bool) : LateRun :=
  { acc := accumulate p.ckAcc a.strips b.strips, bTile := widenB b.strips,
    a := { p.a with scale := a.scale, eff := a.eff, obs := a.obs, late := la, corrected := la },
    b := { p.b with scale := b.scale, eff := b.eff, obs := b.obs, late := lb, corrected := lb } }

/-- A tile's first run (R107 to R111, R123, R127, R130, R154): its events stand for PAN_TILE_END. With EVICT_OK the shadow is
written, what the late fall-back from it gives is held, and an operand that saturates in a format no narrower than the shadow's
keeps its saturated result. -/
def runTile (s : State) (b : Nat) (op : Op) (d : PanDesc) (p : Pan) : State :=
  let ua := useOperand s op d p false
  let ub := useOperand s op d p true
  let miss := 2048 < ua.outliers.length
  if d.evict then
    let (sa, qa) := shadowOf d false ua
    let (sb, qb) := shadowOf d true ub
    let s1 := if ua.eff ≠ 3 then putShadow s op d p false qa else s
    let s2 := if ub.eff ≠ 3 then putShadow s1 op d p true qb else s1
    let la := usesShadow d ua miss
    let lb := usesShadow d ub false
    let fa := if la then sa else ua
    let fb := if lb then sb else ub
    let q := storeRun p ua ub miss 3
    let q1 := { q with inSat := q.inSat || !fa.sat.isEmpty || !fb.sat.isEmpty, capMiss := false,
                       a := { q.a with sat := [] }, b := { q.b with sat := [] },
                       lateRun := if la || lb then some (lateRunOf q fa fb la lb) else none }
    releaseSlots (s2.setPan b q1) b op d true
  else
    let q := storeRun p ua ub miss 3
    s.setPan b (if miss then { q with a := { q.a with sat := capMissCrusts s op d p ua } } else q)

/-- PMM (R107 to R111): the running tile of a block product. -/
def execPmm (b : Nat) (s : State) : Out :=
  panAt s b 2 fun op d p => if d.op = 1 ∧ scalesKnown p then runTile s b op d p else s

/-- PMM_GATHER (R134, R135): the running tile of a block product with gathered rows. -/
def execPmmGather (b : Nat) (s : State) : Out :=
  panAt s b 2 fun op d p => if d.op = 2 ∧ scalesKnown p then runTile s b op d p else s

/-- PNOP (R105): nothing but the end of the operation. -/
def execPnop (b : Nat) (s : State) : Out :=
  .next (match panOp s b with
    | some (op, d) => if d.op = 0 then panDone s b op 0 else s
    | none => s)

/-- BITTERN_WORK (R125, R206): the products of the tile's outliers are added, each rounded once, in ascending k; 4 a cycle. -/
def execBitternWork (b : Nat) (s : State) : Out :=
  .next (
    let p := s.pan b
    match panOp s b with
    | some (_, d) =>
      if p.stage == 5 || (p.stage == 3 && !p.capMiss && p.a.sat.isEmpty && p.b.sat.isEmpty && p.lateRun.isNone) then
        let bit' := p.bit.zipIdx.map fun e =>
          (p.outliers.filter fun x => x.row == e.2 / d.n).foldl
            (fun acc x => fadd acc (fmul x.x (p.bTile.getD (x.k * d.n + e.2 % d.n) 0))) e.1
        let q := p.outliers.length
        bump (bump (s.setPan b { p with bit := bit', outliers := [] }) (panPage b) 3 q) (pageOf 11 b) 3 (cdiv q 4)
      else s
    | none => s)

/-! ### The end of a tile (R127, R130) -/

/-- Report saturated crusts to the die's salinometer (R128). -/
def reportCrusts (s : State) (op : Op) (d : PanDesc) (base : BitVec 16) (eff : Nat) (l : List SatCrust) : State :=
  l.foldl (fun s x => askCorrection s
    { panRequest op d x.operand with fmt := eff, crust := x.crust, amax := x.amax, base := base }) s

/-- The observation of an operand of a tile (R150, R153, R159), if its tensor has anything to record. -/
def tileObs (s : State) (op : Op) (d : PanDesc) (isB : Bool) (o : OpRun) : State :=
  if (loadFmt (if isB then d.bFmt else d.aFmt)).isNone then s
  else if o.eff = 3 ∧ !o.replayed then s
  else sendObs s (op.engine / 256)
    { ctx := op.ctx, tid := if isB then d.bTid else d.aTid, step := d.step, obs := o.obs, corr := o.corrected,
      replayed := b2n o.replayed, late := b2n o.late, cold := o.scale.cold, statOnly := o.eff == 3 }

/-- Finish a tile: observations, slots, the next tile or the output (R118, R130, R150). -/
def finishTile (s : State) (b : Nat) (op : Op) (d : PanDesc) (p : Pan) : State :=
  let s1 := tileObs (tileObs s op d false p.a) op d true p.b
  let s2 := releaseSlots s1 b op d false
  let p2 := s2.pan b
  if p.tile + 1 < d.tiles then
    let s3 := s2.setPan b { p2 with stage := 1, tile := p.tile + 1, ready := false }
    match s3.run (bayEng b) 0 with
    | some op3 => if op3.stop = 0 then armTile s3 b op3 d else s3
    | none => s3
  else
    let asks := 2 ≤ d.dFmt
    let s3 := s2.setPan b { p2 with stage := 6, d := { p2.d with scale := { asked := asks } } }
    if asks then askScale s3 (panRequest op d 2) else s3

/-- The late fall-back of the tile (R130): what the first run gave is discarded, and the rerun from the shadow stands. -/
def fallLate (s : State) (b : Nat) (p : Pan) (r : LateRun) : State :=
  bump (s.setPan b { p with stage := 5, acc := r.acc, bit := p.ckBit, bTile := r.bTile, a := { r.a with held := p.a.held }, b := { r.b with held := p.b.held },
                            outliers := if r.a.late then [] else p.outliers, lateRun := none, lates := p.lates + 1 }) (panPage b) 2 1

/-- PAN_TILE_END (R127): with an event the tile waits for its corrected scales and its replay, or falls back to its shadow; without
one it is finished, once its outliers are done (R124, R125). -/
def execPanTileEnd (b : Nat) (s : State) : Out :=
  .next (match panOp s b with
    | none => s
    | some (op, d) =>
      let p := s.pan b
      if p.stage = 3 ∧ (p.capMiss ∨ !p.a.sat.isEmpty ∨ !p.b.sat.isEmpty) then
        let s1 := s.setPan b { p with stage := 4, outliers := [] }
        let effA := if p.capMiss then rerunEff d p.a.eff else p.a.eff
        reportCrusts (reportCrusts s1 op d p.a.scale.c effA p.a.sat) op d p.b.scale.c p.b.eff p.b.sat
      else if p.stage = 3 ∧ p.lateRun.isSome then p.lateRun.elim s (fallLate s b p)
      else if (p.stage = 3 ∨ p.stage = 5) ∧ p.outliers.isEmpty then finishTile s b op d p
      else s)

/-- Every reported crust has its corrected scale. -/
def crustsKnown (l : List SatCrust) : Bool := l.all fun x => x.scale.isSome

/-- PAN_REPLAY (R126 to R128): the checkpoint is restored and the tile rerun. -/
def execPanReplay (b : Nat) (s : State) : Out :=
  panAt s b 4 fun op d p =>
    if crustsKnown p.a.sat && crustsKnown p.b.sat then
      let ua := reuseOperand s op d p false
      let ub := reuseOperand s op d p true
      let q := storeRun p ua ub false 5
      let evA := p.capMiss || !p.a.sat.isEmpty
      let q1 := { q with
        replays := q.replays + 1, fallbacks := q.fallbacks + b2n (p.capMiss && d.fallback != 2), capMiss := false,
        inSat := q.inSat || !ua.sat.isEmpty || !ub.sat.isEmpty,
        a := { q.a with sat := [], replayed := evA, corrected := !p.a.sat.isEmpty, scale := { ua.scale with cold := p.a.scale.cold } },
        b := { q.b with sat := [], replayed := !p.b.sat.isEmpty, corrected := !p.b.sat.isEmpty, scale := { ub.scale with cold := p.b.scale.cold } } }
      bump (s.setPan b q1) (panPage b) 1 1
    else s

/-! ### Output (R111, R131) -/

/-- The scale of a quantised D, with its cold pass done (R154). -/
def outScale (d : PanDesc) (sc : OpScale) (fl : List ((Nat → Nat × Nat) × List QElem)) : BitVec 16 :=
  if sc.cold then coldScale (outFmt d.dFmt).1 (coldGroups (outFmt d.dFmt).2.1 (fl.map (·.2))) else sc.c

/-- An output group holds an element that is infinite or NaN. -/
def outBad (d : PanDesc) (q : QOut) : Bool :=
  q.q.nonfin || q.q.codes.any fun c => !(decodeFmt (outFmt d.dFmt).1 c).isFin

/-- Write a converted block and end the operation (R131, R150). -/
def commitQuant (s : State) (b : Nat) (op : Op) (d : PanDesc) (p : Pan) (l : List DOut) (reconv : Bool) : State :=
  let f := (outFmt d.dFmt).1
  let obs := l.foldl (fun o x => obsAdd f o x.2) {}
  let s1 := (writeQuant s op d l).setPan b { p with
    outSat := p.outSat || l.any (fun x => x.2.clamp), outNonfin := p.outNonfin || l.any (fun x => outBad d x.2),
    reconv := reconv }
  let o : SalObs :=
    { ctx := op.ctx, tid := d.dTid, step := d.step, obs := obs, corr := reconv, replayed := b2n reconv, late := 0,
      cold := p.d.scale.cold, statOnly := false }
  panDone (sendObs s1 (b / 32) o) b op 0

/-- PAN_OUTPUT (R111, R131): the block is completed, converted and written; a saturated flake of a quantised D asks for
corrected scales first. -/
def execPanOutput (b : Nat) (s : State) : Out :=
  panAt s b 6 fun op d p =>
    if p.d.scale.asked && !p.d.scale.known then s
    else if d.dFmt < 2 then
      let (s1, sat, bad) := writeDense s op d (outVals s op d p)
      panDone (s1.setPan b { p with outSat := p.outSat || sat, outNonfin := p.outNonfin || bad }) b op 0
    else
      let vals := outVals s op d p
      let fl := dFlakes s op d vals
      let c := outScale d p.d.scale fl
      let l := convertD d c [] fl
      let sat := if (outFmt d.dFmt).2.1 then satOut l else []
      let p1 := { p with outs := vals, d := { p.d with scale := { p.d.scale with c := c }, sat := sat } }
      if sat.isEmpty then commitQuant s b op d p1 l false
      else reportCrusts (s.setPan b { p1 with stage := 8 }) op d c (outFmt d.dFmt).2.2 sat

/-- OUT_RECONVERTED (R131): with the corrected scales the whole block is converted again from the held accumulators. -/
def execOutReconverted (b : Nat) (s : State) : Out :=
  panAt s b 8 fun op d p =>
    if crustsKnown p.d.sat then
      commitQuant s b op d p (convertD d p.d.scale.c p.d.sat (dFlakes s op d p.outs)) true
    else s

/-! ### Ends without output -/

/-- A scale request of the pan is unanswered. -/
def panAsks (p : Pan) : Bool :=
  (p.stage == 2 && !scalesKnown p) || (p.stage == 4 && !(crustsKnown p.a.sat && crustsKnown p.b.sat)) ||
  (p.stage == 6 && p.d.scale.asked && !p.d.scale.known) || (p.stage == 8 && !crustsKnown p.d.sat)

/-- PAN_SAL_TIMEOUT (R129): a request unanswered for 10 µs stops the operation. -/
def execPanSalTimeout (b : Nat) (s : State) : Out :=
  .next (match panOp s b with
    | some (op, _) => if panAsks (s.pan b) then panDone (pageErrOpen s (panPage b) 0x2001) b op 0x2001 else s
    | none => s)

/-- MEM_RESIDENCY (R230): a write into a guarded granule stops the pan. -/
def execMemResidency (b : Nat) (s : State) : Out :=
  .next (match panRun s b with
    | some (op, _) => if (s.pan b).guardHit ∧ (s.pan b).stage ≠ 9 then panDone s b op 0x5003 else s
    | none => s)

/-- A pan operation starts (R52, R134): accumulators at +0, the index list read, the first tile reached. -/
def panStart (s : State) (b : Nat) (op : Op) : State :=
  let d := panDesc op.body
  let zero := List.replicate (d.m * d.n) (0 : Word)
  let idx := if d.gathers then (List.range d.m).map fun i => s.rawLE (bayAddr b (d.gidx + 2 * i)) 2 else []
  if d.op = 0 then s.setPan b { stage := 1 }
  else
    let s1 := s.setPan b { stage := 1, acc := zero, bit := zero, gidx := idx,
                           oor := idx.any fun i => decide (d.rows ≤ i) && i != 0xFFFF }
    armTile s1 b op d

end Sys2Proof.Machine
end

