-- ==== Sys2Proof/Machine/VecMem.lean ====
section
/-! DEFINITION. Vector words that reach the slice or Mladaz: loads, stores, quantised stores, waits and signals (06, R191 to R198). -/

namespace Sys2Proof.Machine

open Sys2Proof

/-! ### Slots (R191, R192) -/

/-- A field of a slot. -/
def slotF (v : Vec) (slot field : Nat) : Nat := (tget 0 v.slots (slot * 32 + field)).toNat

/-- A slot, decoded. -/
structure Slot where
  base : Nat
  fsb : Nat
  csb : Nat
  lrows : Nat
  lcols : Nat
  fmt : Nat
  layout : Bool
  rnd : Nat
  rot : Nat
  rsvd : Nat
  tid : Word
  step : Word
  rotTid : Word
  grows : Nat
  gcols : Nat
  orow : Nat
  ocol : Nat
  blk : Nat
  deriving DecidableEq, Repr

/-- Read a slot. -/
def slotOf (v : Vec) (i : Nat) : Slot :=
  let shape := slotF v i 3
  let f := slotF v i 4
  { base := slotF v i 0, fsb := slotF v i 1, csb := slotF v i 2, lrows := bits shape 0 16 + 1, lcols := bits shape 16 16 + 1,
    fmt := bits f 0 4, layout := bit f 4, rnd := bits f 5 2, rot := bits f 7 3, rsvd := bits f 10 22,
    tid := BitVec.ofNat 32 (slotF v i 5), step := BitVec.ofNat 32 (slotF v i 6), rotTid := BitVec.ofNat 32 (slotF v i 7),
    grows := slotF v i 8, gcols := slotF v i 9, orow := slotF v i 10, ocol := slotF v i 11, blk := slotF v i 12 }

/-- A format code of a dense slot, of a quantised slot. -/
def denseFmt (c : Nat) : Bool := c == 0 || c == 1 || c == 2 || c == 8
def quantCode (c : Nat) : Bool := decide (3 ≤ c) && decide (c ≤ 7)

/-- Element format and form of a quantised slot format. -/
def slotFmt (c : Nat) : Fmt × Bool :=
  if c = 3 then (fF4, true) else if c = 4 then (fF8, true) else if c = 5 then (fF8, false)
  else if c = 6 then (fF8W, true) else (fF8W, false)

/-- The number format of a dense slot format; none for U16. -/
def denseNum (c : Nat) : Option Fmt := if c = 0 then some fBF16 else if c = 1 then some fFP16 else if c = 2 then some fU16E else none

/-- The element index of local element (r, c) (R193). -/
def slotIdx (t : Slot) (r c : Nat) : Nat := t.blk * t.grows * t.gcols + (t.orow + r) * t.gcols + t.ocol + c

/-- The conditions of R192 on the fields other than FMT: bases, and the piece inside the declared tensor. -/
def slotPlace (t : Slot) : Bool :=
  t.base % 64 == 0 && t.fsb % 64 == 0 && t.csb % 64 == 0 && decide (t.orow + t.lrows ≤ t.grows) && decide (t.ocol + t.lcols ≤ t.gcols)

/-- The conditions of R192 that every slot of a tile or crust meets. -/
def slotCommon (t : Slot) (store : Bool) : Bool :=
  slotPlace t && t.rnd != 3 && decide (t.rot ≤ 3) && t.rsvd == 0 &&
  (!store || t.rnd != 2 || t.fmt == 8 || decide (slotIdx t (t.lrows - 1) (t.lcols - 1) < 2 ^ 48))

/-- A dense slot passes R192. -/
def slotDense (t : Slot) (store : Bool) : Bool := denseFmt t.fmt && slotCommon t store && t.rot == 0

/-- A quantised slot passes R192. -/
def slotQuant (t : Slot) (store : Bool) : Bool :=
  quantCode t.fmt && slotCommon t store && !(t.fmt == 3 && t.rnd == 1) && t.orow % 128 == 0 && t.ocol % 128 == 0

/-- The planes of a quantised slot (R194). -/
def slotPlanes (t : Slot) : Planes :=
  { fmt := (slotFmt t.fmt).1, flaked := (slotFmt t.fmt).2, prows := pad128 t.lrows, pcols := pad128 t.lcols,
    alongRow := !t.layout, elems := t.base, flakes := t.fsb, crusts := t.csb }

/-- VEC_BADSLOT and VEC_ADDR. -/
def vBadSlot (s : State) : VRes := .fault s 0x4003 none
def vAddr (s : State) (lane : Option Nat) : VRes := .fault s 0x4002 lane

/-- A byte of a bay's slice. -/
def sliceByte (s : State) (b : Nat) : Nat → Byte := fun o => rdByte s.mem (bayAddr b o)

/-- A write of the vector port into a list of offsets of one or two bytes: the guarded granules among them (R230). -/
def guardAll (s : State) (b : Nat) (offs : List Nat) : State :=
  ((offs.map (· / 64)).eraseDups).foldl (fun s g => guardWrite s b (g * 64) 64) s

/-! ### Dense tiles (R193) -/

/-- The local element of a lane of a tile. -/
def tileElem (w l : Nat) : Nat × Nat := (32 * wTr w + l / 32, 32 * wTc w + l % 32)

/-- The slice offset of a lane of a dense tile; none outside the piece. -/
def denseAt (t : Slot) (w l : Nat) : Option Nat :=
  let (r, c) := tileElem w l
  if r < t.lrows ∧ c < t.lcols then some (t.base + (r * t.lcols + c) * 2) else none

/-- The first selected lane of a dense tile whose bytes lie beyond the slice. -/
def denseFault (v : Vec) (t : Slot) (w : Nat) : Option Nat :=
  (List.range 1024).find? fun l => laneSel v (wMask w) l && (match denseAt t w l with | some a => decide (sliceBytes < a + 2) | none => false)

/-- VLD (R193). -/
def execVld (b : Nat) (s : State) : Out :=
  vecRow b (fun o => o == 0xA0) (cyc 2) (fun s w =>
    let v := s.vec b
    let t := slotOf v (wSlotM w)
    if !formM w false then vIllegal s
    else if !slotDense t false then vBadSlot s
    else match denseFault v t w with
      | some l => vAddr s (some l)
      | none =>
        let rd := sliceByte s b
        .done (s.setVec b (writeSel v (wVd w) (wMask w) (t.fmt != 8) fun l =>
          match denseAt t w l with
          | none => 0
          | some a =>
            let n := (rd a).toNat + 256 * (rd (a + 1)).toNat
            match denseNum t.fmt with
            | some f => toF32 (decodeFmt f n)
            | none => BitVec.ofNat 32 n))) s

/-- The random bits of an element of a slot. -/
def slotBits (s : State) (b : Nat) (t : Slot) (r c : Nat) : Nat :=
  if t.rnd = 2 then srBits (ctxSeed s ((s.bayCtx b).getD 0)) t.tid t.step (slotIdx t r c) else 0

/-- VST (R193, R202). -/
def execVst (b : Nat) (s : State) : Out :=
  vecRow b (fun o => o == 0xA1) (cyc 2) (fun s w =>
    let v := s.vec b
    let t := slotOf v (wSlotM w)
    if !formM w false then vIllegal s
    else if !slotDense t true then vBadSlot s
    else match denseFault v t w with
      | some l => vAddr s (some l)
      | none =>
        let x := vreg v (wVd w)
        let puts := (List.range 1024).filterMap fun l =>
          if laneSel v (wMask w) l then
            match denseAt t w l with
            | none => none
            | some a =>
              let (r, c) := tileElem w l
              match denseNum t.fmt with
              | some f => some (a, code f (rndOf t.rnd) (slotBits s b t r c) (f32 (x.getD l 0)))
              | none => some (a, (x.getD l 0).toNat % 65536)
          else none
        let s1 := puts.foldl (fun s p => s.setRaw (bayAddr b p.1) (toLE 2 p.2)) s
        let v1 := match denseNum t.fmt with
          | some f => noteVals v (puts.map fun p => toF32 (decodeFmt f p.2))
          | none => v
        .done ((guardAll s1 b (puts.map (·.1))).setVec b v1)) s

/-! ### Quantised tiles (R194) -/

/-- An element's bytes of the three planes lie inside the slice. -/
def planesIn (p : Planes) (r c : Nat) : Bool :=
  decide ((elemAt p r c).1 < sliceBytes) && (!p.flaked || decide (flakeAt p r c < sliceBytes)) && decide (crustAt p r c + 2 ≤ sliceBytes)

/-- VLDQ (R194). -/
def execVldq (b : Nat) (s : State) : Out :=
  vecRow b (fun o => o == 0xA2) (cyc 1) (fun s w =>
    let v := s.vec b
    let t := slotOf v (wSlotM w)
    let p := slotPlanes t
    let inside := fun l => let (r, c) := tileElem w l; decide (r < p.prows) && decide (c < p.pcols)
    if !formM w false then vIllegal s
    else if !slotQuant t false then vBadSlot s
    else match (List.range 1024).find? fun l =>
        laneSel v (wMask w) l && inside l && !planesIn p (tileElem w l).1 (tileElem w l).2 with
      | some l => vAddr s (some l)
      | none =>
        .done (s.setVec b (writeSel v (wVd w) (wMask w) true fun l =>
          if inside l then toF32 (readQVal (sliceByte s b) p (tileElem w l).1 (tileElem w l).2) else 0))) s

/-! ### VSTQ (R195) -/

/-- The crust lies inside the padded piece, and its bytes inside the slice. -/
def crustIn (p : Planes) (r0 c0 : Nat) : Bool :=
  decide (r0 + 127 < p.prows) && decide (c0 + 127 < p.pcols) && planesIn p (r0 + 127) (c0 + 127)

/-- VSTQ: the crust's scale is asked for (R143, R195). -/
def execVstq (b : Nat) (s : State) : Out :=
  vecRow b (fun o => o == 0xA3) (cyc 0) (fun s w =>
    let v := s.vec b
    let t := slotOf v (wSlotM w)
    if !formM w false ∨ 16 < wVd w then vIllegal s
    else if !slotQuant t true then vBadSlot s
    else if !crustIn (slotPlanes t) (128 * wTr w) (128 * wTc w) then vAddr s none
    else
      let fmt := if t.fmt = 3 then 0 else if t.fmt ≤ 5 then 1 else 2
      .hold (askScale (s.setVec b { v with stq := some (BitVec.ofNat 64 w), stqScale := { asked := true } })
        { engine := bayEng b, unit := 1, operand := 0, ctx := (s.bayCtx b).getD 0, tid := t.tid, step := t.step, fmt := fmt })) s

/-- Local element (i, j) of the crust of a VSTQ: +0 where it is not selected or beyond the piece (R195 step 1). -/
def crustElem (v : Vec) (t : Slot) (w i j : Nat) : Word :=
  let l := i % 32 * 32 + j % 32
  if laneSel v (wMask w) l && decide (128 * wTr w + i < t.lrows) && decide (128 * wTc w + j < t.lcols)
  then (vreg v (wVd w + 4 * (i / 32) + j / 32)).getD l 0 else 0

/-- The crust in lines along the reduction dimension, after rotation (R195 steps 1 and 2). -/
def crustLines (s : State) (b : Nat) (v : Vec) (t : Slot) (w : Nat) : List (List Word) :=
  let seed := ctxSeed s ((s.bayCtx b).getD 0)
  (List.range 128).map fun i =>
    rotateRow t.rot seed t.rotTid t.step (if t.layout then t.orow + 128 * wTr w else t.ocol + 128 * wTc w)
      ((List.range 128).map fun j => if t.layout then crustElem v t w j i else crustElem v t w i j)

/-- The flakes of the crust: where each element stands, and the elements with their random bits; padding is +0 (R83). -/
def crustFlakes (s : State) (b : Nat) (v : Vec) (t : Slot) (w : Nat) : List ((Nat → Nat × Nat) × List QElem) :=
  ((crustLines s b v t w).zipIdx).flatMap fun ln => (List.range 4).map fun f =>
    let at_ := fun k => if t.layout then (128 * wTr w + f * 32 + k, 128 * wTc w + ln.2) else (128 * wTr w + ln.2, 128 * wTc w + f * 32 + k)
    (at_, (List.range 32).map fun k =>
      let (r, c) := at_ k
      let live := decide (r < t.lrows) && decide (c < t.lcols)
      { w := if live then ln.1.getD (f * 32 + k) 0 else 0, r := if live then slotBits s b t r c else 0, div := false })

/-- The flags that a stored group sets (R202): the NaN and the infinity that its elements decode to. -/
def groupFlags (f : Fmt) (q : QOut) : Nat :=
  let codes := q.q.codes.map fun c => valFlags (toF32 (decodeFmt f c))
  (if q.q.nonfin then 1 else 0) ||| codes.foldl (fun n x => n ||| x) 0

/-- Bytes of a stored crust (R83). -/
def crustStored (p : Planes) : Nat := (if isF4 p.fmt then 8192 else 16384) + (if p.flaked then 512 else 0) + 2

/-- VSTQ_SCALE_ANSWER (R150, R154, R195): the crust is quantised and written, and one observation is made. -/
def execVstqScaleAnswer (b : Nat) (s : State) : Out :=
  .next (
    let v := s.vec b
    match v.stq with
    | some wd =>
      if v.stqScale.known ∧ v.stop = 0 then
        let w := wd.toNat
        let t := slotOf v (wSlotM w)
        let p := slotPlanes t
        let (f, flaked) := slotFmt t.fmt
        let fl := crustFlakes s b v t w
        let c := if v.stqScale.cold then coldScale f (coldGroups flaked (fl.map (·.2))) else v.stqScale.c
        let q := fl.map fun x => (x.1, quantGroup f flaked (rndOf t.rnd) c x.2)
        let s1 := q.foldl (fun s x => putFlake s b p x.1 x.2.q.codes x.2.q.s8 c) s
        let s2 := guardAll s1 b (q.flatMap fun x => ((List.range 32).map fun i => (elemAt p (x.1 i).1 (x.1 i).2).1) ++
          [crustAt p (x.1 0).1 (x.1 0).2] ++ if flaked then [flakeAt p (x.1 0).1 (x.1 0).2] else [])
        let o : SalObs :=
          { ctx := (s.bayCtx b).getD 0, tid := t.tid, step := t.step, obs := q.foldl (fun o x => obsAdd f o x.2) {}, corr := false,
            replayed := 0, late := 0, cold := v.stqScale.cold, statOnly := false }
        let s3 := sendObs s2 (b / 32) o
        let s4 := s3.setVec b (setFlags { s3.vec b with stq := none, stqScale := {} } (q.foldl (fun n x => n ||| groupFlags f x.2) 0))
        vecDone s4 b (16 + cdiv (crustStored p) 1024 + 32 * rotLog t.rot + if v.stqScale.cold then 16 else 0)
      else s
    | none => s)

/-- VEC_SAL_TIMEOUT (R195): no answer within 10 µs stops the block. -/
def execVecSalTimeout (b : Nat) (s : State) : Out :=
  .next (
    let v := s.vec b
    if v.stq.isSome ∧ !v.stqScale.known ∧ v.stop = 0 then vecFault (dropRequests s (bayEng b) 1) b 0x4004 none else s)

/-! ### Masks in the slice (R196) -/

/-- The offset of a mask of a slot. -/
def maskAt (v : Vec) (w : Nat) : Nat := slotF v (wSlotM w) 0 + 128 * wImm w

/-- VMLD (R196): FMT is not checked, the slot's other conditions of R192 are. -/
def execVmld (b : Nat) (s : State) : Out :=
  vecRow b (fun o => o == 0xA4) (cyc 1) (fun s w =>
    let v := s.vec b
    let m := bits w 8 3
    if !formM w true ∨ m = 0 then vIllegal s
    else if !slotPlace (slotOf v (wSlotM w)) then vBadSlot s
    else if sliceBytes < maskAt v w + 128 then vAddr s none
    else .done (s.setVec b (setKreg v m (BitVec.ofNat 1024 (s.rawLE (bayAddr b (maskAt v w)) 128))))) s

/-- VMST (R196): FMT is not checked, the slot's other conditions of R192 are. -/
def execVmst (b : Nat) (s : State) : Out :=
  vecRow b (fun o => o == 0xA5) (cyc 1) (fun s w =>
    let v := s.vec b
    if !formM w true then vIllegal s
    else if !slotPlace (slotOf v (wSlotM w)) then vBadSlot s
    else if sliceBytes < maskAt v w + 128 then vAddr s none
    else .done (guardWrite (s.setRaw (bayAddr b (maskAt v w)) (toLE 128 (kreg v (bits w 8 3)).toNat)) b (maskAt v w) 128)) s

/-! ### VWAIT and VSIG (R197, R198) -/

/-- VWAIT (R197): satisfied at once by a set flag, or the unit waits. -/
def execVwait (b : Nat) (s : State) : Out :=
  vecRow b (fun o => o == 0x03) (cyc 1) (fun s w =>
    let vid := bits (wImm w) 0 14
    let mode := bits (wImm w) 14 2
    let n := (s.bayCtx b).getD 0
    if !formV w false false false false 16 ∨ 2 ≤ mode ∨ vidClass vid = 1 ∨ vidClass vid = 2 then vIllegal s
    else match translate s n vid with
      | none => .fault (nameFault s n vid) cSyncUnmapped none
      | some key =>
        let s := s.cross (b / 32) (objDie 0 key)
        let f := s.flag key
        if homeOff s vid key then .fault s cEngineFenced none
        else if f.set then
          .done (if mode = 1 then flagClear s key n { eng := bayEng b, op := 0xF3 } else s)
        else
          let e : WaitEnt := { who := .vec b, ctx := n, vid := vid, clears := mode == 1, arg := 0,
                               noTmo := (s.ctx n).tmo == 0, seq := s.waitSeq }
          let s1 := { s with waitSeq := s.waitSeq + 1 }.setFlag key { f with waiters := f.waiters ++ [e] }
          .hold (s1.setVec b { s1.vec b with held := true })) s

/-- VSIG (R198): the home's verdict is waited for; a refusal is a fault at the word (R273). -/
def execVsig (b : Nat) (s : State) : Out :=
  vecRow b (fun o => o == 0x04) (cyc 1) (fun s w =>
    let vid := bits (wImm w) 0 14
    let mode := bits (wImm w) 14 2
    let n := (s.bayCtx b).getD 0
    let e := bayEng b
    if !formV w false false false false 16 ∨ mode = 3 ∨ (vidClass vid ≠ 3 ∧ vidClass vid ≠ modeClass mode) then vIllegal s
    else if (translate s n vid).isNone then .fault (nameFault s n vid) cSyncUnmapped none
    else
      let (s1, st, k) := applySig s n vid mode { eng := e, op := 0xF0 + mode, part := participant e }
      let s2 := settle (s1, k)
      if st = 0 then .done s2 else .fault s2 st none) s

end Sys2Proof.Machine
end

