-- ==== Sys2Proof/Machine/Harts.lean ====
section
/-! DEFINITION. The command instructions of a hart but ZSYNC (02, R41 to R68), and the epoch increment (R66, R280). A command
of a hart that cannot issue (not bound, its context not in RUN or ABORTED, blocked, stopped) is not due and changes nothing
(log entry 2). -/

namespace Sys2Proof.Machine

open Sys2Proof

/-- Carry out a command of a hart that can issue one. -/
def hartDo (s : State) (h : Nat) (f : State → State) : Out := .next (if hartRuns s h then f s else s)

/-- ZSTG (R41, R42). -/
def execZstg (h rd : Nat) (rs1 : Dword) (imm : BitVec 12) (s : State) : Out :=
  hartDo s h fun s =>
    if 8 ≤ imm.toNat ∨ rd ≠ 0 then trapHart s h .illegal
    else s.setHart h { s.hart h with staging := tset 0 (s.hart h).staging imm.toNat rs1 }

/-- ZPUSH (R43, R44): push the staging buffer. -/
def execZpush (h rd : Nat) (rs1 : Dword) (s : State) : Out :=
  hartDo s h fun s => pushBlocking s h rd rs1 (stagingBytes (s.hart h))

/-- ZTPUSH (R43): as ZPUSH, but refuses where ZPUSH would block. -/
def execZtpush (h rd : Nat) (rs1 : Dword) (s : State) : Out :=
  hartDo s h fun s =>
    match hartCtx s h with
    | none => s
    | some n =>
      let st := pushStatus s n h rs1.toNat
      if pushRoom s n h rs1.toNat st then acceptPush s n h rd rs1.toNat (stagingBytes (s.hart h)) st
      else s.setHart h (wrX (s.hart h) rd (BitVec.ofNat 64 (2 ^ 63)))

/-- ZPUSHM (R41, R42): push the descriptor at a core-memory address. -/
def execZpushm (h rd : Nat) (rs1 rs2 : Dword) (s : State) : Out :=
  hartDo s h fun s =>
    if rs2.toNat % 64 ≠ 0 ∨ 0xBFC0 < rs2.toNat then trapHart s h .illegal
    else pushBlocking s h rd rs1 (s.raw (coreMemAddr (hartCore h) rs2.toNat) 64)

/-- PUSH_UNBLOCK (R44): a blocked push or vector word is tried again. -/
def execPushUnblock (h : Nat) (s : State) : Out :=
  .next (match (s.hart h).blocked with
    | some (.push rd rs1 desc) =>
      if (s.hart h).stopped then s else pushBlocking s h rd rs1 desc
    | some (.vec rd rs1 rs2 close) =>
      if (s.hart h).stopped then s else vecPush s h rd rs1 rs2 close
    | _ => s)

/-- ZVEC (R42, R47). -/
def execZvec (h rd : Nat) (rs1 rs2 : Dword) (s : State) : Out :=
  hartDo s h fun s => if rd ≠ 0 then trapHart s h .illegal else vecPush s h rd rs1 rs2 false

/-- ZVEND (R47). -/
def execZvend (h rd : Nat) (rs1 rs2 : Dword) (s : State) : Out :=
  hartDo s h fun s => vecPush s h rd rs1 rs2 true

/-- ZSUM (R68): an item of the summary of the latest completed block of the context on the bay, 0 where there is none. -/
def execZsum (h rd : Nat) (rs1 rs2 : Dword) (s : State) : Out :=
  hartDo s h fun s =>
    let e := rs1.toNat % 4096
    let v :=
      if engKind e = .bay ∧ (s.bayCtx (engBay e)).isSome ∧ s.bayCtx (engBay e) = hartCtx s h then
        match (s.vec (engBay e)).last with
        | some m => summaryItem m (rs2.toNat % 8)
        | none => 0
      else 0
    s.setHart h (wrX (s.hart h) rd (BitVec.ofNat 64 v))

/-- ZCWAIT (R41): returns the record of a tag, or blocks until it is in the ring. -/
def execZcwait (h rd : Nat) (rs1 : Dword) (s : State) : Out :=
  hartDo s h fun s =>
    let tag := rs1.toNat % 8192
    match ringIndex (s.hart h) tag with
    | some i => s.setHart h (wrX (s.hart h) rd (recordWord s h i))
    | none => s.setHart h { s.hart h with blocked := some (.cwait rd tag) }

/-- ZCNEXT (R41): returns the record at the head, or blocks until it is valid. -/
def execZcnext (h rd : Nat) (s : State) : Out :=
  hartDo s h fun s =>
    if (s.hart h).ring.isEmpty then s.setHart h { s.hart h with blocked := some (.cnext rd) }
    else s.setHart h (wrX (s.hart h) rd (recordWord s h (s.hart h).head.toNat))

/-- ZCACK (R41, R42, R58). -/
def execZcack (h : Nat) (rs1 : Dword) (s : State) : Out :=
  hartDo s h fun s =>
    let n := rs1.toNat % 512
    if n = 0 ∨ 256 < n ∨ (s.hart h).ring.length < n then trapHart s h .illegal else consume n s h

/-- ZEACK (R66). -/
def execZeack (h rd : Nat) (s : State) : Out :=
  hartDo s h fun s =>
    match hartCtx s h with
    | none => s
    | some n =>
      let c := s.ctx n
      if c.st = .aborted then
        (s.setCtx n { c with ackPending := true }).setHart h { s.hart h with blocked := some (.eack rd) }
      else s.setHart h (wrX (s.hart h) rd (BitVec.ofNat 64 c.epoch.toNat))

/-! ### The command-extension CSRs (R40, R65) -/

/-- What a hart reads from a CSR: zctx, zring, zstamp; none for another address. -/
def csrRead (s : State) (h addr : Nat) : Option Dword :=
  let x := s.hart h
  let n := (hartCtx s h).getD 0
  let c := s.ctx n
  match addr with
  | 0xCC0 => some (BitVec.ofNat 64 (n + b2n (c.st == .aborted) * 2 ^ 6 + c.epoch.toNat * 2 ^ 16 + hartTags s h * 2 ^ 32))
  | 0xCC1 => some (BitVec.ofNat 64 (x.head.toNat + b2n x.phase * 2 ^ 8))
  | 0xCC2 => some ((stamp s).zeroExtend 64)
  | _ => none

/-! ### The epoch increment (R66, R280) -/

/-- No operation of a context is queued or running: descriptors, running operations, closed or open vector blocks. -/
def ctxIdle (s : State) (n : Nat) : Bool :=
  s.queues.all (fun p => p.2.all fun o => o.ctx != n) && s.running.all (fun p => p.2.ctx != n) &&
  (ctxBays s n).all fun b => (s.vec b).q.isEmpty && (s.vec b).owner.isNone

/-- Reset the objects of a context's table (R280): configurations, GEN and CAPACITY stay. -/
def epochReset (s : State) (n : Nat) : State :=
  (s.ctx n).map.foldl (fun s p =>
    let cls := p.1 / 4096
    if bit p.2.toNat 0 then
      let k := entryObj cls p.2
      if cls = 0 then s.setFlag k { s.flag k with set := false, coalesce := 0, mark := false }
      else if cls = 1 then s.setBarrier k { s.barrier k with arr := [], lap := [], mark := false, lapMark := false }
      else s.setCredit k { s.credit k with p := 0, c := 0, faulted := false }
    else s) s

/-- The harts blocked in ZEACK for a context get the new epoch. -/
def releaseEack (s : State) (n : Nat) (epoch : BitVec 16) : State :=
  { s with harts := s.harts.foldl (fun t p =>
      match p.2.blocked with
      | some (.eack rd) =>
        if hartCtx s p.1 = some n
        then tset {} t p.1 { wrX p.2 rd (BitVec.ofNat 64 epoch.toNat) with blocked := none } else tset {} t p.1 p.2
      | _ => tset {} t p.1 p.2) [] }

/-- Pending observations of the context's entries are discarded at every home (R149). -/
def dropPending (s : State) (n : Nat) : State :=
  (List.range 8).foldl (fun s d =>
    let x := s.sal d
    s.setSal d { x with
      entries := x.entries.map (fun p => if p.1 / 2 ^ 32 = n
        then (p.1, { p.2 with pend := false, pendAmax := 0, pendN := 0, pendZ := 0, pendCorr := false }) else p),
      obs := x.obs.filter fun o => o.ctx != n }) s

/-- The fabrics of the context reopen ingress on the active slot, once a harvest still running has completed (R384). -/
def epochFabrics (s : State) (n : Nat) : State :=
  (List.range 4).foldl (fun s f =>
    let x := s.fabric f
    if x.ctx = some n then
      if x.harvesting then s.setFabric f { x with reopenDue := true }
      else s.setFabric f (reopenFabric x)
    else s) s

/-- EPOCH_INCREMENT (R66): due once an acknowledged context in ABORTED has no operation queued or running, on a device whose mesh has not
failed (R27). -/
def execEpochIncrement (n : Nat) (s : State) : Out :=
  .next (
    let c := s.ctx n
    if c.st = .aborted ∧ c.ackPending ∧ ctxIdle s n ∧ !s.dead then
      let e := c.epoch + 1
      let s1 := epochReset (s.setCtx n { c with st := .run, epoch := e, ackPending := false }) n
      releaseEack (epochFabrics (dropPending s1 n) n) n e
    else s)

end Sys2Proof.Machine
end

