-- ==== Sys2Proof/Machine/Zsync.lean ====
section
/-! DEFINITION. ZSYNC, timeouts, the deadlock detector, lending, the translation tables and the debug view (09). -/

namespace Sys2Proof.Machine

open Sys2Proof

/-! ### The checks of ZSYNC (R254, R255) -/

/-- The operation codes of R254. -/
def syncCodes : List Nat := [0x00, 0x01, 0x02, 0x03, 0x04, 0x05, 0x10, 0x11, 0x12, 0x13, 0x14, 0x20, 0x21, 0x22, 0x23, 0x24, 0x25]

/-- A ZSYNC operation: the row's code and class, the bits of rs2 it uses, and whether it takes a count n. -/
structure SyncForm where
  code : Nat
  cls : Nat
  /-- Low operand bits of rs2, and whether [63:32] hold TMO. -/
  lowBits : Nat
  tmo : Bool
  count : Bool

/-- An unused bit of rs2 is not 0. -/
def rs2Bad (f : SyncForm) (rs2 : Nat) : Bool :=
  decide (2 ^ f.lowBits ≤ rs2 % 2 ^ 32) || (!f.tmo && decide (2 ^ 32 ≤ rs2))

/-- n is 0 or above 2^30. -/
def countBad (f : SyncForm) (rs2 : Nat) : Bool :=
  f.count && (rs2 % 2 ^ 31 == 0 || decide (2 ^ 30 < rs2 % 2 ^ 31))

/-- The status of the checks, in the order of R255; 0 when they pass. -/
def syncCheck (s : State) (n : Nat) (f : SyncForm) (rs1 rs2 : Nat) : Nat :=
  if bits rs1 14 2 ≠ 0 ∨ rs1 / 2 ^ 24 ≠ 0 ∨ !syncCodes.contains (bits rs1 16 8) then cSyncBadOp
  else if (translate s n (rs1 % 16384)).isNone then cSyncUnmapped
  else if vidClass rs1 ≠ f.cls ∨ countBad f rs2 ∨ rs2Bad f rs2 then cSyncBadOp
  else 0

/-- What the home answers: a result and a status at once, or that the hart waits. -/
inductive HomeAnswer where
  | now (result status : Nat)
  | wait (w : WaitEnt)

/-- A ZSYNC of a hart: the checks, the home's operation on the object, the destination register, and what follows. rs1 must name
the row's own operation; the code of another row is that row's command (log entry 4). -/
def zsync (s : State) (h rd : Nat) (rs1 rs2 : Dword) (f : SyncForm)
    (home : State → Nat → Nat → Nat → State × HomeAnswer × List Work) : State :=
  match hartCtx s h with
  | none => s
  | some n =>
    let code := bits rs1.toNat 16 8
    if code ≠ f.code ∧ syncCodes.contains code then s
    else
      let st := syncCheck s n f rs1.toNat rs2.toNat
      let vid := rs1.toNat % 16384
      let s0 := if st = cSyncUnmapped then nameFault s n vid else s
      if st ≠ 0 then s0.setHart h (wrX (s.hart h) rd (syncWord 0 st))
      else
        match translate s n vid with
        | none => s
        | some key =>
          if homeOff s vid key then s.setHart h (wrX (s.hart h) rd (syncWord 0 cEngineFenced)) else
          let (s1, ans, k) := home (s.reach (hartEng h / 256) (objDie (vidClass vid) key)) n key vid
          match ans with
          | .now r st => settle (s1.setHart h (wrX (s1.hart h) rd (syncWord r st)), k)
          | .wait _ => settle (s1.setHart h { s1.hart h with blocked := some (.sync rd) }, k)

/-- The status with which a wait of a context that is not in RUN ends at once (R36, R65); 0 in RUN. -/
def waitStatus (s : State) (n : Nat) : Nat :=
  match (s.ctx n).st with
  | .aborted => cAbortedEpoch
  | .releasing => cCtxReleased
  | _ => 0

/-- A waiter of a ZSYNC wait (R256): TMO 0xFFFF_FFFF has no timeout, TMO 0 takes SYNC_CTX_TMO, of which 0 means none. -/
def newWaiter (s : State) (n vid : Nat) (who : Waiter) (clears : Bool) (arg : Nat) (tmo : Nat) : WaitEnt :=
  { who := who, ctx := n, vid := vid, clears := clears, arg := arg,
    noTmo := tmo == 0xFFFFFFFF || (tmo == 0 && (s.ctx n).tmo == 0), seq := s.waitSeq }

/-- The source of a hart's operation (R263, R284). -/
def hartSrc (h code : Nat) : Src := { eng := hartEng h, op := code, part := participant (hartEng h) }

/-! ### Flags -/

/-- FSET (R254, R258). -/
def execFset (h rd : Nat) (rs1 rs2 : Dword) (s : State) : Out :=
  hartDo s h fun s => zsync s h rd rs1 rs2 { code := 0x00, cls := 0, lowBits := 0, tmo := false, count := false }
    fun s n key _ =>
      let was := (s.flag key).set
      let (s1, k) := flagSet s key n (hartSrc h 0x00)
      (s1, .now (b2n was) 0, k)

/-- FCLR (R254, R258). -/
def execFclr (h rd : Nat) (rs1 rs2 : Dword) (s : State) : Out :=
  hartDo s h fun s => zsync s h rd rs1 rs2 { code := 0x01, cls := 0, lowBits := 0, tmo := false, count := false }
    fun s n key _ => (flagClear s key n (hartSrc h 0x01), .now (b2n (s.flag key).set) 0, [])

/-- FTEST (R254). -/
def execFtest (h rd : Nat) (rs1 rs2 : Dword) (s : State) : Out :=
  hartDo s h fun s => zsync s h rd rs1 rs2 { code := 0x02, cls := 0, lowBits := 0, tmo := false, count := false }
    fun s _ key _ => (s, .now (b2n (s.flag key).set) 0, [])

/-- FTESTC (R254): the clearing end is recorded only where the flag was set (R284). -/
def execFtestc (h rd : Nat) (rs1 rs2 : Dword) (s : State) : Out :=
  hartDo s h fun s => zsync s h rd rs1 rs2 { code := 0x03, cls := 0, lowBits := 0, tmo := false, count := false }
    fun s n key _ =>
      if (s.flag key).set then (flagClear s key n (hartSrc h 0x03), .now 1 0, []) else (s, .now 0 0, [])

/-- A wait on a flag: a set flag satisfies it at once, and a clearing wait clears it in the same operation (R258, R259). A marked
flag gives EPOCH_MISMATCH (R307). -/
def flagWait (s : State) (n key vid h : Nat) (clears : Bool) (tmo : Nat) : State × HomeAnswer × List Work :=
  let f := s.flag key
  if waitStatus s n ≠ 0 then (s, .now 0 (waitStatus s n), [])
  else if f.set then
    let st := if f.mark then cEpochMismatch else 0
    (if clears then flagClear s key n (hartSrc h 0x05) else s, .now 1 st, [])
  else
    let w := newWaiter s n vid (.hart h) clears 0 tmo
    ({ s.setFlag key { f with waiters := f.waiters ++ [w] } with waitSeq := s.waitSeq + 1 }, .wait w, [])

/-- FWAIT (R254, R259). -/
def execFwait (h rd : Nat) (rs1 rs2 : Dword) (s : State) : Out :=
  hartDo s h fun s => zsync s h rd rs1 rs2 { code := 0x04, cls := 0, lowBits := 0, tmo := true, count := false }
    fun s n key vid => flagWait s n key vid h false (rs2.toNat / 2 ^ 32)

/-- FWAITC (R254, R259). -/
def execFwaitc (h rd : Nat) (rs1 rs2 : Dword) (s : State) : Out :=
  hartDo s h fun s => zsync s h rd rs1 rs2 { code := 0x05, cls := 0, lowBits := 0, tmo := true, count := false }
    fun s n key vid => flagWait s n key vid h true (rs2.toNat / 2 ^ 32)

/-! ### Barriers -/

/-- The mask bits of word d of a configuration block, as participant indices (R4). -/
def maskWord (d w : Nat) : List Nat := ((List.range 64).filter fun i => bit w i).map fun i => d * 64 + i

/-- Every element of a list of numbers is different. -/
def allDiffer : List Nat → Bool
  | [] => true
  | x :: xs => !xs.contains x && allDiffer xs

/-- A configuration block of R261 (256 bytes) for a context, checked under R262. -/
def parseBarConf (s : State) (n : Nat) (b : List Byte) : Option (Nat × BarConf) :=
  let w0 := fieldLE b 0 4
  let w1 := fieldLE b 4 4
  let w2 := fieldLE b 8 4
  let count := bits w0 20 6
  let mask := ((List.range 9).map fun d => maskWord d (fieldLE b (0x10 + 8 * d) 8)).flatten
  let words := (List.range 32).map fun i => fieldLE b (0x60 + 4 * i) 4
  let nodes := words.take count
  let relFlag := w1 % 16384
  let relNode := w2 % 2 ^ 20
  let reserved : Bool := decide (w0 / 2 ^ 26 ≠ 0 ∨ w1 / 2 ^ 28 ≠ 0 ∨ w2 / 2 ^ 20 ≠ 0 ∨ fieldLE b 0x0C 4 ≠ 0 ∨ fieldLE b 0x58 8 ≠ 0 ∨
    fieldLE b 0xE0 32 ≠ 0 ∨ words.any (fun w => decide (2 ^ 20 ≤ w)) ∨ (words.drop count).any (· != 0))
  let badMask := mask.any fun p => decide (512 ≤ p) && !hubParticipant p
  let badFlag := bit w0 16 && (vidClass relFlag != 0 || (translate s n relFlag).isNone)
  let badRemote := bit w0 17 && (match jobOf s n with
    | none => true
    | some slot => !((s.jobSlot slot).nbrNode.any fun p => p.2.toNat == relNode))
  if reserved ∨ 32 < count ∨ badMask ∨ (mask.isEmpty ∧ count = 0) ∨ nodes.contains 0xFFFFF ∨ !allDiffer nodes ∨ badFlag ∨
     bits w0 18 2 = 3 ∨ badRemote then none
  else some (w0 % 65536,
    { mask := mask, remote := nodes, relFlagEn := bit w0 16, relFlag := relFlag, relRemoteEn := bit w0 17,
      relMode := bits w0 18 2, relRid := bits w1 14 14, relNode := relNode })

/-- BCONF (R261, R262). -/
def execBconf (h rd : Nat) (rs1 rs2 : Dword) (s : State) : Out :=
  hartDo s h fun s => zsync s h rd rs1 rs2 { code := 0x10, cls := 1, lowBits := 16, tmo := false, count := false }
    fun s n key _ =>
      let addr := rs2.toNat % 65536
      let conf := if addr % 64 ≠ 0 ∨ 0xBF00 < addr then none
        else parseBarConf s n (coreRead s (hartCore h) addr 256)
      match conf with
      | none => (s, .now 0 cConfBad, [])
      | some (g, c) =>
        let b := s.barrier key
        let s1 := touch (s.setBarrier key { conf := c, gen := BitVec.ofNat 16 g, last := lastSig s (hartSrc h 0x10) }) 1 key n
        let (s2, k) := relAll s1 0 cReconf false b.waiters
        (s2, .now g 0, k)

/-- BARR (R263, R264). -/
def execBarr (h rd : Nat) (rs1 rs2 : Dword) (s : State) : Out :=
  hartDo s h fun s => zsync s h rd rs1 rs2 { code := 0x11, cls := 1, lowBits := 0, tmo := false, count := false }
    fun s n key vid =>
      let (s1, st, g, k) := barArrive s key n vid (hartSrc h 0x11)
      (s1, .now g st, k)

/-- BWAIT (R267). -/
def execBwait (h rd : Nat) (rs1 rs2 : Dword) (s : State) : Out :=
  hartDo s h fun s => zsync s h rd rs1 rs2 { code := 0x12, cls := 1, lowBits := 16, tmo := true, count := false }
    fun s n key vid =>
      let b := s.barrier key
      let g := rs2.toNat % 65536
      if waitStatus s n ≠ 0 then (s, .now 0 (waitStatus s n), [])
      else if 1 ≤ genDiff b.gen g then (s, .now b.gen.toNat 0, [])
      else
        let w := newWaiter s n vid (.hart h) false g (rs2.toNat / 2 ^ 32)
        ({ s.setBarrier key { b with waiters := b.waiters ++ [w] } with waitSeq := s.waitSeq + 1 }, .wait w, [])

/-- BARRW (R267): the arrival, then the wait for its generation; the arrival that completes the generation does not wait. A marked
release gives EPOCH_MISMATCH (R307). -/
def execBarrw (h rd : Nat) (rs1 rs2 : Dword) (s : State) : Out :=
  hartDo s h fun s => zsync s h rd rs1 rs2 { code := 0x13, cls := 1, lowBits := 0, tmo := true, count := false }
    fun s n key vid =>
      let was := s.barrier key
      let (s1, st, g, k) := barArrive s key n vid (hartSrc h 0x13)
      let b := s1.barrier key
      if st ≠ 0 then (s1, .now 0 st, k)
      else if waitStatus s n ≠ 0 then (s1, .now 0 (waitStatus s n), k)
      else if 1 ≤ genDiff b.gen g then (s1, .now g (if was.mark then cEpochMismatch else 0), k)
      else
        let w := newWaiter s n vid (.hart h) true g (rs2.toNat / 2 ^ 32)
        ({ s1.setBarrier key { b with waiters := b.waiters ++ [w] } with waitSeq := s1.waitSeq + 1 }, .wait w, k)

/-- BSTAT (R254). -/
def execBstat (h rd : Nat) (rs1 rs2 : Dword) (s : State) : Out :=
  hartDo s h fun s => zsync s h rd rs1 rs2 { code := 0x14, cls := 1, lowBits := 0, tmo := false, count := false }
    fun s _ key _ =>
      let b := s.barrier key
      (s, .now (b.gen.toNat + b.arr.length * 65536) 0, [])

/-! ### Credit channels -/

/-- CCONF (R268): refused while the channel is FAULTED (R269). -/
def execCconf (h rd : Nat) (rs1 rs2 : Dword) (s : State) : Out :=
  hartDo s h fun s => zsync s h rd rs1 rs2 { code := 0x20, cls := 2, lowBits := 30, tmo := false, count := false }
    fun s n key _ =>
      let c := s.credit key
      let cap := rs2.toNat % 2 ^ 30
      if c.faulted then (s, .now 0 cCreditFaulted, [])
      else if cap = 0 then (s, .now 0 cConfBad, [])
      else
        let s1 := touch (s.setCredit key { cap := cap, last := lastSig s (hartSrc h 0x20) }) 2 key n
        let (s2, k) := relAll s1 0 cReconf false c.waiters
        (s2, .now 0 0, k)

/-- CPROD (R269, R270). -/
def execCprod (h rd : Nat) (rs1 rs2 : Dword) (s : State) : Out :=
  hartDo s h fun s => zsync s h rd rs1 rs2 { code := 0x21, cls := 2, lowBits := 31, tmo := false, count := true }
    fun s n key vid =>
      let (s1, st, d, k) := creditOp s key n vid true (rs2.toNat % 2 ^ 31) (hartSrc h 0x21)
      (s1, .now d st, k)

/-- CCONS (R269). -/
def execCcons (h rd : Nat) (rs1 rs2 : Dword) (s : State) : Out :=
  hartDo s h fun s => zsync s h rd rs1 rs2 { code := 0x22, cls := 2, lowBits := 31, tmo := false, count := true }
    fun s n key vid =>
      let (s1, st, d, k) := creditOp s key n vid false (rs2.toNat % 2 ^ 31) (hartSrc h 0x22)
      (s1, .now d st, k)

/-- A wait on a channel (R270): a later CWAITC never overtakes an earlier one. -/
def creditWait (s : State) (n key vid h : Nat) (takes : Bool) (need tmo : Nat) : State × HomeAnswer × List Work :=
  let c := s.credit key
  if waitStatus s n ≠ 0 then (s, .now 0 (waitStatus s n), [])
  else if c.faulted then (s, .now 0 cCreditFaulted, [])
  else if (need : Int) ≤ creditDiff c ∧ !(takes && c.waiters.any (·.clears)) then
    if takes then
      let (s1, st, d, k) := creditOp s key n vid false need (hartSrc h 0x24)
      (s1, .now d st, k)
    else (s, .now (creditDiff c).toNat 0, [])
  else
    let w := newWaiter s n vid (.hart h) takes need tmo
    ({ s.setCredit key { c with waiters := c.waiters ++ [w] } with waitSeq := s.waitSeq + 1 }, .wait w, [])

/-- CWAIT (R270). -/
def execCwait (h rd : Nat) (rs1 rs2 : Dword) (s : State) : Out :=
  hartDo s h fun s => zsync s h rd rs1 rs2 { code := 0x23, cls := 2, lowBits := 31, tmo := true, count := true }
    fun s n key vid => creditWait s n key vid h false (rs2.toNat % 2 ^ 31) (rs2.toNat / 2 ^ 32)

/-- CWAITC (R270). -/
def execCwaitc (h rd : Nat) (rs1 rs2 : Dword) (s : State) : Out :=
  hartDo s h fun s => zsync s h rd rs1 rs2 { code := 0x24, cls := 2, lowBits := 31, tmo := true, count := true }
    fun s n key vid => creditWait s n key vid h true (rs2.toNat % 2 ^ 31) (rs2.toNat / 2 ^ 32)

/-- CREAD (R254): every operation on a faulted channel returns SYNC_CREDIT_FAULTED (R269). -/
def execCread (h rd : Nat) (rs1 rs2 : Dword) (s : State) : Out :=
  hartDo s h fun s => zsync s h rd rs1 rs2 { code := 0x25, cls := 2, lowBits := 0, tmo := false, count := false }
    fun s _ key _ =>
      let c := s.credit key
      if c.faulted then (s, .now 0 cCreditFaulted, []) else (s, .now (creditDiff c).toNat 0, [])

/-! ### Timeouts (R277) -/

/-- Every wait under way. -/
def allWaits (s : State) : List WaitEnt :=
  s.flags.flatMap (·.2.waiters) ++ s.barriers.flatMap (·.2.waiters) ++ s.credits.flatMap (·.2.waiters)

/-- After a waiter has left, the CWAITC waiters behind it that D covers are released (R270). -/
def wakeChannels : List (Nat × Nat) → State → State × List Work
  | [], s => (s, [])
  | (key, n) :: ks, s =>
    let (s1, w1) := creditWake s key n
    let (s2, w2) := wakeChannels ks s1
    (s2, w1 ++ w2)

/-- One waiter leaves its wait with a status. -/
def endWait (s : State) (w : WaitEnt) (status : Nat) : State :=
  let chans := s.credits.filterMap fun p => if p.2.waiters.any (fun x => x.who == w.who) then some (p.1, w.ctx) else none
  let (s1, k1) := relWaiter (dropWaiter s w.who) w 0 status false
  let (s2, k2) := wakeChannels chans s1
  settle (s2, k1 ++ k2)

/-- WAIT_TIMEOUT (R256, R277): a wait that has a timeout ends with SYNC_TIMEOUT and is counted. -/
def execWaitTimeout (w : Waiter) (s : State) : Out :=
  .next (match (allWaits s).find? fun x => x.who == w && !x.noTmo with
    | none => s
    | some x => endWait (bump s syncPage 0 1) x cSyncTimeout)

/-! ### The deadlock detector (R278, R279) -/

/-- A hart is quiet: held in a Mladaz wait, blocked in ZCWAIT or ZCNEXT with none of its operations in flight, or idle. -/
def hartQuiet (s : State) (h : Nat) : Bool :=
  match (s.hart h).blocked with
  | some (.sync _) => true
  | some (.cwait _ _) | some (.cnext _) => s.tags.all fun p => p.2.hart != h || p.2.recorded
  | some _ => false
  | none => (s.hart h).stopped || !hartRuns s h

/-- A queue of an engine is quiet: empty, or its head is held in a wait. -/
def queueQuiet (s : State) (e q : Nat) : Bool :=
  (s.queue e q).isEmpty || (allWaits s).any fun w => w.who == .head e q

/-- A running operation is quiet: a pan that waits for credit. -/
def runQuiet (s : State) (e u : Nat) : Bool :=
  match s.run e u with
  | none => true
  | some _ => engKind e == .bay && u == 0 && ((s.pan (engBay e)).a.waits || (s.pan (engBay e)).b.waits)

/-- A vector unit is quiet: nothing queued and no open block, or held in VWAIT. -/
def vecQuiet (s : State) (b : Nat) : Bool := (s.vec b).held || ((s.vec b).q.isEmpty && (s.vec b).owner.isNone)

/-- Engines of a die that can hold queues. -/
def dieEngines (d : Nat) : List Nat :=
  if d < 8 then (List.range 32).map (fun i => d * 256 + i) ++ (List.range 16).map (fun i => d * 256 + 0x30 + i)
  else (List.range 4).map (fun i => 0x800 + i) ++ (List.range 16).map (fun i => 0x810 + i)

/-- A MAC instance has nothing queued: no frame in its buffers, no transmit entry posted (R278, R327). -/
def macQuiet (x : Mac) : Bool :=
  x.staged.isEmpty && x.back.isEmpty && x.cur.isNone && x.cut.isNone && x.held.isEmpty &&
  x.rings.all fun r => decide (8 ≤ r.1) || !r.2.en || r.2.sw == r.2.hw

/-- A tile has nothing in flight. -/
def tileQuiet (t : Tile) : Bool :=
  t.a.isEmpty && t.b.isEmpty && t.c.isEmpty && t.out0.isEmpty && t.out1.isEmpty && t.spill0.isEmpty && t.spill1.isEmpty &&
  t.deliver.isEmpty && t.reads.isEmpty

/-- A fabric has nothing queued: no token, record or reply in flight, no harvest or switch under way (R278). -/
def fabricQuiet (x : Fabric) : Bool :=
  !x.harvesting && x.force.isNone && x.builder.isEmpty && x.memq.isEmpty && x.skids.isEmpty && x.recs.isEmpty &&
  x.tiles.all fun t => tileQuiet t.2

/-- A Griros link has no message of a job queued or unacknowledged: VC 0 carries none. -/
def linkQuiet (l : Link) : Bool :=
  (l.txq.all fun t => t.msg.vc == 0) && (l.retryBuf.all fun f => f.hdr.vc == 0) && l.rxMsgs.isEmpty && l.rxAsm.isEmpty

/-- The hub's MACs, fabrics and links of a context are quiet. -/
def hubQuiet (s : State) (n : Nat) : Bool :=
  ((List.range 16).all fun m => !(bit (regGet s (pageOf 17 m) 0x44).toNat 31 && regField s (pageOf 17 m) 0x44 0 6 == n) ||
    macQuiet (s.mac m)) &&
  ((List.range 4).all fun f => (s.fabric f).ctx != some n || fabricQuiet (s.fabric f)) &&
  ((List.range 12).all fun k => (linkSlot s k).isNone || linkSlot s k != jobOf s n || linkQuiet (s.link k))

/-- Every engine and hart of a context on a die is quiet (R278); a salinometer transfer of the context is not. -/
def dieQuiet (s : State) (d n : Nat) : Bool :=
  (d != 8 || hubQuiet s n) &&
  ((List.range 258).all fun h => hartCtx s h != some n || hartEng h / 256 != d || hartQuiet s h) &&
  ((dieEngines d).all fun e => (List.range (queueCount e)).all fun q => s.ownerOf e q != some n || (queueQuiet s e q && runQuiet s e 0)) &&
  ((List.range 32).all fun i => s.bayCtx (d * 32 + i) != some n || vecQuiet s (d * 32 + i) || 8 ≤ d) &&
  (match (s.sal d).xfer with | some (m, _) => m != n || 8 ≤ d | none => true)

/-- DL_DIE_REPORT (R278): a quiet report without a change joins the round; any other starts the detection afresh. -/
def execDlDieReport (d n : Nat) (s : State) : Out :=
  .next (
    let c := s.ctx n
    let t := d * 64 + n
    let quiet := dieQuiet s d n && !s.touched.contains t
    let s1 := { s.cross d 8 with touched := s.touched.filter (· != t) }
    if 9 ≤ d ∨ 64 ≤ n then s
    else if !quiet then s1.setCtx n { c with dlQuiet := [], dlRun := 0, stopped := false }
    else
      let q := if c.dlQuiet.contains d then c.dlQuiet else c.dlQuiet ++ [d]
      if q.length = 9 then s1.setCtx n { c with dlQuiet := [], dlRun := c.dlRun + 1 }
      else s1.setCtx n { c with dlQuiet := q })

/-- The entries of a context's table, with their identifiers. -/
def mapEntries (s : State) (n : Nat) : List (Nat × Word) := (s.ctx n).map.filter fun p => bit p.2.toNat 0

/-- A context is closed (R278). -/
def ctxClosed (s : State) (n : Nat) : Bool :=
  (mapEntries s n).all (fun p => !bit p.2.toNat 18) &&
  ((List.range 4).all fun f => (s.fabric f).ctx != some n) &&
  ((List.range 16).all fun m => !(bit (regGet s (pageOf 17 m) 0x44).toNat 31 && regField s (pageOf 17 m) 0x44 0 6 == n)) &&
  (s.time.trigs.all fun p => p.2.owner != some n) &&
  (mapEntries s n).all fun p => p.1 / 4096 != 1 || !((s.barrier (entryObj 1 p.2)).conf.mask.contains 560)

/-- The oldest wait of a context. -/
def oldestWait (s : State) (n : Nat) : Option WaitEnt :=
  ((allWaits s).filter fun w => w.ctx == n).foldl (fun best w =>
    match best with
    | none => some w
    | some b => if w.seq < b.seq then some w else some b) none

/-- DEADLOCK (R279): due once the nine dies have reported a context in RUN quiet for WINDOW rounds of 1 µs; posted once per stop. -/
def execDeadlock (n : Nat) (s : State) : Out :=
  .next (
    let c := s.ctx n
    let vid := match oldestWait s n with | some w => w.vid | none => 0
    if c.st ≠ .run ∨ c.stopped ∨ c.dlRun < c.dlWindow.toNat then s
    else if ctxClosed s n then
      let s1 := syncEvent (s.setCtx n { c with stopped := true }) n 1 vid
      if c.dlPolicy then settle (endWaits s1 n cSyncDeadlock) else s1
    else syncEvent (s.setCtx n { c with stopped := true }) n 2 vid)

/-! ### Lending (R282) -/

/-- A bay is idle or held in Mladaz waits. -/
def bayIdle (s : State) (b : Nat) : Bool := queueQuiet s (bayEng b) 0 && runQuiet s (bayEng b) 0 && vecQuiet s b

/-- PWR_LEND_START (R282): the bays of a context on a die, none of them fenced, have been idle or waiting past the threshold. -/
def execPwrLendStart (d n : Nat) (s : State) : Out :=
  .next (
    let bs := ((List.range 32).map (d * 32 + ·)).filter fun b => s.bayCtx b == some n && !s.svc.bays.contains b
    let t := d * 64 + n
    if d < 8 ∧ n < 64 ∧ !bs.isEmpty ∧ bs.all (bayIdle s) ∧ !s.lends.contains t then { s with lends := s.lends ++ [t] } else s)

/-! ### The translation tables (R252) -/

/-- An object is mapped by an entry other than (ctx, vid). -/
def mappedElsewhere (s : State) (ctx vid cls key : Nat) : Bool :=
  (List.range 64).any fun n => (mapEntries s n).any fun p =>
    !(n == ctx && p.1 == vid) && p.1 / 4096 == cls && entryObj cls p.2 == key

/-- The object of a class has waiters. -/
def hasWaiters (s : State) (cls key : Nat) : Bool :=
  match cls with
  | 0 => !(s.flag key).waiters.isEmpty
  | 1 => !(s.barrier key).waiters.isEmpty
  | _ => !(s.credit key).waiters.isEmpty

/-- An object as it is at reset and at its first mapping (R251). -/
def freshObj (s : State) (cls key : Nat) : State :=
  match cls with
  | 0 => s.setFlag key {}
  | 1 => s.setBarrier key {}
  | _ => s.setCredit key {}

/-- The hub refuses an entry (R252). -/
def mapBad (s : State) (ctx vid : Nat) (v : Word) : Bool :=
  let cls := vid / 4096
  let old := tget 0 (s.ctx ctx).map vid
  let range := if cls = 0 then 8192 else if cls = 1 then 128 else 2048
  decide (2 ^ 19 ≤ v.toNat) || decide (8 < bits v.toNat 1 4) || decide (range ≤ bits v.toNat 5 13) ||
  (bit v.toNat 0 && mappedElsewhere s ctx vid cls (entryObj cls v)) ||
  (old != v && bit old.toNat 0 && hasWaiters s cls (entryObj cls old))

/-- A warden write of a translation entry (R252): the error code with which it is refused, or 0, and the state after it. -/
def mapWrite (s : State) (ctx vid : Nat) (v : Word) : State × Nat :=
  if mapBad s ctx vid v then (pageErrOpen s syncPage cMapBad, cMapBad)
  else
    let c := s.ctx ctx
    let old := tget 0 c.map vid
    let cls := vid / 4096
    let s1 := ((List.range 8).foldl (fun s d => s.cross 8 d) s).setCtx ctx { c with map := tset 0 c.map vid v }
    (if bit v.toNat 0 ∧ !(bit old.toNat 0 ∧ entryObj cls old = entryObj cls v) then freshObj s1 cls (entryObj cls v) else s1, 0)

/-- A write of SYNC_MAP_ENT (R252): the entry that SYNC_MAP_SEL selects; class 0b11 selects nothing. -/
def mapEntWrite (v : Word) (s : State) : State :=
  let sel := (regGet s syncPage 0x40).toNat
  if bits sel 8 2 = 3 then s else (mapWrite s (sel % 64) (bits sel 8 2 * 4096 + bits sel 12 12) v).1

/-- SYNC_MAP_WRITE (R252). -/
def execSyncMapWrite (a : Acc) (v : Word) (s : State) : Out := .next (wardenOnly s a (mapEntWrite v))

/-! ### The debug view (R283, R284) -/

/-- A waiter in the waiter list of the view: engine, hart, VALID. -/
def waiterField : Waiter → Nat
  | .hart h => hartEng h + hartNum h * 4096 + 2 ^ 15
  | .vec b | .pan b _ => bayEng b + 2 ^ 15
  | .head e _ => e + 2 ^ 15

/-- V0, V1, V2, the waiters and the last signaller of an object. -/
def objView (s : State) (cls key : Nat) : Nat × Nat × Nat × List WaitEnt × LastSig :=
  match cls with
  | 0 => let f := s.flag key; (b2n f.set + f.coalesce.toNat * 65536, 0, 0, f.waiters, f.last)
  | 1 =>
    let b := s.barrier key
    (b.gen.toNat + b.arr.length * 65536, b.lap.length + expected b.conf * 65536, 0, b.waiters, b.last)
  | _ => let c := s.credit key; (c.p.toNat, c.c.toNat, c.cap + b2n c.faulted * 2 ^ 31, c.waiters, c.last)

/-- Capture the view of an identifier into the SYNC page. -/
def snapshot (s : State) (ctx vid : Nat) : State :=
  let put := fun (s : State) (off v : Nat) => regPut s syncPage off (BitVec.ofNat 32 v)
  match translate s ctx vid with
  | none =>
    [0x58, 0x5C, 0x60, 0x64, 0x68, 0x6C, 0x70, 0x74, 0x78, 0x7C].foldl (fun s off => put s off 0) s
  | some key =>
    let (v0, v1, v2, ws, l) := objView s (vidClass vid) key
    let wf := padTo 0 8 (ws.map fun w => waiterField w.who)
    let s1 := put (put (put s 0x58 v0) 0x5C v1) 0x60 v2
    let s2 := put s1 0x64 (ws.length % 1024 + 2 ^ 31)
    let s3 := put s2 0x68 (l.source.toNat + l.op.toNat * 2 ^ 20 + b2n l.remote * 2 ^ 31)
    let s4 := put s3 0x6C l.stamp.toNat
    (List.range 4).foldl (fun s i => put s (0x70 + 4 * i) (wf.getD (2 * i) 0 + wf.getD (2 * i + 1) 0 * 65536)) s4

/-- A write of SYNC_DBG_SEL (R283). CTX is forced to the accessor's context; the host has no access. -/
def dbgSelWrite (s : State) (a : Acc) (v : Word) : State :=
  match accCtx s a with
  | none => denied s a
  | some n =>
    if !accLive s a then s
    else
      let ctx := if isWarden s a then v.toNat % 64 else n
      let vid := bits v.toNat 8 14
      let s1 := regPut s syncPage 0x54 (BitVec.ofNat 32 (ctx + vid * 256))
      if bit v.toNat 31 then snapshot { s1 with dbgCtx := some ctx } ctx vid else s1

/-- SNAP (R283). -/
def execSnap (a : Acc) (v : Word) (s : State) : Out := .next (dbgSelWrite s a v)

/-- A read of SYNC_EVQ_LO (R286): the head event leaves the queue, its other fields captured in SYNC_EVQ_HI; 0 when it is empty. -/
def syncEvqRead (s : State) (a : Acc) : State :=
  if isWarden s a ∧ accLive s a then
    match s.syncEvq with
    | [] => setRead (regPut s syncPage 0xB4 0) a 0
    | e :: rest =>
      setRead (regPut { s with syncEvq := rest } syncPage 0xB4 (BitVec.ofNat 32 (e.ctx + e.code * 256 + 2 ^ 31))) a e.info
  else deniedRead s a

/-- SYNC_EVQ_READ (R286). -/
def execSyncEvqRead (a : Acc) (s : State) : Out := .next (syncEvqRead s a)

end Sys2Proof.Machine
end

