-- ==== Sys2Proof/Machine/Heads.lean ====
section
/-! DEFINITION. Descriptors at the head of their queue, their start, and the completion of operations (02, R48 to R62; 06, R174,
R177, R203, R206). -/

namespace Sys2Proof.Machine

open Sys2Proof

/-! ### The head of a queue (R51, R52) -/

/-- The record kind of an engine (R60). -/
def engineKind (e : Nat) : Nat :=
  match engKind e with
  | .bay => 0
  | .fabric => 3
  | _ => 2

/-- The common header is well formed (R51). -/
def headerOk51 (hdr : Dword) : Bool :=
  let h := hdr.toNat
  let wcls := bits h 44 2
  !bit h 27 && bits h 46 2 < 2 && bits h 62 2 != 3 && (!bit h 30 || wcls == 0 || wcls == 3) && (!bit h 31 || sigWell hdr)

/-- The lowest reason of the engine's own check (R117, R244, R373); 0 when it passes. -/
def engineCheck (s : State) (op : Op) : Nat :=
  match engKind op.engine with
  | .bay => panCheck op.body
  | .fabric => ovsCheck op.body
  | _ => dmaCheck s op.ctx op.body

/-- The payload of an operation that its engine refuses: the reason stands in CHECK (R139, R374). CYCLES is free (log entry 9). -/
def refusedPayload (s : State) (op : Op) (check : Nat) : List Word :=
  match engKind op.engine with
  | .bay => panPayload {} check ((Config.draw s.free).truncate 32)
  | .fabric => ovsPayload s (op.engine % 256) check 0 0 0
  | _ => []

/-- The head descriptor fails its checks with a status: it completes at once, and the next becomes head (R52). A DMA case goes to the
page of the engine with the tag (R244). A descriptor that fails for a name of its header has no status of its own before (R51). -/
def refuseHead (s : State) (e q : Nat) (op : Op) (rest : List Op) (check status : Nat) : State :=
  let s1 := s.setQueue e q rest
  let s2 := if engineKind e = 2 ∧ check ≠ 0 then pageErr s1 (dmaPage e) cBadDescriptor check op.tag
    else if engKind e = .bay then bump s1 (panPage (engBay e)) 0 1 else s1
  settle ({ s2 with free := s2.free + 1 },
    [.complete { op with kind := engineKind e, payload := refusedPayload s op check,
                         phase := if status = cSyncUnmapped then 5 else op.phase } status])

/-- The faults of R9 for the names of a header that map nothing: WAIT_ID, then SIG_ID. -/
def headFaults (s : State) (op : Op) : State :=
  let h := op.hdr.toNat
  let wait := bits h 32 14
  let sig := bits h 48 14
  let s1 := if bit h 30 ∧ (translate s op.ctx wait).isNone then nameFault s op.ctx wait else s
  if bit h 31 ∧ (translate s op.ctx sig).isNone then nameFault s1 op.ctx sig else s1

/-- The queues of an engine are served: it is awake and not quiescing (R436, R438, R495), and the mesh has not failed (R27). -/
def engineServes (s : State) (e : Nat) : Bool := queueCount e != 0 && !s.dead && awake s e && !quiescing s (engPage e)

/-- An earlier descriptor of the queue still runs (R49). -/
def fenceHolds (s : State) (e q : Nat) : Bool :=
  match s.run e 0 with
  | some op => op.queue == q
  | none => false

/-- The head descriptor begins its wait (R52, R259): a flag that is set satisfies it at once, and WAIT_SET_CLR clears it in the same
operation; a mark goes with the set (R307). A wait begun by an aborted or released context ends at once (R65, R36). -/
def beginWait (s0 : State) (e q : Nat) (op : Op) (rest : List Op) : State :=
  let h := op.hdr.toNat
  let vid := bits h 32 14
  let clears := bits h 46 2 == 1
  let st := waitStatus s0 op.ctx
  match translate s0 op.ctx vid with
  | none => refuseHead (headFaults s0 op) e q op rest 0 cSyncUnmapped
  | some key =>
    let s := s0.cross (e / 256) (objDie (vidClass vid) key)
    if st ≠ 0 then settle (s.setQueue e q rest, [.complete { op with kind := 4 } st])
    else if homeOff s vid key then settle (s.setQueue e q rest, [.complete { op with kind := 4 } cEngineFenced])
    else
      let f := s.flag key
      if f.set then
        let s1 := s.setQueue e q ({ op with phase := 2, mark := op.mark || f.mark } :: rest)
        if clears then flagClear s1 key op.ctx { eng := e, op := 0xF3 } else s1
      else
        let w := newWaiter s op.ctx vid (.head e q) clears 0 0
        ({ s with waitSeq := s.waitSeq + 1 }.setFlag key { f with waiters := f.waiters ++ [w] }).setQueue e q ({ op with phase := 3 } :: rest)

/-- DESC_HEAD (R51, R52): the checks of a descriptor that has become head, then its fence, then its wait. -/
def execDescHead (e q : Nat) (s : State) : Out :=
  .next (
    if !engineServes s e then s
    else match s.queue e q with
      | [] => s
      | op :: rest =>
        let h := op.hdr.toNat
        let unmapped := (bit h 30 && (translate s op.ctx (bits h 32 14)).isNone) || (bit h 31 && (translate s op.ctx (bits h 48 14)).isNone)
        if op.phase = 0 then
          let check := engineCheck s op
          if !headerOk51 op.hdr ∨ check ≠ 0 then refuseHead s e q op rest check cBadDescriptor
          else if unmapped then refuseHead (headFaults s op) e q op rest 0 cSyncUnmapped
          else if bit h 28 ∧ fenceHolds s e q then s.setQueue e q ({ op with phase := 1 } :: rest)
          else if bit h 30 then beginWait s e q op rest
          else s.setQueue e q ({ op with phase := 2 } :: rest)
        else if op.phase = 1 ∧ !fenceHolds s e q then
          if bit h 30 then beginWait s e q op rest else s.setQueue e q ({ op with phase := 2 } :: rest)
        else s)

/-- The head of a queue is ready to start. -/
def headReady (s : State) (e q : Nat) : Bool :=
  match s.queue e q with
  | op :: _ => op.phase == 2
  | [] => false

/-- It is the turn of queue `q` (R48): none of the queues before it in the round has a head that is ready. -/
def turnOf (s : State) (e q : Nat) : Bool :=
  let n := queueCount e
  let first := tget 0 s.rr e
  (List.range n).all fun i =>
    let p := (first + i) % n
    p == q || !headReady s e p || decide ((q + n - first) % n < i)

/-- A fabric whose tiles take no descriptors yet: it dozes or wakes (R386, R387). -/
def fabricDozes (s : State) (e : Nat) : Bool := engKind e == .fabric && (s.fabric (e % 256)).pstate % 2 == 1

/-- DESC_START (R44, R48, R52): the head starts on its engine, and its entry of the queue returns to its hart's grant. -/
def execDescStart (e q : Nat) (s : State) : Out :=
  .next (
    if engineServes s e ∧ (s.run e 0).isNone ∧ headReady s e q ∧ q < queueCount e ∧ turnOf s e q ∧ !fabricDozes s e then
      match s.queue e q with
      | [] => s
      | op :: rest =>
        let op1 := { op with kind := engineKind e, queue := q, phase := 2, rgn := (s.ctx op.ctx).region }
        let s1 := ({ s with rr := tset 0 s.rr e ((q + 1) % queueCount e) }.setQueue e q rest).setRun e 0 op1
        if engKind e = .bay then panStart s1 (engBay e) op1 else s1
    else s)

/-! ### Completion (R53, R174, R203, R206) -/

/-- The operation of unit 0 as its record shows it: an Ouvvos record names slot, epoch and power state at completion (R374). -/
def recordOp (s : State) (op : Op) : Op :=
  if engKind op.engine = .fabric then
    { op with payload := ovsWord0 s (op.engine % 256) (bits (op.payload.getD 0 0).toNat 8 8) :: op.payload.drop 1 }
  else op

/-- Complete the operation of unit 0. -/
def completeRun (s : State) (e : Nat) (op : Op) (status : Nat) : State :=
  let s1 := s.clearRun e 0
  let s2 := if engKind e = .bay then bump (s1.setPan (engBay e) {}) (panPage (engBay e)) 0 1 else s1
  settle (s2, [.complete (recordOp s op) status])

/-- A trailer breaks R47, R51 or R174. -/
def trailerBad (op : Op) : Bool :=
  let w := ofLE op.body
  w % 2 ^ 29 != 0 || bit w 30 || bits w 32 16 != 0 || bits w 62 2 == 3 || (bit w 31 && !sigWell op.hdr)

/-- The payload of a vector block (R62, R203). -/
def blockPayload (m : Summary) : List Word :=
  [BitVec.ofNat 32 (m.max.toNat + m.min.toNat * 2 ^ 16), m.sum, BitVec.ofNat 32 m.nonzero, BitVec.ofNat 32 m.sflags.toNat]

/-- Complete the block whose trailer is at the head: its record, ZSUM's summary, its fault (R174, R203, R206). -/
def completeBlock (s : State) (b : Nat) (op : Op) : State :=
  let v := s.vec b
  let status := if v.stop ≠ 0 then v.stop.toNat else if trailerBad op then cBadDescriptor else 0
  let s1 := match v.fault with
    | some f => pageErr s (vecPage b) f.code.toNat
        (f.word % 2 ^ 20 + (match f.lane with | some l => l * 2 ^ 20 + 2 ^ 30 | none => 0)) (op.tag + op.ctx * 2 ^ 13)
    | none => s
  let v1 := { v with q := v.q.drop 1, last := some v.sum, sum := {}, words := 0, fault := none, stop := 0, held := false, stq := none }
  let op1 := { op with payload := blockPayload v.sum, rflags := BitVec.ofNat 16 (b2n v.sum.valid * 4) }
  settle (bump (s1.setVec b v1) (vecPage b) 1 1, [.complete op1 status])

/-- OP_COMPLETE (R53): the operation of unit 0 (the pan, the DMA engine, the fabric), or with unit 1 the block of the bay's vector unit
whose words are done. -/
def execOpComplete (e u : Nat) (s : State) : Out :=
  .next (
    if u = 0 then
      match s.run e 0 with
      | some op => if op.done then completeRun s e op (if op.stop ≠ 0 then op.stop.toNat else op.status.toNat) else s
      | none => s
    else if u = 1 ∧ engKind e = .bay then
      match (s.vec (engBay e)).q with
      | .close op :: _ => completeBlock s (engBay e) op
      | _ => s
    else s)

/-- What a stopped operation's engine drops: requests, waits, transfers and collectives. -/
def dropAway (s : State) (e : Nat) : State :=
  let s1 := { s with txXfers := s.txXfers.filter (fun x => x.engine != e), colls := s.colls.filter (fun c => c.engine != e) }
  if engKind e = .bay then dropWaiter (dropWaiter (dropRequests s1 e 0) (.pan (engBay e) 0)) (.pan (engBay e) 1) else s1

/-- The payload of an operation stopped at a boundary. What a DMA engine had moved of a remote transfer is free (log entry 28). -/
def stoppedPayload (s : State) (op : Op) : List Word :=
  match engKind op.engine with
  | .bay => panPayload (s.pan (engBay op.engine)) 0 ((Config.draw s.free).truncate 32)
  | .fabric => ovsPayload s (op.engine % 256) 0 0 0 0
  | _ => if op.phase = 4 then [(Config.draw s.free).truncate 32, (Config.draw (s.free + 1)).truncate 32,
                               (Config.draw (s.free + 2)).truncate 32, 0] else []

/-- OP_BOUNDARY_STOP (R36, R64, R65, R133, R177): an operation that is to stop reaches its next boundary and completes with its code; a
vector block discards the words that are left. -/
def execOpBoundaryStop (e u : Nat) (s : State) : Out :=
  .next (
    if u = 0 then
      match s.run e 0 with
      | some op =>
        if op.stop ≠ 0 ∧ !op.done then
          let rf := if engKind e = .bay then
              let p := s.pan (engBay e)
              BitVec.ofNat 16 (b2n (decide (0 < p.replays) || p.reconv) + 2 * b2n (decide (0 < p.lates)))
            else op.rflags
          let s0 := dropAway { s with free := s.free + 3 } e
          let s1 := if engKind e = .bay then bumpFree s0 (panPage (engBay e)) 4 else s0
          completeRun s1 e { op with payload := stoppedPayload s op, rflags := rf } op.stop.toNat
        else s
      | none => s
    else if u = 1 ∧ engKind e = .bay then
      let b := engBay e
      let v := s.vec b
      if v.stop ≠ 0 ∧ !v.q.isEmpty then
        let s1 := if v.held then bumpFree s (pageOf 11 b) 4 else s
        dropWaiter (dropRequests (s1.setVec b { v with q := discardBlock v.q, held := false, stq := none }) e 1) (.vec b)
      else s
    else s)

end Sys2Proof.Machine
end

