-- ==== Sys2Proof/Machine/Link.lean ====
section
/-! DEFINITION. Griros links: bring-up, loss, keys, agreement, time, recalibration, jobs (10, R288 to R308, R317 to R320). -/

namespace Sys2Proof.Machine

open Sys2Proof

/-- The page of a link, and the job page. -/
def grlPage (k : Nat) : Nat := pageOf 16 k
def jobPage : Nat := pageOf 16 12

/-! ### Bring-up (R297) -/

/-- GRL_CFG.HOLD of a link. -/
def linkHold (s : State) (k : Nat) : Bool := bit (regGet s (grlPage k) 0x48).toNat 0

/-- The laser module of an optical engine feeds it: seated, stable, not fenced, not shut by a trip (R31, R445, R479). -/
def engineFed (s : State) (e : Nat) : Bool :=
  s.boot.stable.contains (e / 2) && !s.svc.lmods.contains (e / 2) && !s.boot.shut.contains e

/-- A link leaves DOWN for CALIBRATE once light is present, the page is enabled, HOLD is 0 and the node is set (R297); a fenced link
and one whose retry time runs stay DOWN. A link whose engine was calibrated while it stood DOWN goes straight to TRAIN (R520). -/
def tryUp (s : State) (k : Nat) : State :=
  let l := s.link k
  if l.state = 0 ∧ l.light ∧ !l.retryWait ∧ bit (regGet s (grlPage k) 8).toNat 0 ∧ !linkHold s k ∧ nodeId s ≠ 0xFFFFF ∧
     !s.svc.links.contains k ∧ engineFed s k
  then
    if s.boot.engCal.contains k
    then ({ s with boot := { s.boot with engCal := s.boot.engCal.filter (· != k) } } : State).setLink k
      { l with state := 2, spent := [], freed := [] }
    else s.setLink k { l with state := 1 }
  else s

/-! ### Going DOWN (R295, R296, R266) -/

/-- A message of a transfer is unacknowledged on a link, or a piece of its read is to come over it. -/
def xferOn (s : State) (k : Nat) (x : TxXfer) : Bool :=
  let l := s.link k
  let tag := (s.jobSlot x.slot).tag
  l.retryBuf.any (fun f => f.xfer == x.xfer && f.job == tag && (f.mtype == 1 || f.mtype == 2)) ||
  l.txq.any (fun t => t.msg.xfer == x.xfer && t.msg.jobTag == tag && (t.msg.mtype == 1 || t.msg.mtype == 2)) ||
  x.want.any fun w => w.2.2 == k

/-- A collective uses a link (R296): one that carries the job's traffic to the next or from the previous member of its ring, or one with
a message of it unacknowledged. A broadcast uses none behind its first position and none after its last. -/
def collOn (s : State) (k : Nat) (c : Coll) : Bool :=
  let j := s.jobSlot c.slot
  let r := tget {} j.rings c.ring
  let up := fun (node : BitVec 20) => (usableLinks s c.slot node.toNat).contains k
  (up r.next && !(c.phase == 2 && r.pos + 1 == r.size)) || (up r.prev && !(c.phase == 2 && r.pos == 0)) ||
  (s.link k).retryBuf.any fun f => f.mtype == 5 && f.job == j.tag

/-- Barrier release signals that a link has not had acknowledged. -/
def lostReleases (l : Link) : List Nat := (l.retryBuf.filterMap (·.rel)) ++ (l.txq.filterMap (·.rel))

/-- RELEASE_LOST for a release signal (R266). -/
def releaseLost (s : State) (r : Nat) : State := syncEvent (bump s syncPage 2 1) (r / 2 ^ 32) 7 (r % 2 ^ 32)

/-- The operation of an engine that waits for Griros ends with a status, having written bytes locally (R62). -/
def awayEnd (s : State) (e status : Nat) (bytes : List Byte) : State :=
  match s.run e 0 with
  | some op =>
    if op.done then s
    else s.setRun e 0 { op with done := true, status := BitVec.ofNat 16 status,
                                payload := dmaPayload bytes.length (if bytes.isEmpty then 0 else crc32c bytes) }
  | none => s

/-- The bytes that a collective has written on this device (R314): a sealed output is written at the end. -/
def collWritten (s : State) (c : Coll) : List Byte :=
  match s.run c.engine 0 with
  | some op => let d := dmaDesc op.body; if sealsObject d d.dst || sealsPages d d.dst then [] else c.mine.flatMap (·.2)
  | none => []

/-- A link goes DOWN with a cause (R295, R296): its transfers and collectives end with GRL_LINK_DOWN, its keys are gone. -/
def linkDown (s : State) (k cause : Nat) : State :=
  let l := s.link k
  if l.state = 0 then s
  else
    let hit := s.txXfers.filter (xferOn s k)
    let cut := s.colls.filter (collOn s k)
    let s0 := hit.foldl (fun s x => awayEnd s x.engine cGrlLinkDown []) s
    let s1 := cut.foldl (fun s c => awayEnd s c.engine cGrlLinkDown (collWritten s c)) s0
    let s2 := { s1 with txXfers := s1.txXfers.filter fun x => !hit.contains x, colls := s1.colls.filter fun c => !cut.contains c }
    let s3 := (lostReleases l).foldl releaseLost s2
    evt (s3.setLink k { light := l.light, calibrated := l.calibrated, retryWait := l.retryWait, cause := cause, diff := l.diff,
                        mismatch := l.mismatch, offset := l.offset, rtt := l.rtt,
                        rxMsgs := l.rxMsgs.map fun m => { m with want := 0 } }) (grlPage k) 1

/-- A link is held DOWN by a failed KEYX (R297). -/
def holdDown (s : State) (k : Nat) : State := regOr (linkDown s k 3) (grlPage k) 0x48 1

/-- LIGHT_PRESENT (R297). -/
def execLightPresent (k : Nat) (s : State) : Out :=
  .next (if 12 ≤ k then s else tryUp (s.setLink k { s.link k with light := true }) k)

/-- CALIBRATE_DONE (R297): the link enters TRAIN, with credit for every receive buffer (R293). An engine that is fed is calibrated
while its link still stands DOWN (R31, R519), one of a port group before its ports come up. -/
def execCalibrateDone (k : Nat) (s : State) : Out :=
  .next (
    let l := s.link k
    if 12 ≤ k then
      if k < 16 ∧ engineFed s k ∧ !s.boot.engCal.contains k then { s with boot := { s.boot with engCal := s.boot.engCal ++ [k] } } else s
    else if l.state = 1 then s.setLink k { l with state := 2, calibrated := true, spent := [], freed := [] }
    else if k < 12 ∧ l.state = 0 ∧ !l.calibrated ∧ engineFed s k then
      tryUp (({ s with boot := { s.boot with engCal := s.boot.engCal ++ [k] } } : State).setLink k { l with calibrated := true }) k
    else s)

/-- A management message (R290): KEYX 0x09, TIME 0x08, AGREE 0x07. The spec gives no layout of what follows its header (log entry 84). -/
def sendMgmt (s : State) (k mtype : Nat) (data : List Byte) : State :=
  sendMsg s k { vc := 0, mtype := mtype, len := data.length, data := data } none

/-- Begin KEYX (R298): a nonce is drawn and sent. -/
def startKeyx (s : State) (k : Nat) : State :=
  let nonce := drawnBytes s.free 4
  let l := s.link k
  sendMgmt ({ s with free := s.free + 4 }.setLink k { l with nonce := some (BitVec.ofNat 256 (ofLE nonce)) }) k 9 nonce

/-- TRAIN_DONE (R297): all lanes lock, and KEYX begins. -/
def execTrainDone (k : Nat) (s : State) : Out :=
  .next (
    let l := s.link k
    if l.state = 2 then startKeyx (s.setLink k { l with state := 3, lanes := 0xFF }) k else s)

/-- TRAIN_TIMEOUT (R297): training fails; it is retried after 1 s. -/
def execTrainTimeout (k : Nat) (s : State) : Out :=
  .next (
    if (s.link k).state = 2 then
      let s1 := linkDown s k 2
      s1.setLink k { s1.link k with retryWait := true }
    else s)

/-- TRAIN_RETRY (R297). -/
def execTrainRetry (k : Nat) (s : State) : Out :=
  .next (
    let l := s.link k
    if l.state = 0 ∧ l.retryWait then tryUp (s.setLink k { l with retryWait := false }) k else s)

/-! ### Keys (R298, R451) -/

/-- In FIELD a link fails KEYX while no valid policy is loaded (R451). -/
def policyMissing (s : State) : Bool := s.sec.lc == 2 && s.sec.policy.isNone

/-- Begin a rekeying KEYX while traffic goes on (R298). -/
def startRekey (s : State) (k : Nat) : State :=
  let l := s.link k
  if linkUp l ∧ !l.rekeying then startKeyx (s.setLink k { l with rekeying := true }) k else s

/-- The keys of the two directions of a link (R298), that of the side with the lower node first: HKDF-SHA-384 of the shared secret, the
two nonces in ascending node order as salt. -/
def linkKeys (secret : List Byte) (own peer : BitVec 256) (lower : Bool) : LinkKey × LinkKey :=
  let a := toLE 32 own.toNat
  let b := toLE 32 peer.toNat
  let out := hkdf384 (if lower then a ++ b else b ++ a) secret [] 72
  let key := fun (o : List Byte) => ({ key := BitVec.ofNat 256 (fieldLE o 0 32), salt := BitVec.ofNat 32 (fieldLE o 32 4) } : LinkKey)
  (key (out.take 36), key (out.drop 36))

/-- The sending and the receiving key of this side of a link. The shared secret of the ephemeral keys is a draw (log entry 11). -/
def sideKeys (s : State) (k peer : Nat) (nonce : BitVec 256) : LinkKey × LinkKey :=
  let lower := decide (nodeId s < peer)
  let (a, b) := linkKeys (drawnBytes s.free 6) ((s.link k).nonce.getD 0) nonce lower
  if lower then (a, b) else (b, a)

/-! ### Agreement (R300) -/

/-- The image of a digest in the model: its 48 bytes as a number. -/
def sha384Num (bs : List Byte) : BitVec 384 := BitVec.ofNat 384 (ofBE (sha384 bs))

/-- What each group of R300 covers on this device, for a link, as numbers; nothing where the group is empty. The versions of the images
of kinds 0 to 3; the version of the special-function tables; the job; its neighbours and rings; the time configuration. -/
def agreeItems (s : State) (k : Nat) : List (List Nat) :=
  let j := (linkSlot s k).map s.jobSlot
  [ (List.range 4).map fun i => (instVersion s i 0).toNat,
    [(instVersion s 4 0).toNat],
    match j with
    | some j => [j.id.toNat, j.tag.toNat, (sha384Num (toLE 8 j.seed.toNat)).toNat]
    | none => [],
    match j with
    | some j => (j.nbrNode.flatMap fun p => [p.1, p.2.toNat]) ++
        (j.rings.flatMap fun p => [p.1, p.2.size.toNat, p.2.pos.toNat, p.2.prev.toNat, p.2.next.toNat])
    | none => [],
    [regField s timePage 0x58 0 2, regField s timePage 0x54 0 8, regField s timePage 0x54 8 8] ++
      match j with
      | some j => [j.bound.toNat]
      | none => [] ]

/-- The digest that this side brings to the agreement of a link (R300). -/
def ownDigest (s : State) (k : Nat) : Digest :=
  let gs := (agreeItems s k).zipIdx.map fun x =>
    sha384Num (if x.1.isEmpty then [] else Config.canonical x.2 x.1)
  { d := sha384Num (gs.flatMap fun g => (toLE 48 g.toNat).reverse), groups := gs }

/-- The groups in which two digests differ (R300). -/
def digestDiff (a b : Digest) : BitVec 5 :=
  BitVec.ofNat 5 (((List.range 5).filter fun i => a.groups.getD i 0 != b.groups.getD i 0).foldl (fun n i => n + 2 ^ i) 0)

/-- Send D (R300). -/
def sendDigest (s : State) (k : Nat) : State := sendMgmt s k 7 (toLE 48 (ownDigest s k).d.toNat).reverse

/-- KEYX (R298): a handshake message; one that fails a check takes the link DOWN with HOLD set, the last one gives the keys. A rekeying
sends under the new key at once, with KEY_PHASE flipped, and holds both receiving keys until the peer's flips. -/
def execKeyx (k peer : Nat) (nonce : BitVec 256) (chainOk policyOk last : Bool) (s : State) : Out :=
  .next (
    let l := s.link k
    if l.state = 3 ∨ linkUp l then
      if !chainOk ∨ !policyOk ∨ policyMissing s then holdDown s k
      else if !last then s
      else
        let (tx, rx) := sideKeys s k peer nonce
        let s1 := { s with free := s.free + 6 }
        if l.state = 3 then
          sendDigest (s1.setLink k { l with state := 4, keyTx := some tx, keyRx := some rx, nextRx := none, nonce := none,
                                            peer := BitVec.ofNat 20 peer, txCount := 0, rxCount := 0 }) k
        else s1.setLink k { l with keyTx := some tx, nextRx := some rx, nonce := none, keyPhaseTx := !l.keyPhaseTx, rekeying := false,
                                   txCount := 0 }
    else s)

/-- KEYX_TIMEOUT (R297). -/
def execKeyxTimeout (k : Nat) (s : State) : Out := .next (if (s.link k).state = 3 then holdDown s k else s)

/-- FLIT_COUNT_REKEY (R298): 2^48 flits in one direction. -/
def execFlitCountRekey (k : Nat) (s : State) : Out :=
  .next (if 2 ^ 48 ≤ (s.link k).txCount ∨ 2 ^ 48 ≤ (s.link k).rxCount then startRekey s k else s)

/-! ### Admission (R297, R300) -/

/-- Run AGREE on a link that has its keys and is past the first agreement; one in RECAL runs it when it is back in UP (R297). -/
def startAgree (s : State) (k : Nat) : State :=
  let l := s.link k
  if l.state = 7 then s.setLink k { l with agreeDue := true }
  else if l.state = 5 ∨ l.state = 6 then sendDigest (s.setLink k { l with state := 4 }) k
  else s

/-- The links of a slot that have not been in UP since its admission: those that had not, but for `done`, and those that are not in UP
(R300). -/
def admitNote (s : State) (slot : Nat) (done : List Nat) : State :=
  let j := s.jobSlot slot
  match j.waitUp with
  | some (l :: ls) =>
    s.setJob slot { j with waitUp := some ((jobLinks s slot).filter fun i =>
      ((l :: ls).contains i && !done.contains i) || !linkUp (s.link i)) }
  | _ => s

/-- Compare the peer's digest with this side's (R300): equal values of D take the link to UP; others take it to QUARANTINE, and the group
digests are sent. -/
def agreeWith (s : State) (k : Nat) (peer : Digest) : State :=
  let own := ownDigest s k
  let l := s.link k
  if own.d = peer.d then
    let s1 := s.setLink k { l with state := 6, diff := 0, mismatch := false }
    evt (pump (match linkSlot s k with | some slot => admitNote s1 slot [k] | none => s1) k) (grlPage k) 0
  else
    let s1 := sendMgmt s k 7 (own.groups.flatMap fun g => (toLE 48 g.toNat).reverse)
    evt (s1.setLink k { s1.link k with state := 5, diff := digestDiff own peer, mismatch := true }) (grlPage k) 2

/-- AGREE (R300): the peer's digests come. A link in UP or QUARANTINE answers with its own; one in RECAL does so when it is back in UP
(R297). -/
def execAgree (k : Nat) (peer : Digest) (s : State) : Out :=
  .next (
    let l := s.link k
    if l.state = 4 then agreeWith s k peer
    else if l.state = 5 ∨ l.state = 6 then agreeWith (startAgree s k) k peer
    else if l.state = 7 then s.setLink k { l with agreeIn := some peer }
    else s)

/-- RECAL has ended: the link is in UP, and an AGREE that waited runs. -/
def afterRecal (s : State) (k : Nat) : State :=
  let l := s.link k
  let s1 := s.setLink k { l with agreeDue := false, agreeIn := none }
  let s2 := if l.agreeDue || l.agreeIn.isSome then startAgree s1 k else s1
  match l.agreeIn with
  | some p => agreeWith s2 k p
  | none => s2

/-- Admit a job (R300): AGREE runs on every link bound to its slot, and its traffic waits until all of them have come to UP. -/
def admitSlot (s : State) (slot : Nat) : State :=
  (jobLinks s slot).foldl startAgree (s.setJob slot { s.jobSlot slot with waitUp := some (jobLinks s slot) })

/-! ### Time (R303, R304) -/

/-- A stamp at the resolution of 2 ns (R303). -/
def stampOf (ns : Int) : Int := ns / 2 * 2

/-- The stamp that a link engine takes from TB3 (R303). -/
def grlStamp (s : State) : Int := let t := tget {} s.time.tb 3; stampOf (t.sec.toNat * 1000000000 + t.ns : Nat)

/-- The bytes of a stamp. -/
def stampBytes (t : Int) : List Byte := toLE 8 (BitVec.ofInt 64 t).toNat

/-- TIME_EXCHANGE (R303): each second an UP link sends TIME, stamped as it leaves. -/
def execTimeExchange (k : Nat) (s : State) : Out :=
  .next (if linkUp (s.link k) then sendMgmt (s.setLink k { s.link k with t1 := some (grlStamp s) }) k 8 (stampBytes (grlStamp s)) else s)

/-- A measurement joins the job's TIME_OK (R304): one beyond the bound clears it; a full round within the bound after TIME_REARM sets
it. -/
def jobTime (s : State) (k : Nat) (offset : Int) : State :=
  match linkSlot s k with
  | none => s
  | some slot =>
    let j := s.jobSlot slot
    if !j.valid then s
    else if (j.bound.toNat : Int) < offset.natAbs then
      evt (s.setJob slot { j with timeOk := false, fresh := [] }) (grlPage k) 5
    else if j.rearm then
      let fresh := if j.fresh.contains k then j.fresh else j.fresh ++ [k]
      if (jobLinks s slot).all fresh.contains then s.setJob slot { j with timeOk := true, rearm := false, fresh := [] }
      else s.setJob slot { j with fresh := fresh }
    else s

/-- TIME_OK of a job falls with a link of it whose last offset is beyond TIME_BOUND (R304). -/
def timeCheck (s : State) (slot : Nat) : State :=
  let j := s.jobSlot slot
  if j.timeOk ∧ (jobLinks s slot).any fun k => decide (j.bound.toNat < (s.link k).offset.toInt.natAbs)
  then s.setJob slot { j with timeOk := false, fresh := [] } else s

/-- TIME (R303): a message of the peer, stamped as it arrives. The answer to this side's message brings the peer's stamps t2 and t3, and
the offset and the round trip follow; one that this side has to answer is answered with its stamps. -/
def execTime (k : Nat) (answer : Bool) (t2 t3 : Int) (s : State) : Out :=
  .next (
    let l := s.link k
    let now := grlStamp s
    if !linkUp l then s
    else if !answer then sendMgmt s k 8 (stampBytes now ++ stampBytes now)
    else match l.t1 with
      | none => s
      | some t1 =>
        let ofs := ((stampOf t2 - t1) - (now - stampOf t3)) / 2
        let rtt := (now - t1) - (stampOf t3 - stampOf t2)
        jobTime (s.setLink k { l with t1 := none, offset := BitVec.ofInt 32 ofs, rtt := BitVec.ofInt 32 rtt }) k ofs)

/-! ### Aborts (R305) -/

/-- ABORT_NOTICE (R305): a context in RUN at the named epoch is aborted with GRL_JOB_ABORT, and the notice goes on over the job's
other links. Management messages have no job-tag check (R290): the job is that of the link. -/
def execAbortNotice (k node : Nat) (_jobTag epoch : BitVec 16) (s : State) : Out :=
  .next (match linkSlot s k with
    | none => s
    | some slot =>
      let j := s.jobSlot slot
      let c := s.ctx j.ctx
      if j.valid ∧ j.abortProp ∧ 4 ≤ (s.link k).state ∧ c.st = .run ∧ c.epoch = epoch then
        let s1 := errRecord s 0x7005 j.ctx false true (0x840 + k) epoch.toNat 0 node
        settle (abortCtx s1 j.ctx (some (node, k)))
      else s)

/-! ### GRL_CFG (R297, R298, R300, R317) -/

/-- Start or resume half-width recalibration of an UP link (R317): a failed half goes first. -/
def startRecal (s : State) (k : Nat) : State :=
  let l := s.link k
  if l.state = 6 then
    if l.lanes = 0x0F then s.setLink k { l with state := 7, half := true, recalHalf := 2 }
    else s.setLink k { l with state := 7, half := true, recalHalf := 1, lanes := 0xF0 }
  else s

/-- A write of GRL_CFG: RETRY_LIMIT 0 stores 1; REAGREE, RECAL_NOW, REKEY and HOLD act. -/
def grlCfgWrite (s : State) (k : Nat) (v : Word) : State :=
  let n := v.toNat
  let v1 := if bits n 4 4 = 0 then BitVec.ofNat 32 (n + 16) else v
  let s1 := plainWrite s (grlPage k) 0x48 v1
  let s2 := if bit n 1 then startAgree s1 k else s1
  let s3 := if bit n 2 then startRecal s2 k else s2
  let s4 := if bit n 3 then startRekey s3 k else s3
  if bit n 0 then linkDown s4 k 7 else tryUp s4 k

/-- REKEY (R298): a write of GRL_CFG with REKEY. -/
def execRekey (a : Acc) (k : Nat) (v : Word) (s : State) : Out :=
  .next (wardenOnly s a fun s => if k < 12 ∧ bit v.toNat 3 then grlCfgWrite s k v else s)

/-- REAGREE (R300): a write of GRL_CFG with REAGREE. -/
def execReagree (a : Acc) (k : Nat) (v : Word) (s : State) : Out :=
  .next (wardenOnly s a fun s => if k < 12 ∧ bit v.toNat 1 then grlCfgWrite s k v else s)

/-- RECAL_NOW (R317): a write of GRL_CFG with RECAL_NOW. -/
def execRecalNow (a : Acc) (k : Nat) (v : Word) (s : State) : Out :=
  .next (wardenOnly s a fun s => if k < 12 ∧ bit v.toNat 2 then grlCfgWrite s k v else s)

/-- HOLD (R297): a write of GRL_CFG; HOLD takes the link DOWN and holds it, and its end lets the link come up. -/
def execHold (a : Acc) (k : Nat) (v : Word) (s : State) : Out :=
  .next (wardenOnly s a fun s => if k < 12 then grlCfgWrite s k v else s)

/-- RECAL_PERIOD (R317): RECAL_S seconds have passed on the side with the lower node, which leads, or the leading side begins; 0 turns the
period off. -/
def execRecalPeriod (k : Nat) (byPeer : Bool) (s : State) : Out :=
  .next (
    if byPeer then startRecal s k
    else if regField s (grlPage k) 0x48 16 16 = 0 ∨ (s.link k).peer.toNat < nodeId s then s
    else startRecal s k)

/-- RECAL_HALF_DONE (R317): the other half follows, or the link returns to 8 lanes; a half that fails leaves the link UP on the other. -/
def execRecalHalfDone (k : Nat) (calibrated : Bool) (s : State) : Out :=
  .next (
    let l := s.link k
    if l.state ≠ 7 then s
    else if !calibrated then
      afterRecal (evt (s.setLink k { l with state := 6, half := true, degraded := true, recalHalf := 0,
                                            lanes := if l.recalHalf = 1 then 0xF0 else 0x0F }) (grlPage k) 3) k
    else if l.recalHalf = 1 then s.setLink k { l with recalHalf := 2, lanes := 0x0F }
    else afterRecal (evt (s.setLink k { l with state := 6, half := false, recalHalf := 0, lanes := 0xFF }) (grlPage k) 4) k)

/-! ### Bindings and jobs (R299, R318 to R320) -/

/-- Bind a link (R318): a link past its first agreement agrees again, and it counts for TIME_OK and the admission of its job (R300,
R304). -/
def bindLink (s : State) (k : Nat) (v : Word) : State :=
  let s1 := startAgree (plainWrite s (grlPage k) 0x4C v) k
  let s2 := match linkSlot s k with
    | some slot => admitNote s1 slot []
    | none => s1
  match linkSlot s1 k with
  | some slot => timeCheck (admitNote s2 slot []) slot
  | none => s2

/-- GRL_BIND (R318). -/
def execGrlBind (a : Acc) (k : Nat) (v : Word) (s : State) : Out :=
  .next (wardenOnly s a fun s => if k < 12 then bindLink s k v else s)

/-- A write of GRL_NODE_ID (R319): ignored unless every link is DOWN. -/
def nodeIdWrite (v : Word) (s : State) : State :=
  if (List.range 12).all fun k => (s.link k).state == 0 then
    (List.range 12).foldl tryUp (plainWrite s jobPage 0x40 v)
  else s

/-- GRL_NODE_ID (R319). -/
def execGrlNodeId (a : Acc) (v : Word) (s : State) : Out := .next (wardenOnly s a (nodeIdWrite v))

/-- The bits of window word `i` that the layout of the selected table has (R320); TIME_OK is read-only. -/
def windowMask (table i : Nat) : Nat :=
  if table = 0 then [0xFFFF00FF, 0xFFFF, 0xFFFFFFFF, 0xFFFFFFFF].getD i 0
  else if table = 1 then [0xFFFFF, 0xFFF, 0, 0].getD i 0
  else if table = 2 then 0xFFFFF else 0

/-- A write of a window word (R16, R320): bits that the layout gives as 0 stay 0. -/
def windowWrite (s : State) (i : Nat) (v : Word) : State :=
  plainWrite s jobPage (0x48 + 4 * i) (v &&& BitVec.ofNat 32 (windowMask (regField s jobPage 0x44 6 2) i))

/-- The table numbers of the job page: job entry, neighbour, ring. A refused entry is left unchanged (R320): the state, and
whether it was accepted. A job entry that names another job begins without TIME_OK and without an admission (log entry 86). -/
def jobEntryWrite (s : State) (slot table idx : Nat) (w0 w1 w2 w3 : Word) : State × Bool :=
  let j := s.jobSlot slot
  let refuse := (pageErrOpen s jobPage cGrlNoRoute, false)
  let low20 := fun (w : Word) => BitVec.ofNat 20 w.toNat
  if 63 ≤ slot ∨ 3 ≤ table then (s, true)
  else if table = 0 then
    let n := bits w0.toNat 1 6
    if bit w0.toNat 0 ∧ (n = 0 ∨ s.jobs.any fun p => p.1 != slot && p.2.valid && p.2.ctx == n) then refuse
    else
      let b := w1.toNat % 65536
      let id := BitVec.ofNat 64 (w2.toNat + w3.toNat * 2 ^ 32)
      let same := j.valid && bit w0.toNat 0 && j.ctx == n && j.id == id
      let j1 := if same then j else { j with timeOk := false, rearm := false, fresh := [], waitUp := none }
      (timeCheck (s.setJob slot { j1 with valid := bit w0.toNat 0, ctx := n, abortProp := bit w0.toNat 7,
                                          tag := BitVec.ofNat 16 (w0.toNat / 65536), bound := BitVec.ofNat 16 (if b = 0 then 1 else b),
                                          id := id }) slot, true)
  else if table = 1 then
    if low20 w0 = 0xFFFFF ∨ 12 ≤ idx then refuse
    else (s.setJob slot { j with nbrNode := tput j.nbrNode idx (low20 w0), nbrLinks := tput j.nbrLinks idx (BitVec.ofNat 12 w1.toNat) }, true)
  else
    let r : RingEnt := { size := low20 w0, pos := low20 w1, prev := low20 w2, next := low20 w3 }
    if r.size = 0 then (s.setJob slot { j with rings := tdel j.rings idx }, true)
    else if r.size = 1 ∨ r.size.toNat ≤ r.pos.toNat ∨ r.prev = 0xFFFFF ∨ r.next = 0xFFFFF then refuse
    else (s.setJob slot { j with rings := tput j.rings idx r }, true)

/-- A write of GRL_JOB_W3 (R320): the entry is written whole. -/
def jobW3Write (v : Word) (s : State) : State :=
  let s1 := windowWrite s 3 v
  let sel := (regGet s jobPage 0x44).toNat
  (jobEntryWrite s1 (sel % 64) (bits sel 6 2) (bits sel 8 4) (regGet s1 jobPage 0x48) (regGet s1 jobPage 0x4C)
    (regGet s1 jobPage 0x50) (regGet s1 jobPage 0x54)).1

/-- GRL_JOB_W3 (R320). -/
def execGrlJobW3 (a : Acc) (v : Word) (s : State) : Out := .next (wardenOnly s a (jobW3Write v))

/-- GRL_JOB_CMD (R300, R304): TIME_REARM and ADMIT act on the selected slot. -/
def jobCmd (s : State) (v : Word) : State :=
  let slot := regField s jobPage 0x44 0 6
  if slot = 63 then s
  else
    let j := s.jobSlot slot
    let s1 := if bit v.toNat 0 then s.setJob slot { j with rearm := !j.timeOk, fresh := [] } else s
    if bit v.toNat 1 then admitSlot s1 slot else s1

/-- ADMIT (R300). -/
def execJobAdmit (a : Acc) (v : Word) (s : State) : Out :=
  .next (wardenOnly s a fun s => if bit v.toNat 1 then jobCmd s v else s)

/-- TIME_REARM (R304). -/
def execTimeRearm (a : Acc) (v : Word) (s : State) : Out :=
  .next (wardenOnly s a fun s => if bit v.toNat 0 then jobCmd s v else s)

end Sys2Proof.Machine
end

