-- ==== Sys2Proof/Machine/MacRun.lean ====
section
/-! DEFINITION. What a MAC receives, sends and is told: frames, PAUSE and PFC, preemption, links, and its registers (11). -/

namespace Sys2Proof.Machine

open Sys2Proof

/-! ### Receive (R330, R333, R336 to R339, R341) -/

/-- A check of R330 step 2 that a frame fails, as the counter of R344 (R323, R341). -/
def rxFail (s : State) (m : Nat) (f : Frame) : Option Nat :=
  if frameLen f < 64 then some 3
  else if macMaxLen s m < frameLen f then some 4
  else if toLE 4 (crc32 (frameData f)).toNat ≠ f.wire.drop (frameLen f - 4) then some 2
  else secFail s m f true

/-- The reason with which a request fails when its frame fails a check (R398), by the check's counter: a frame that has no SA left at its
end has no ICV that matches (log entry 90). -/
def failReason (c : Nat) : Nat :=
  match c with
  | 2 => 1
  | 4 => 2
  | 22 => 4
  | _ => 3

/-- A verified frame moves the PN that its SA expects (R341). -/
def secAccept (s : State) (m : Nat) (f : Frame) : State :=
  match portTag s m f with
  | none => s
  | some g =>
    let x := s.mac m
    match tagSc x g, frameSa s m g with
    | some (i, c), some (_, pn, _) =>
      let next := max (tget 0 c.pn g.an) (pn + 1)
      macCount (s.setMac m { x with rxSc := tput x.rxSc i { c with pn := tput c.pn g.an next } }) m 20 1
    | _, _ => s

/-- Set a pause timer of a class (R333): kind 0 PAUSE, 1 PFC; 0 clears it. -/
def setTimer (x : Mac) (kind c q : Nat) : Mac := { x with timers := tset 0 x.timers (kind * 8 + c) q }

/-- A MAC control frame (R333): consumed; PAUSE and PFC are counted, and act where they are enabled. -/
def rxControl (s : State) (m : Nat) (bs : List Byte) (off : Nat) : State :=
  let op := ofBE (slice bs off 2)
  let x := s.mac m
  if op = 0x0001 then
    let q := ofBE (slice bs (off + 2) 2)
    let s1 := macCount s m 16 1
    if macCfgBit s m 4 then s1.setMac m ((List.range 8).foldl (fun x c => setTimer x 0 c q) x) else s1
  else if op = 0x0101 then
    let en := ofBE (slice bs (off + 2) 2)
    let s1 := macCount s m 17 1
    if macCfgBit s m 5 then
      s1.setMac m ((List.range 8).foldl (fun x c => if bit en c then setTimer x 1 c (ofBE (slice bs (off + 4 + 2 * c) 2)) else x) x)
    else s1
  else s

/-- HASH mode accepts a frame (R336). -/
def hashAccepts (s : State) (m : Nat) (bs : List Byte) : Bool :=
  let da := bs.take 6
  let bin := (crc32 da).toNat % 256
  da == macSta s m || (da.all (· == 0xFF) && macCfgBit s m 3) ||
    (bit (bs.getD 0 0).toNat 0 && !da.all (· == 0xFF) && bit (regGet s (macPage m) (0x54 + 4 * (bin / 32))).toNat (bin % 32))

/-- A frame in the FIFO with its destination: ring 0 to 7, or 8 to be forwarded. -/
def heldFrame (s : State) (m : Nat) (f : Frame) (a : Arrival) (slot : Option Nat) (dest : Nat) (nap : Bool) : HeldFrame :=
  let bs := clearBytes s m f
  { bytes := bs, len := frameLen f, dest := dest, slot := slot, sec := secVerified s m f, stamp := stampAt a.times, cls := frameClass bs,
    ingress := baseUnits (a.times.getD 0 {}), nap := nap }

/-- Put a frame into the FIFO and let it drain. -/
def holdFrame (s : State) (m : Nat) (h : HeldFrame) : State := settleRx (s.setMac m { s.mac m with held := (s.mac m).held ++ [h] }) m

/-- The frame of an arrival is forwarded across a pair (R342, R393). -/
def forwards (s : State) (m : Nat) (a : Arrival) : Bool :=
  !a.hash && a.slot.isSome && (a.action == 1 || a.action == 2) && (macPair s m).isSome

/-- A PTP event message that has passed its checks and is not forwarded is stamped (R420), wherever the filter sends it. -/
def stampRx (s : State) (m : Nat) (f : Frame) (a : Arrival) : State :=
  match if forwards s m a then none else ptpEvent (clearBytes s m f) with
  | some off => queueStamp s m false a.times off (clearBytes s m f)
  | none => s

/-- The action of the slot that a frame matched (R337, R393). A frame of a STEER slot is forwarded on a pair; unpaired it is written to no
ring when it was accepted, and goes to the slot's ring when it was passed. One held during NAP is offered after the resume (R339). -/
def slotFrame (s0 : State) (m : Nat) (f : Frame) (a : Arrival) (k : Nat) (nap : Bool) : State :=
  let s := if a.offered then s0 else macCount s0 m (32 + k) 1
  let hold := fun (dest : Nat) => heldFrame s m f a (some k) dest nap
  let pair := (macPair s m).isSome
  match a.action with
  | 0 => holdFrame s m (hold a.ring)
  | 1 =>
    if nap then holdFrame s m { hold (if pair then 8 else a.ring) with offer := some (k, parseWindow s m f) }
    else if pair then holdFrame s m (hold 8)
    else if a.recd.isSome then s
    else holdFrame s m (hold a.ring)
  | 2 => if pair then holdFrame s m (hold 8) else macCount s m 8 1
  | _ => macCount s m 8 1

/-- Filtering of a frame that has passed its checks (R336, R337), by the mode and the table as its first byte found them (R338). -/
def filterFrame (s0 : State) (m : Nat) (f : Frame) (a : Arrival) (nap : Bool) : State :=
  let s := stampRx s0 m f a
  let ring := regField s (macPage m) 0x48 13 3
  if a.hash then
    if hashAccepts s m (clearBytes s m f) then holdFrame s m (heldFrame s m f a none ring nap) else macCount s m 8 1
  else match a.slot with
    | some k => slotFrame s m f a k nap
    | none => if macCfgBit s m 12 then macCount s m 8 1 else holdFrame s m (heldFrame s m f a none ring nap)

/-- The lowest wake slot that a frame matches (R339). -/
def wakeSlot (x : Mac) (bs : List Byte) : Option Nat := (List.range 32).find? fun k => bit (slotCtl x k) 7 && slotMatches x k bs

/-- A frame that has passed its checks while the hub naps (R339): one that matches a wake slot wakes the hub and is held under its slot's
action: in SLOTS mode that of the lowest slot it matches (R337), in HASH mode that of its wake slot, where STEER acts as RING (R391; log
entry 91). Other frames are dropped until the resume has begun and held from then on. -/
def napFrame (s : State) (m : Nat) (f : Frame) (a : Arrival) : State :=
  let x := s.mac m
  match wakeSlot x (frameData f) with
  | some k =>
    let s1 := evt (wakeDie s 8) (macPage m) 2
    filterFrame s1 m f (if a.hash then
      { a with hash := false, slot := some k, action := if slotAction x k = 1 then 0 else slotAction x k, ring := slotRing x k } else a) true
  | none => if (s.die 8).target == some 0 then filterFrame s m f a true else macCount s m 9 1

/-- What a frame's checks found at its end, noted for the request that it carries (R398). -/
def endRecord (s : State) (m : Nat) (recd : Option Nat) (reason : Nat) : State :=
  match recd with
  | none => s
  | some i =>
    match tfind (s.fabric (m / 4)).recs i with
    | some r => setRec s (m / 4) i { r with ended := some reason }
    | none => s

/-- The arrival of the frame that has ended (R391): as its slot decision left it, or decided now that it has ended before. -/
def takeArrival (s : State) (m : Nat) (f : Frame) : State × Arrival :=
  match (s.mac m).steer with
  | some a => (s.setMac m { s.mac m with steer := none }, a)
  | none => steerDecide s m f

/-- A frame that has passed its checks (R330 step 3, R333); its PN is accepted last (R341). -/
def passRx (s0 : State) (m : Nat) (f : Frame) (a : Arrival) : State :=
  let s := macCount (macCount s0 m 0 1) m 1 (frameLen f)
  let bs := clearBytes s m f
  let (t, off) := etherType bs
  secAccept (if t = 0x8808 then rxControl s m bs off else if hubNaps s && !a.offered then napFrame s m f a
    else filterFrame s m f a false) m f

/-- RX_FRAME (R330): the whole frame has arrived. -/
def execRxFrame (m : Nat) (f : Frame) (s : State) : Out :=
  .next (
    if !rxOpen s m ∧ (s.mac m).steer.isNone then s
    else
      let (s0, a) := takeArrival s m f
      if a.full then macCount s0 m 5 1
      else match rxFail s0 m f with
        | some c => endRecord (macCount s0 m c 1) m a.recd (failReason c)
        | none => passRx (endRecord s0 m a.recd 0) m f a)

/-- NAP_FRAME_DELIVER (R339): once the hub runs, a frame held during NAP is delivered under its slot's action: one of a STEER slot is
offered now (R393). -/
def execNapFrameDeliver (m : Nat) (s : State) : Out :=
  .next (
    match (s.mac m).held with
    | [] => s
    | h :: rest =>
      if !h.nap ∨ (s.die 8).state ≠ 0 then s
      else match h.offer with
        | none => settleRx (s.setMac m { s.mac m with held := { h with nap := false } :: rest }) m
        | some (k, win) =>
          let (s1, r) := offerFrame s m k h.stamp win h.len
          let s2 := endRecord s1 m r 0
          let keep := if r.isSome && h.dest != 8 then rest else { h with nap := false, offer := none } :: rest
          settleRx (s2.setMac m { s2.mac m with held := keep }) m)

/-- PAUSE_TIMER_EXPIRE (R333): the timer of a class reaches zero. -/
def execPauseTimerExpire (m c : Nat) (pfc : Bool) (s : State) : Out :=
  .next (if m < 16 ∧ c < 8 then s.setMac m (setTimer (s.mac m) (b2n pfc) c 0) else s)

/-! ### Transmit (R328, R331, R332, R334, R341) -/

/-- The code with which an entry ends unsent (R328, R341), 0 for none; the frame's bytes. -/
def txCheck (s : State) (m : Nat) (e : List Byte) : Nat × List Byte :=
  let len := fieldLE e 8 2 % 2 ^ 15
  let extra := if macSecBit s m 0 then secOverhead s m else 0
  if bits (fieldLE e 0 8) 52 12 ≠ 0 ∨ fieldLE e 10 2 ≠ 0 ∨ fieldLE e 14 2 ≠ 0 ∨ len < 14 ∨ macMaxLen s m < len + 4 + extra then (cMacLenBad, [])
  else
    let a := fieldLE e 0 8 % 2 ^ 52
    let c := extCheck s (macCtx s m) [{ addr := a, len := len, write := false }]
    let bs := load s a len
    if c ≠ 0 then (c, [])
    else if secProt s m bs ∧ (s.mac m).txAn = none then (cMacSecNoSa, [])
    else (0, bs)

/-- TX_STAGE (R331): the next posted entry of a ring is fetched into the transmit buffer, where its class has room. An entry that
carries nothing to send completes with its code, in ring order (R328). -/
def execTxStage (m c : Nat) (s : State) : Out :=
  .next (
    let x := s.mac m
    let g := x.ring 0 c
    let n := inFlight x c
    let i := (g.hw + BitVec.ofNat 16 n).toNat
    if 8 ≤ c ∨ !txOpen s m ∨ macHolds s m ∨ !g.en ∨ g.posted ≤ n then s
    else if extCheck s (macCtx s m) [{ addr := g.entry i, len := 16, write := false }] ≠ 0 then s
    else
      let e := load s (g.entry i) 16
      let (code, bs) := txCheck s m e
      let f : TxFrame := { cls := c, bytes := bs, src := 0, ts := bit (fieldLE e 8 2) 15, entry := i, status := BitVec.ofNat 16 code,
                           prot := secProt s m bs }
      if classRoom x c bs.length then
        flushBad 2 (stageTx ((s.crossMem 8 (g.entry i) 16).crossMem 8 (fieldLE e 0 8 % 2 ^ 52) (bs.length + 1)) m f) m c
      else s)

/-- Preemption is active (R331). -/
def preemptActive (s : State) (m : Nat) : Bool := macCfgBit s m 7 && ((s.mac m).preempt || macCfgBit s m 8)

/-- The first staged frame of a class may start: it is not paused, and there is an SA that can still send it. -/
def eligible (s : State) (m c : Nat) : Option TxFrame :=
  let x := s.mac m
  match x.staged.find? fun f => f.cls == c with
  | some f => if classPaused x c || macHolds s m || f.status != 0 || (f.prot && (x.txAn.isNone || saSpent s m)) then none else some f
  | none => none

/-- The one-step stamp of an entry with TS (R421), and the frame's bytes: the code it completes with. -/
def stampTx (s : State) (ts : List TimeBase) (f : TxFrame) : State × TxFrame :=
  if !f.ts then (s, f)
  else
    let bad := (s, { f with status := BitVec.ofNat 16 cTimeTsBad })
    match ptpEvent f.bytes with
    | none => bad
    | some off =>
      let k := domainBase s (f.bytes.getD (off + 4) 0).toNat
      if (f.bytes.getD off 0).toNat % 16 ≠ 0 ∨ k = 0 ∨ f.prot then bad
      else
        let t := ts.getD k {}
        let bs := putBytes f.bytes (off + 34) ((toLE 6 t.sec.toNat).reverse ++ (toLE 4 t.ns).reverse)
        (bump s timePage 5 1, { f with bytes := addCorrection bs off (t.frac.toNat / 65536) })

/-- The transparent clock of a pair is on (R422). -/
def tcOn (s : State) (m : Nat) : Bool := bit (regGet s timePage 0x7C).toNat (m / 4 * 2 + m % 4 / 2)

/-- The residence time of a forwarded event message that crosses the pair in clear is added as it leaves (R422). -/
def correctTx (s : State) (m : Nat) (ts : List TimeBase) (f : TxFrame) : State × TxFrame :=
  match ptpEvent f.bytes with
  | some off =>
    if tcOn s m ∧ f.ts ∧ !f.prot then
      (bump s timePage 4 1, { f with bytes := addCorrection f.bytes off (baseUnits (ts.getD 0 {}) - f.ingress) })
    else (s, f)
  | none => (s, f)

/-- A protected frame takes the next PN (R341): past 2^28 before the end SA_PN_LOW is posted. -/
def takePn (s : State) (m : Nat) (f : TxFrame) : State :=
  if !f.prot then s
  else
    let x := s.mac m
    let low := saEnd s m - 2 ^ 28
    let s1 := macCount (s.setMac m { x with txPn := x.txPn + 1 }) m 25 1
    if x.txPn ≤ low ∧ low < x.txPn + 1 then evt s1 (macPage m) 3 else s1

/-- What is stamped or corrected in a frame as it leaves (R420 to R422). -/
def leaveTx (s : State) (m : Nat) (f : TxFrame) : State × TxFrame :=
  let ts := txTimes s
  if f.src = 0 then
    let (s1, f1) := stampTx s ts f
    match ptpEvent f1.bytes with
    | some off => (queueStamp s1 m true ts off f1.bytes, f1)
    | none => (s1, f1)
  else if f.src = 1 then correctTx s m ts f else (s, f)

/-- A staged frame begins (R331, R402): it is stamped, protected and leaves the buffer; a reply is committed. -/
def beginTx (s : State) (m : Nat) (f : TxFrame) : State :=
  let (s1, f1) := leaveTx (s.setMac m { s.mac m with staged := (s.mac m).staged.erase f }) m f
  let f2 := { f1 with wire := wireBytes s1 m f1 }
  let s2 := takePn s1 m f
  let s3 := match f.reply with
    | some e => s2.setFabric (m / 4) (markReply (s2.fabric (m / 4)) e fun r => { r with reply := 3 })
    | none => s2
  let s4 := s3.setMac m { s3.mac m with cur := some f2 }
  settlePair (flushBad 2 s4 m f.cls) m

/-- The PFC frame of `q` quanta begins (R335). -/
def beginPfc (s : State) (m q : Nat) : State :=
  let f : TxFrame := { cls := 8, bytes := pfcFrame s m q, src := 4 }
  macCount (s.setMac m { s.mac m with pfcPend := (s.mac m).pfcPend.drop 1, cur := some { f with wire := wireBytes s m f } }) m 18 1

/-- TX_FRAME_START (R331, R332, R334): at a frame boundary a PFC frame goes first, then the express class, then the rest of a
preempted frame, then the highest class that may start. -/
def execTxFrameStart (m : Nat) (s : State) : Out :=
  .next (
    let x := s.mac m
    if !txOpen s m ∨ x.cur.isSome then s
    else match x.pfcPend with
      | q :: _ => beginPfc s m q
      | [] =>
        match eligible s m 7 with
        | some f => beginTx s m f
        | none =>
          match x.cut with
          | some f => s.setMac m { x with cut := none, cur := some f }
          | none =>
            match [6, 5, 4, 3, 2, 1, 0].findSome? fun c => eligible s m c with
            | some f => beginTx s m f
            | none => s)

/-- Where a fragment that has sent `sent` bytes can be cut (R332): the first multiple of 8 that leaves it 64 × (1 + ADD_FRAG) bytes with its
mCRC, if at least 64 bytes of the frame are then unsent. -/
def cutPoint (f : TxFrame) (addFrag sent : Nat) : Option Nat :=
  let x := alignUp (max sent (64 * (1 + addFrag) - 4)) 8
  if f.sent + x + 64 ≤ f.wire.length then some x else none

/-- TX_PREEMPTIONS (R332): with preemption active, an express frame that may start cuts the preemptable frame being sent, of whose present
fragment `sent` bytes have been sent. -/
def execTxPreemptions (m sent : Nat) (s : State) : Out :=
  .next (
    let x := s.mac m
    match x.cur with
    | some f =>
      match cutPoint f (regField s (macPage m) 0x48 9 2) sent with
      | some n =>
        if txOpen s m ∧ f.cls < 7 ∧ x.cut.isNone ∧ preemptActive s m ∧ (eligible s m 7).isSome
        then macCount (s.setMac m { x with cur := none, cut := some { f with sent := f.sent + n } }) m 13 1 else s
      | none => s
    | none => s)

/-- TX_FRAME_DONE (R327, R328, R344): the frame has been sent, its entry completes. -/
def execTxFrameDone (m : Nat) (s : State) : Out :=
  .next (
    let x := s.mac m
    match x.cur with
    | none => s
    | some f =>
      let s1 := macCount (macCount (s.setMac m { x with cur := none }) m 10 1) m 11 f.wire.length
      let s2 := if f.cls = 7 then macCount s1 m 12 1 else s1
      settlePair (if f.src = 0 then flushBad 2 (completeEntry s2 m f.cls f.entry f.status.toNat) m f.cls else s2) m)

/-- PREEMPT_VERIFY (R331, R345): the verify exchange ends; a failure posts VERIFY_FAIL. -/
def execPreemptVerify (m : Nat) (ok : Bool) (s : State) : Out :=
  .next (
    if macUsed s m ∧ (s.mac m).up ∧ macCfgBit s m 7 then
      let s1 := s.setMac m { s.mac m with preempt := ok }
      if ok then s1 else evt s1 (macPage m) 4
    else s)

/-- The number of a receive SC: that of its SCI, or the lowest that is free of 8 (R340). -/
def scIndex (t : Tbl RxSc) (sci : Dword) : Option Nat :=
  match t.find? fun c => c.2.sci == sci with
  | some (i, _) => some i
  | none => (List.range 8).find? fun i => (tfind t i).isNone

/-- Install an SA in the receive SC of a peer (R340, R341). -/
def installSa (t : Tbl RxSc) (sci : Dword) (an : Nat) (k : Sak) : Tbl RxSc :=
  match scIndex t sci with
  | some i =>
    let c := tget {} t i
    tput t i { c with sci := sci, pn := tput c.pn an 1, sak := tput c.sak an k }
  | none => t

/-- The SAK that the `i`-th SC of a connectivity association uses: the key is one draw, the IV each SC's own (R340; log entry 89). -/
def drawnSak (free i : Nat) : Sak :=
  { key := BitVec.ofNat 256 (ofLE (drawnBytes free 4)), iv := BitVec.ofNat 96 (ofLE (drawnBytes (free + 4 + 2 * i) 2)) }

/-- TX_AN_SWITCH (R341): the warden installs a new SAK under AN `an`, from PN `pn`, and transmits with it. The same SAK serves the receive
SCs of the port's peers, which are named by their SCIs; receive SCs of others are removed (log entry 31). -/
def execTxAnSwitch (m an pn : Nat) (peers : List Dword) (s : State) : Out :=
  .next (
    if m < 16 ∧ an < 4 then
      let x := s.mac m
      let kept := x.rxSc.filter fun c => peers.contains c.2.sci
      let scs := (peers.zipIdx.foldl (fun t (p : Dword × Nat) => installSa t p.1 an (drawnSak s.free (p.2 + 1))) kept : Tbl RxSc)
      let s1 := { s.setMac m { x with txAn := some an, txPn := pn, txSak := some (drawnSak s.free 0), rxSc := scs } with
                  free := s.free + 6 + 2 * peers.length }
      settlePair (if saEnd s m - 2 ^ 28 < pn then evt s1 (macPage m) 3 else s1) m
    else s)

/-! ### Links (R31, R343, R404) -/

/-- Complete every entry posted on a ring with MAC_LINK_DOWN (R343), counting them where they were not staged. -/
def dropPosted : Nat → State → Nat → Nat → Nat → State
  | 0, s, _, _, _ => s
  | n + 1, s, m, r, cnt =>
    let g := (s.mac m).ring 0 r
    if g.hw = g.sw then s
    else dropPosted n (macCount (completeEntry s m r g.hw.toNat cMacLinkDown) m 15 cnt) m r cnt

/-- With HOLD_ON_DOWN at 0, entries posted on a port that is down complete at once (R343). -/
def dropDown (s : State) (m : Nat) : State :=
  if (s.mac m).up ∨ macCfgBit s m 11 then s
  else (List.range 8).foldl (fun s r => if ((s.mac m).ring 0 r).en then dropPosted 65536 s m r 1 else s) s

/-- The entry of a frame that the link's loss discards completes with MAC_LINK_DOWN, counted unless later entries are held (R343); one that
had nothing to send, with its own code. -/
def discardEntry (s : State) (m : Nat) (f : TxFrame) : State :=
  if f.src ≠ 0 then s
  else if f.wire.isEmpty ∧ f.status ≠ 0 then completeEntry s m f.cls f.entry f.status.toNat
  else
    let s1 := completeEntry s m f.cls f.entry cMacLinkDown
    if macCfgBit s m 11 then s1 else macCount s1 m 15 1

/-- A staged frame is discarded at the loss of the link: its entry completes, a reply is counted, a recall is lost (R343, R404). -/
def discardTx (s : State) (m : Nat) (f : TxFrame) : State :=
  let fab := m / 4
  if f.src = 0 then discardEntry s m f
  else if f.src = 2 then
    let s1 := pathCount s fab 12 1
    match f.reply with
    | some e => s1.setFabric fab (markReply (s1.fabric fab) e fun r => { r with reply := 4 })
    | none => s1
  else if f.src = 3 then pathCount s fab 13 1
  else s

/-- The request whose frame is arriving is lost with the link (R398). -/
def loseRequest (s : State) (m : Nat) : State :=
  match (s.mac m).steer with
  | some a =>
    match a.recd with
    | some i =>
      match tfind (s.fabric (m / 4)).recs i with
      | some r => failLost 64 (setRec s (m / 4) i { r with lost := true }) m
      | none => s
    | none => s
  | none => s

/-- A port's link goes down (R343, R404): frames begun end with it, staged ones are discarded, the request that arrives is lost. -/
def macDown (s : State) (m : Nat) : State :=
  let x := s.mac m
  if !x.up then s
  else
    let s1 := s.setMac m { x with up := false, preempt := false, staged := [], back := [], cur := none, cut := none, timers := [],
                                  pfcPend := [] }
    let s2 := (x.cur.toList ++ x.cut.toList).foldl (fun s f => discardEntry s m f) s1
    let s3 := loseRequest ((x.staged ++ x.back).foldl (fun s f => discardTx s m f) s2) m
    settlePair (dropDown (evt (s3.setMac m { s3.mac m with steer := none }) (macPage m) 1) m) m

/-- MAC_LINK_DOWN (R343). -/
def execMacLinkDown (m : Nat) (s : State) : Out := .next (if m < 16 then macDown s m else s)

/-- MAC_LINK_UP (R343): the port is used, and its engine has laser feed and is calibrated (R30, R31). -/
def execMacLinkUp (m : Nat) (s : State) : Out :=
  .next (
    if macUsed s m ∧ !(s.mac m).up ∧ engineFed s (12 + m / 4) ∧ s.boot.engCal.contains (12 + m / 4)
    then evt (s.setMac m { s.mac m with up := true }) (macPage m) 0 else s)

/-- The ports of a group go down. -/
def groupDown (s : State) (g : Nat) : State := (List.range 4).foldl (fun s p => macDown s (4 * g + p)) s

/-- LIGHT_LOSS (R31): the Griros link or the port group of an engine goes down. -/
def execLightLoss (e : Nat) (s : State) : Out :=
  .next (
    if e < 12 then linkDown (s.setLink e { s.link e with light := false }) e 1
    else if e < 16 then groupDown s (e - 12) else s)

/-! ### Registers (R321, R326, R327, R338) -/

/-- Write ERR_CODE of a MAC page; the spec names no INFO words (log entry 27). -/
def macErr (s : State) (m code : Nat) : State := pageErrOpen s (macPage m) code

/-- A write of MAC_GRP_CFG (R321, R342): refused while a MAC of the group has TX_EN or RX_EN, with MODE 3, or with a pair bit that
the mode does not allow. -/
def grpWrite (s : State) (m : Nat) (v : Word) : State :=
  let n := v.toNat
  let mode := bits n 0 2
  let busy := (List.range 4).any fun p => macCfgBit s (m / 4 * 4 + p) 0 || macCfgBit s (m / 4 * 4 + p) 1
  if m % 4 ≠ 0 then s
  else if busy ∨ mode = 3 ∨ (bit n 2 ∧ mode = 0) ∨ (bit n 3 ∧ mode ≠ 2) then macErr s m cMacModeBusy
  else
    let s1 := regPut s (macPage m) 0x40 (BitVec.ofNat 32 (n % 16))
    (List.range 4).foldl (fun s p => if macUsed s (m + p) then s else macDown s (m + p)) s1

/-- MAC_GRP_CFG (R321). -/
def execMacGrpCfg (a : Acc) (m : Nat) (v : Word) (s : State) : Out :=
  .next (if m < 16 ∧ accLive s a then wardenOnly s a (fun s => grpWrite s m v) else s)

/-- A ring register is open to the warden and to the assigned context (R326). -/
def ringAccess (s : State) (a : Acc) (m : Nat) (f : State → State) : State :=
  if !accLive s a then s
  else if isWarden s a ∨ (bit (regGet s (macPage m) 0x44).toNat 31 ∧ accCtx s a = some (macCtx s m)) then
    if macUsed s m then f s else s
  else denied s a

/-- The selected ring: direction and number. -/
def ringSel (s : State) (m : Nat) : Nat × Nat := (regField s (macPage m) 0x80 3 1, regField s (macPage m) 0x80 0 3)

/-- A write of MAC_RING_CFG (R327): LOG2SZ and BUFSZ only while EN is 0; EN written 1 with a SIG_ID that cannot be raised refuses the
write; EN written 1 clears the indices. -/
def ringCfgWrite (s : State) (m : Nat) (v : Word) : State :=
  let x := s.mac m
  let (dir, r) := ringSel s m
  let g := x.ring dir r
  let n := v.toNat
  let lg := bits n 1 4
  let bz := bits n 5 5
  let g1 := if g.en then g
    else { g with log2 := if 6 ≤ lg ∧ lg ≤ 12 then lg else 6, bufsz := if bz = 0 then 1 else if 16 < bz then 16 else bz }
  let sid := bits n 12 14
  let bad := bit n 10 && ((vidClass sid != 0 && vidClass sid != 2) || (translate s (macCtx s m) sid).isNone)
  let g2 := { g1 with sigEn := bit n 10, sigId := sid }
  if bit n 0 ∧ bad then macErr s m cMacRingBad
  else if bit n 0 then s.setMac m (x.setRing dir r { g2 with en := true, sw := 0, hw := 0 })
  else s.setMac m (x.setRing dir r { g2 with en := false })

/-- MAC_RING_CFG (R327). -/
def execMacRingCfg (a : Acc) (m : Nat) (v : Word) (s : State) : Out :=
  .next (if m < 16 then ringAccess s a m (fun s => ringCfgWrite s m v) else s)

/-- A write of MAC_RING_SWIDX (R327): ignored, with MAC_RING_BAD, when more than SIZE would be posted or the index would go back. -/
def swidxWrite (s : State) (m : Nat) (v : Word) : State :=
  let x := s.mac m
  let (dir, r) := ringSel s m
  let g := x.ring dir r
  let i := BitVec.ofNat 16 v.toNat
  if g.size < (i - g.hw).toNat ∨ (i - g.hw).toNat < g.posted then macErr s m cMacRingBad
  else dropDown (s.setMac m (x.setRing dir r { g with sw := i })) m

/-- MAC_RING_SWIDX (R327). -/
def execMacRingSwidx (a : Acc) (m : Nat) (v : Word) (s : State) : Out :=
  .next (if m < 16 then ringAccess s a m (fun s => swidxWrite s m v) else s)

/-- The 148 bytes under CHECK (R338). -/
def slotImage (x : Mac) (k ctl : Nat) : List Byte :=
  (List.range 128).map (fun i => BitVec.ofNat 8 (if slotMask x k i then slotByte x k i else 0)) ++
    (List.range 4).flatMap (fun w => toLE 4 (slotWord x k (32 + w))) ++ toLE 4 (ctl / 2 * 2)

/-- An enable of a slot is refused (R338). -/
def slotRefused (x : Mac) (k ctl : Nat) : Bool :=
  (crc32c (slotImage x k ctl)).toNat != slotWord x k 37 || decide (4 ≤ bits ctl 1 3) ||
    (List.range 128).any fun i => !slotMask x k i && slotByte x k i != 0

/-- A write of MAC_SLOT_DATA (R337, R338): words 0 to 35 and 37 of an enabled slot keep their value; an enable is checked. -/
def slotWrite (s : State) (m : Nat) (v : Word) : State :=
  let x := s.mac m
  let k := regField s (macPage m) 0x98 0 5
  let w := regField s (macPage m) 0x98 8 6
  let put := fun (u : Nat) => s.setMac m { x with slots := tset 0 x.slots (k * 64 + w) (BitVec.ofNat 32 u) }
  if 37 < w then s
  else if w = 36 then
    let ctl := v.toNat % 256
    if bit ctl 0 ∧ slotRefused x k ctl then macErr s m cMacSlotCheck else put ctl
  else if bit (slotCtl x k) 0 then s
  else put v.toNat

/-- MAC_SLOT_DATA (R338). -/
def execMacSlotData (a : Acc) (m : Nat) (v : Word) (s : State) : Out :=
  .next (if m < 16 ∧ accLive s a then wardenOnly s a (fun s => if macUsed s m then slotWrite s m v else s) else s)

end Sys2Proof.Machine
end

