-- ==== Sys2Proof/Machine/Power.lean ====
section
/-! DEFINITION. Die and bay power states, the governor, and the thermal limits (15). Resume times are not modelled: a transition
ends with its DIE_TRANSITION_DONE (log entry 9). -/

namespace Sys2Proof.Machine

open Sys2Proof

/-- The power page. -/
def pwrPage : Nat := pageOf 4 0

def cPwrStateBusy : Nat := 0xB001
def cPwrThermalTrip : Nat := 0xB002

/-- A temperature in units of 1/16 °C (R446). -/
def degC (t : Int) : Int := 16 * t

/-- The ceiling of a die (R444, R446): a throttled die takes the lower of its own and the common ceiling. -/
def dieDuty (s : State) (d : Nat) : Nat := if (s.die d).thermal then min (s.die d).thermCeil s.ceil else s.ceil

/-! ### What a die holds -/

/-- A page is a page of die `d`, and lies on it (R487). -/
def pageOnDie (d page : Nat) : Bool :=
  let i := page % 1024
  match page / 1024 with
  | 8 | 14 => decide (i < 128) && i / 16 == d
  | 10 | 11 => i / 32 == d
  | 12 | 13 => decide (i < 8) && i == d
  | _ => false

/-- The keys of a table that lie in [lo, hi) are dropped. -/
def dropKeys {α : Type} (t : Tbl α) (lo hi : Nat) : Tbl α := t.filter fun p => !(decide (lo ≤ p.1) && decide (p.1 < hi))

/-- Memory from `lo` to `hi` − 1 reads as zeros (R436, R478, R514). -/
def clearMem (s : State) (lo hi : Nat) : State := { s with mem := dropKeys s.mem lo hi }

/-- The waits on the objects that a die homes end with a status. -/
def endHomeWaits (s : State) (d status : Nat) : State × List Work :=
  let f := fun (p : Nat × Flag) => if objDie 0 p.1 = d then p.2.waiters else []
  let b := fun (p : Nat × Barrier) => if objDie 1 p.1 = d then p.2.waiters else []
  let c := fun (p : Nat × Credit) => if objDie 2 p.1 = d then p.2.waiters else []
  let ws := (s.flags.map f).flatten ++ (s.barriers.map b).flatten ++ (s.credits.map c).flatten
  let s1 := ws.foldl (fun s w => dropWaiter s w.who) s
  relAll s1 0 status false ws

/-- The operations and vector blocks of a die's engines end with ENGINE_FENCED (R437), one that was to stop with its own code. A running
operation and the block that executes have reached their engine, and keep its KIND (R60). -/
def endDieWork (s : State) (d : Nat) : State × List Work :=
  let mine := fun (e : Nat) => e / 256 == d
  let (s1, w1) := stopQueues (fun _ => true) cEngineFenced ((s.queues.map (·.1)).filter fun k => mine (k / 4)) s
  let runs := s1.running.filter fun r => mine (r.1 / 2)
  let s2 := { s1 with running := s1.running.filter fun r => !mine (r.1 / 2) }
  let code := fun (o : Op) => if o.done then (if o.stop = 0 then o.status.toNat else o.stop.toNat)
    else if o.stop = 0 then cEngineFenced else o.stop.toNat
  let run := fun (x : (Nat × Op) × Nat) =>
    let o := x.1.2
    Work.complete (if o.done then o else { o with payload := stoppedPayload { s with free := s.free + 3 * x.2 } o }) (code o)
  let blocks := ((s2.vecs.filter fun p => p.1 / 32 == d).map fun p => (closedOps p.2.q).zipIdx.map fun x =>
    if x.2 = 0 then Work.complete { x.1 with payload := blockPayload p.2.sum, rflags := BitVec.ofNat 16 (b2n p.2.sum.valid * 4) }
      (if p.2.stop = 0 then cEngineFenced else p.2.stop.toNat)
    else Work.complete { x.1 with kind := 4 } cEngineFenced).flatten
  let (s3, w2) := endHomeWaits { s2 with vecs := dropKeys s2.vecs (32 * d) (32 * d + 32) } d cEngineFenced
  ({ s3 with free := s3.free + 3 * runs.length }, w1 ++ runs.zipIdx.map run ++ blocks ++ w2)

/-- Nothing on an OFF saltern is kept but its stacks, in self-refresh (R436, R437): registers, SRAM, core memory, harts, objects,
pans, vector units, the salinometer. -/
def dieOff (s0 : State) (d : Nat) : State :=
  let s := settle (endDieWork s0 d)
  let s1 : State :=
    { s with
      regs := s.regs.filter fun p => !pageOnDie d (p.1 / 4096),
      cnts := s.cnts.filter fun p => !pageOnDie d (p.1 / 256),
      harts := dropKeys s.harts (32 * d) (32 * d + 32),
      pans := dropKeys s.pans (32 * d) (32 * d + 32),
      vecs := dropKeys s.vecs (32 * d) (32 * d + 32),
      sals := dropKeys s.sals d (d + 1),
      flags := dropKeys s.flags (8192 * d) (8192 * d + 8192),
      barriers := dropKeys s.barriers (128 * d) (128 * d + 128),
      credits := dropKeys s.credits (2048 * d) (2048 * d + 2048),
      gated := s.gated.filter fun b => b / 32 != d,
      lends := s.lends.filter fun t => t / 64 != d }
  clearMem s1 (baySramBase + 32 * d * 0x40_0000) (baySramBase + (32 * d + 32) * 0x40_0000)

/-- A hart of a die is running, or an operation, or vector work that no Mladaz wait holds (R436). -/
def dieBusy (s : State) (d : Nat) : Bool :=
  (s.running.any fun r => r.1 / 2 / 256 == d) ||
  (s.queues.any fun q => q.1 / 4 / 256 == d && q.2.any fun o => o.phase != 3) ||
  (s.vecs.any fun v => v.1 / 32 == d && !v.2.q.isEmpty && !v.2.held) ||
  (List.range 258).any fun h => hartEng h / 256 == d && hartRuns s h

/-- DIE_IDLE (R436): a die in RUN with no engine busy gates its clocks. -/
def execDieIdle (d : Nat) (s : State) : Out :=
  .next (
    let x := s.die d
    if d < 9 ∧ x.state = 0 ∧ x.target = none ∧ !dieBusy s d then s.setDie d { x with state := 1 } else s)

/-! ### Writes of REQ (R437, R445) -/

/-- The refusal of a write of REQ. -/
def reqRefused (s : State) : State := pageErrOpen s pwrPage cPwrStateBusy

/-- A bay, queue or hart of a die is assigned or bound, or a granule of its stacks belongs to another context than 0. -/
def dieInUse (s : State) (d : Nat) : Bool :=
  (s.owner.any fun p => p.1 / 4 / 256 == d) ||
  (s.harts.any fun p => decide (p.1 < 256) && p.1 / 32 == d && p.2.bound) ||
  (stackOwners s (2 * d) ++ stackOwners s (2 * d + 1)).any (· != 0)

/-- A Griros link is not DOWN. -/
def linksUp (s : State) : Bool := s.links.any fun p => p.2.state != 0

/-- The first RUN of a saltern trains its stacks (R515). -/
def trainStacks (s : State) (d : Nat) : State :=
  (List.range 2).foldl (fun s i => s.setStack (2 * d + i) { s.stack (2 * d + i) with training := true }) s

/-- A write of REQ (R436, R437, R439, R445): held while a transition runs. NAP does not wake an OFF die. -/
def reqWrite (s : State) (d r : Nat) : State :=
  let x := s.die d
  if 9 ≤ d ∨ 3 ≤ r then s
  else if x.target.isSome then s.setDie d { x with held := some r }
  else if r = 0 then
    if degC 100 ≤ (s.sensor d).temp then reqRefused s
    else if x.state = 0 then s.setDie d { x with req := 0 }
    else if x.state = 3 ∧ !x.trained then trainStacks (s.setDie d { x with req := 0, target := some 0, trained := true }) d
    else s.setDie d { x with req := 0, target := some 0 }
  else if r = 1 then
    if d = 8 ∧ linksUp s then reqRefused s
    else if x.state = 3 ∨ x.state = 2 then s.setDie d { x with req := 1 }
    else s.setDie d { x with req := 1, target := some 2 }
  else if d = 8 ∨ dieInUse s d then reqRefused s
  else if x.state = 3 then s.setDie d { x with req := 2 }
  else s.setDie d { x with req := 2, target := some 3 }

/-- DIE_REQ_RUN (R436, R445). -/
def execDieReqRun (a : Acc) (d : Nat) (s : State) : Out := .next (wardenOnly s a fun s => reqWrite s d 0)

/-- DIE_REQ_NAP (R437). -/
def execDieReqNap (a : Acc) (d : Nat) (s : State) : Out := .next (wardenOnly s a fun s => reqWrite s d 1)

/-- DIE_REQ_OFF (R437). -/
def execDieReqOff (a : Acc) (d : Nat) (s : State) : Out := .next (wardenOnly s a fun s => reqWrite s d 2)

/-- DIE_WAKE (R439). -/
def execDieWake (d : Nat) (s : State) : Out := .next (if d < 9 then wakeDie s d else s)

/-- A die is ready to end its transition: NAP once no operation runs on it, RUN from OFF once its stacks are trained (R515). -/
def transitionReady (s : State) (d target : Nat) : Bool :=
  match target with
  | 0 => d == 8 || (!(s.stack (2 * d)).training && !(s.stack (2 * d + 1)).training) || (s.die d).state != 3
  | 2 => !(s.running.any fun r => r.1 / 2 / 256 == d)
  | _ => true

/-- DIE_TRANSITION_DONE (R436, R439): the die is in its new state, and a held write is applied. -/
def execDieTransitionDone (d : Nat) (s : State) : Out :=
  .next (
    let x := s.die d
    match x.target with
    | none => s
    | some t =>
      if 9 ≤ d ∨ !transitionReady s d t then s
      else
        let s1 := if t = 3 then dieOff s d else s
        let s2 := s1.setDie d { x with state := t, target := none, held := none }
        match x.held with
        | some r => reqWrite s2 d r
        | none => s2)

/-! ### Bays (R438) -/

/-- A bay has no work: no operation, descriptor, vector word or open block. -/
def bayQuiet (s : State) (b : Nat) : Bool :=
  (s.run (bayEng b) 0).isNone && (s.queue (bayEng b) 0).isEmpty && (s.vec b).q.isEmpty && (s.vec b).owner.isNone

/-- BAY_GATE (R438). -/
def execBayGate (b : Nat) (s : State) : Out :=
  .next (
    if b < 256 ∧ regGet s pwrPage 0x74 ≠ 0 ∧ (s.die (b / 32)).state ≤ 1 ∧ bayQuiet s b ∧ !s.gated.contains b
    then { s with gated := s.gated ++ [b] } else s)

/-- BAY_RESUME (R438): work has reached a gated bay. -/
def execBayResume (b : Nat) (s : State) : Out :=
  .next (if s.gated.contains b ∧ !bayQuiet s b then { s with gated := s.gated.filter (· != b) } else s)

/-! ### The governor (R441, R442) -/

/-- A ceiling moved toward a target by at most 4, within 8 to 64. -/
def moveCeil (c target : Nat) : Nat :=
  let t := max 8 (min 64 target)
  if c < t then min t (c + 4) else max t (c - 4)

/-- Sixty-four times the input power that is estimated at ceiling `d` (R441, R443), of which `scaled` watts scale with the duty, at 64, of the
bays that do not lend. -/
def govPower64 (s : State) (watts scaled d : Nat) : Int := 64 * (watts : Int) + scaled * ((d : Int) - s.ceil)

/-- The estimate keeps within PWR_LIMIT and within 110 A at the measured input voltage (R441). -/
def govMeets (s : State) (watts amps scaled d : Nat) : Bool :=
  let p := govPower64 s watts scaled d
  decide (p ≤ 64 * (regField s pwrPage 0x40 0 13 : Nat)) && decide (amps * p ≤ 110 * 64 * (watts : Int))

/-- The highest ceiling at which the estimate keeps its limits (R441); 8 if none does. -/
def govTarget (s : State) (watts amps scaled : Nat) : Nat :=
  (((List.range 57).map fun i => 64 - i).find? fun d => govMeets s watts amps scaled d).getD 8

/-- GOV_SAMPLE (R441, R444): one microsecond of the governor, with the power and current that it measures and the share `scaled` of its
estimate (log entry 92). A ceiling of 8 that still exceeds the limit is posted. A throttled die's own ceiling falls by 4, down to 8. -/
def execGovSample (watts amps scaled : Nat) (s : State) : Out :=
  .next (
    let c := moveCeil s.ceil (govTarget s watts amps scaled)
    let fall := fun (p : Nat × DiePower) => if p.2.thermal then (p.1, { p.2 with thermCeil := max 8 (p.2.thermCeil - 4) }) else p
    let s1 := { s with watts := watts % 8192, amps := amps % 256, ceil := c, dies := s.dies.map fall }
    if c = 8 ∧ !govMeets s watts amps scaled 8 then evt s1 pwrPage 1 else s1)

/-- OVERCURRENT (R442). -/
def execOvercurrent (s : State) : Out :=
  .next (
    let drop := fun (p : Nat × DiePower) => (p.1, { p.2 with thermCeil := min 32 p.2.thermCeil })
    let keep := fun (p : Nat × DiePower) => if p.2.thermal then drop p else p
    evt { s with ceil := min 32 s.ceil, dies := s.dies.map keep } pwrPage 0)

/-! ### Temperatures (R444, R445) -/

/-- THERMAL_WARN (R444): a junction at 95 °C throttles its die; a stack at 85 °C doubles its refresh, at 95 °C halves its bandwidth. -/
def execThermalWarn (n : Nat) (t : Int) (s : State) : Out :=
  .next (
    let x := s.sensor n
    if n < 9 ∧ degC 95 ≤ t then
      let s1 := s.setSensor n { x with temp := t, warn := true }
      let d := s1.die n
      evt (if d.thermal then s1 else s1.setDie n { d with thermal := true, thermCeil := s.ceil }) pwrPage 2
    else if 9 ≤ n ∧ n < 25 ∧ degC 85 ≤ t then
      let hot := decide (degC 95 ≤ t)
      let k := s.stack (n - 9)
      evt ((s.setSensor n { x with temp := t, warn := hot || x.warn }).setStack (n - 9) { k with hot := true, halved := hot || k.halved })
        pwrPage 2
    else s)

/-- THERMAL_THROTTLE_END (R444). -/
def execThermalThrottleEnd (n : Nat) (t : Int) (s : State) : Out :=
  .next (
    let x := s.sensor n
    if n < 9 ∧ t < degC 90 ∧ (s.die n).thermal then
      (s.setSensor n { x with temp := t, warn := false }).setDie n { s.die n with thermal := false, thermCeil := 64 }
    else if 9 ≤ n ∧ n < 25 ∧ t < degC 90 ∧ ((s.stack (n - 9)).hot ∨ (s.stack (n - 9)).halved) then
      let k := s.stack (n - 9)
      (s.setSensor n { x with temp := t, warn := false }).setStack (n - 9)
        { k with halved := false, hot := k.hot && decide (degC 85 ≤ t) }
    else s)

/-- Every saltern that is not OFF goes to OFF. -/
def tripSalterns (s : State) : State :=
  (List.range 8).foldl (fun s d =>
    let x := s.die d
    if x.state = 3 ∧ x.target = none then s else s.setDie d { x with req := 2, target := some 3, held := none }) s

/-- The feed of an optical engine is shut: its link or port group goes DOWN. -/
def shutEngine (s : State) (e : Nat) : State :=
  let s1 := { s with boot := { s.boot with shut := s.boot.shut.filter (· != e) ++ [e] } }
  if e < 12 then linkDown (s1.setLink e { s1.link e with light := false }) e 1 else groupDown s1 (e - 12)

/-- THERMAL_TRIP (R445). -/
def execThermalTrip (n : Nat) (t : Int) (s : State) : Out :=
  .next (
    let s1 := s.setSensor n { s.sensor n with temp := t, warn := decide (n < 25), tripped := true }
    if n < 9 ∧ degC 110 ≤ t then
      evt (chargeEvery (tripSalterns s1) cPwrThermalTrip noEng n true) pwrPage 3
    else if 9 ≤ n ∧ n < 25 ∧ degC 105 ≤ t then
      s1.setStack (n - 9) { s1.stack (n - 9) with fenceReq := true }
    else if 25 ≤ n ∧ n < 41 ∧ degC 80 ≤ t then shutEngine s1 (n - 25)
    else s)

end Sys2Proof.Machine
end

