-- ==== Sys2Proof/Machine/SalXfer.lean ====
section
/-! DEFINITION. The window, the transfers and the event queue of a salinometer page (05, R162 to R167). -/

namespace Sys2Proof.Machine

open Sys2Proof

def cSalXferAddr : Nat := 0x3001
def cSalImportHeader : Nat := 0x3002

/-! ### Access (R162) -/

/-- The context that a hart's access stands for: its binding, and for the warden the one that it names (R162). -/
def salCtx (s : State) (a : Acc) (named : Nat) : Option Nat :=
  match a with
  | .hart _ => if isWarden s a then some named else accCtx s a
  | _ => none

/-- An access by a hart to the window and transfer registers; PCIe functions are denied. -/
def salAccess (s : State) (a : Acc) (named : Nat) (f : Nat → State) : State :=
  if !accLive s a then s
  else match salCtx s a named with
    | some n => f n
    | none => denied s a

/-! ### The window (R159, R163) -/

/-- Word 0x08 of a record (R166). -/
def recWord8 (e : SalEntry) : Nat :=
  b2n (histValid e) + e.rung * 2 + e.policy * 8 + e.headroom * 32 + (e.histLen - 1) * 2 ^ 8 + e.hist.length * 2 ^ 12 +
    e.silentRun * 2 ^ 17

/-- Word 0x0C of a record (R166). -/
def recWordC (e : SalEntry) : Nat := e.zeroFrac + e.uflow * 2 ^ 8 + e.satSteps * 2 ^ 20 + e.satRun * 2 ^ 24

/-- SAL_WIN_EST: E, and C for target F4 at rung 0 (R151); C is 0 while the history is invalid. -/
def winEst (e : SalEntry) : Nat :=
  let m := histMax e.hist
  m + (if histValid e then (chooseScale fF4 (decodeFmt fBF16 m) e.headroom).toNat else 0) * 2 ^ 16

/-- The entry that the window follows (R159). -/
def winEntry (s : State) (d : Nat) : Option (Nat × SalEntry) :=
  match (s.sal d).window with
  | some k => (tfind (s.sal d).entries k).map fun e => (k, e)
  | none => none

/-- A LOOKUP loads the window (R163): it follows the entry from then on. -/
def loadWindow (s : State) (d k : Nat) : State := s.setSal d { s.sal d with window := some k, winW0 := none, winW1 := none }

/-- SAL_WIN0 (R163, R167): the entry's word 0x08, with POLICY, HEADROOM and HIST_LEN_M1 as they were written since the LOOKUP. -/
def winWord0 (s : State) (d : Nat) : Nat :=
  let n := match winEntry s d with | some (_, e) => recWord8 e | none => 0
  match (s.sal d).winW0 with
  | some w => setBits (setBits n 3 5 (bits w 3 5)) 8 4 (bits w 8 4)
  | none => n

/-- SAL_WIN1 (R163, R167): the entry's word 0x0C, with ZERO_FRAC, UNDERFLOW_STEPS and SAT_STEPS as they were written since. -/
def winWord1 (s : State) (d : Nat) : Nat :=
  let n := match winEntry s d with | some (_, e) => recWordC e | none => 0
  match (s.sal d).winW1 with
  | some w => setBits n 0 24 (bits w 0 24)
  | none => n

/-- A write of SAL_WIN1: UNDERFLOW_STEPS 0 stores 1 (R156). A ZERO_FRAC of 0 is kept (log entry 78). -/
def winWrite1 (s : State) (d : Nat) (v : Word) : State :=
  s.setSal d { s.sal d with winW1 := some (if bits v.toNat 8 12 = 0 then setBits v.toNat 8 12 1 else v.toNat) }

/-- The settings that a STAGE takes from the window. -/
def winStaged (s : State) (d : Nat) : SalStaged :=
  let w0 := winWord0 s d
  let w1 := winWord1 s d
  { headroom := bits w0 5 3, histLen := bits w0 8 4 + 1, policy := bits w0 3 2, zeroFrac := bits w1 0 8, uflow := bits w1 8 12,
    satSteps := bits w1 20 4 }

/-- Replace an entry. -/
def putEntry (s : State) (d k : Nat) (e : SalEntry) : State := s.setSal d { s.sal d with entries := tput (s.sal d).entries k e }

/-- Remove the entries that satisfy a test; a window that shows one of them reads 0 from then on (R159). -/
def freeEntries (x : Sal) (p : Nat → Bool) : Sal :=
  if x.window.any p then { x with entries := x.entries.filter fun e => !p e.1, window := none, winW0 := none, winW1 := none }
  else { x with entries := x.entries.filter fun e => !p e.1 }

/-- A command on a found entry (R163). -/
def salCommand (s : State) (d k code : Nat) (e : SalEntry) : State :=
  match code with
  | 1 => loadWindow s d k
  | 2 => putEntry s d k { e with staged := some (winStaged s d) }
  | 3 => putEntry s d k { e with invalidate := true }
  | 4 => putEntry s d k { e with clearRung := true }
  | _ => s.setSal d (freeEntries (s.sal d) fun x => x == k)

/-- A write of SAL_CMD (R162, R163): CTX is stored; a command while BUSY, and codes 0, 6 and 7, are ignored. -/
def salCmdWrite (s : State) (a : Acc) (d : Nat) (v : Word) : State :=
  salAccess s a (bits v.toNat 0 6) fun n =>
    let s1 := regSet s (salPage d) 0x50 0 6 n
    let code := bits v.toNat 8 3
    if (s.sal d).xfer.isSome ∨ code = 0 ∨ 5 < code then s1
    else
      let tid := regGet s (salPage d) 0x4C
      let k := salKey n tid.toNat
      match if salHome tid = d then tfind (s.sal d).entries k else none with
      | none => regSet s1 (salPage d) 0x50 16 1 0
      | some e => salCommand (regSet s1 (salPage d) 0x50 16 1 1) d k code e

/-- A write of SAL_CMD that carries a given command. -/
def salRow (code : Nat) (a : Acc) (d : Nat) (v : Word) (s : State) : Out :=
  .next (if d < 8 ∧ bits v.toNat 8 3 = code then salCmdWrite s a d v else s)

/-- LOOKUP (R163). -/
def execLookup (a : Acc) (d : Nat) (v : Word) (s : State) : Out := salRow 1 a d v s

/-- STAGE (R163). -/
def execSalStage (a : Acc) (d : Nat) (v : Word) (s : State) : Out := salRow 2 a d v s

/-- INVALIDATE (R163). -/
def execInvalidate (a : Acc) (d : Nat) (v : Word) (s : State) : Out := salRow 3 a d v s

/-- CLEAR_RUNG (R163). -/
def execClearRung (a : Acc) (d : Nat) (v : Word) (s : State) : Out := salRow 4 a d v s

/-- FREE (R163). -/
def execSalFree (a : Acc) (d : Nat) (v : Word) (s : State) : Out := salRow 5 a d v s

/-! ### Export and import (R164 to R166) -/

/-- The state of a salinometer transfer: running, with the records written or loaded. -/
def xferStat (s : State) (d st recs : Nat) : State := regPut s (salPage d) 0xB4 (BitVec.ofNat 32 (st + recs * 2 ^ 16))

/-- Append the CRC-32C of a 60-byte block. -/
def withCrc (bs : List Byte) : List Byte := bs ++ toLE 4 (crc32c bs).toNat

/-- The 64 bytes of a record (R166). -/
def recordOf (tid : Nat) (e : SalEntry) : List Byte :=
  withCrc (toLE 4 tid ++ toLE 4 e.step.toNat ++ toLE 4 (recWord8 e) ++ toLE 4 (recWordC e) ++
    (padTo 0 16 e.hist).flatMap (fun h => toLE 2 h.toNat) ++ toLE 12 0)

/-- The header of a block (R166). -/
def blockHeader (d n : Nat) : List Byte := withCrc (toLE 4 (1 + d * 2 ^ 16) ++ toLE 4 n ++ toLE 52 0)

/-- The entries of a context at a salinometer, in ascending tensor id. -/
def entriesOf (s : State) (d n : Nat) : Tbl SalEntry := (s.sal d).entries.filter fun e => e.1 / 2 ^ 32 == n

/-- Close the step of each entry, in order: its counter, its events, its next step (R164). -/
def closeAll (s : State) (d n : Nat) : State :=
  (entriesOf s d n).foldl (fun s x =>
    let (e1, v) := closeStep x.2 (x.2.step + 1)
    bump (salEvents (putEntry s d x.1 e1) d n (BitVec.ofNat 32 x.1) v) (salPage d) 1 1) s

/-- Start a transfer: it is running until XFER_DONE, and fails there when `ok` is false. -/
def xferStart (s : State) (d n recs : Nat) (ok : Bool) : State :=
  let c := (regGet s (salPage d) 0xB0).toNat
  xferStat (s.setSal d { s.sal d with xfer := some (n, ok), xferSig := if bit c 1 then some (bits c 2 14) else none }) d 1 recs

/-- A transfer that fails, with its address in the INFO words (R167). -/
def xferFail (s : State) (d n code addr : Nat) : State :=
  xferStart (pageErr s (salPage d) code (addr % 2 ^ 32) (addr / 2 ^ 32)) d n 0 false

/-- An export (R164). -/
def salExport (s : State) (d n addr : Nat) : State :=
  let len := 64 + 64 * (entriesOf s d n).length
  if addr % 64 ≠ 0 ∨ extCheck s n [{ addr := addr, len := len, write := true }] ≠ 0 then xferFail s d n cSalXferAddr addr
  else
    let s1 := closeAll s d n
    let es := entriesOf s1 d n
    xferStart (netStore (s1.crossMem d addr len) addr (blockHeader d es.length ++ es.flatMap fun x => recordOf (x.1 % 2 ^ 32) x.2))
      d n es.length true

/-- An import skips a record (R165); RUNG 3 is reserved and is skipped as well. -/
def recordBad (d : Nat) (r : List Byte) : Bool :=
  let w8 := fieldLE r 8 4
  let wC := fieldLE r 0xC 4
  let hs := (List.range (bits w8 12 5)).map fun i => fieldLE r (0x10 + 2 * i) 2
  crc32c (r.take 60) != BitVec.ofNat 32 (fieldLE r 0x3C 4) || fieldLE r 0 4 % 8 != d || bits w8 29 3 != 0 || bits wC 28 4 != 0 ||
    bits w8 1 2 == 3 || fieldLE r 0x30 12 != 0 || decide (bits w8 8 4 + 1 < bits w8 12 5) || hs.any fun h => decide (0x7F80 ≤ h)

/-- The entry of a record: SAT_STEPS 0 holds SAT_RUN at 0 (R153). -/
def recordEntry (r : List Byte) : SalEntry :=
  let w8 := fieldLE r 8 4
  let wC := fieldLE r 0xC 4
  { step := BitVec.ofNat 32 (fieldLE r 4 4), hist := (List.range (bits w8 12 5)).map fun i => BitVec.ofNat 16 (fieldLE r (0x10 + 2 * i) 2),
    headroom := bits w8 5 3, histLen := bits w8 8 4 + 1, policy := bits w8 3 2, zeroFrac := bits wC 0 8, uflow := bits wC 8 12,
    satSteps := bits wC 20 4, rung := bits w8 1 2, silentRun := bits w8 17 12, satRun := if bits wC 20 4 = 0 then 0 else bits wC 24 4 }

/-- Load the records: the entries, the records loaded, and the tensor ids of those skipped, in order. -/
def importAll (d n : Nat) : List (List Byte) → Tbl SalEntry → Nat → List Nat → Tbl SalEntry × Nat × List Nat
  | [], t, k, sk => (t, k, sk)
  | r :: rs, t, k, sk =>
    let tid := fieldLE r 0 4
    let key := salKey n tid
    if recordBad d r ∨ ((tfind t key).isNone ∧ 16384 ≤ t.length) then importAll d n rs t k (sk ++ [tid])
    else importAll d n rs (tput t key (recordEntry r)) (k + 1) sk

/-- An import (R165): the header first, then the records. -/
def salImport (s : State) (d n addr : Nat) : State :=
  if addr % 64 ≠ 0 ∨ extCheck s n [{ addr := addr, len := 64, write := false }] ≠ 0 then xferFail s d n cSalXferAddr addr
  else
    let h := load s addr 64
    let recs := fieldLE h 4 4
    if fieldLE h 0 2 ≠ 1 ∨ bits (fieldLE h 0 4) 16 4 ≠ d ∨ 16384 < recs ∨ crc32c (h.take 60) ≠ BitVec.ofNat 32 (fieldLE h 0x3C 4) then
      xferFail s d n cSalImportHeader addr
    else if extCheck s n [{ addr := addr, len := 64 + 64 * recs, write := false }] ≠ 0 then xferFail s d n cSalXferAddr addr
    else
      let s0 := s.crossMem d addr (64 + 64 * recs)
      let s1 := s0.setSal d (freeEntries (s.sal d) fun k => k / 2 ^ 32 == n)
      let (t, k, sk) := importAll d n ((List.range recs).map fun i => load s (addr + 64 + 64 * i) 64) (s1.sal d).entries 0 []
      let s2 := regPut (s1.setSal d { s1.sal d with entries := t }) (salPage d) 0xB8 (BitVec.ofNat 32 sk.length)
      let s3 := match sk with
        | tid :: _ => salEvent s2 d n 4 (BitVec.ofNat 32 tid)
        | [] => s2
      xferStart s3 d n k true

/-- A write of SAL_XFER_CTL (R162, R164): GO starts a transfer of the hart's context, and for the warden of SAL_CMD.CTX. GO is
ignored while a transfer runs. -/
def salXferWrite (s : State) (a : Acc) (d : Nat) (v : Word) : State :=
  salAccess s a (regField s (salPage d) 0x50 0 6) fun n =>
    let s1 := plainWrite s (salPage d) 0xB0 v
    let addr := (regGet s (salPage d) 0xA8).toNat + (regGet s (salPage d) 0xAC).toNat * 2 ^ 32
    if !bit v.toNat 16 ∨ (s.sal d).xfer.isSome then s1
    else if bit v.toNat 0 then salImport s1 d n addr else salExport s1 d n addr

/-- SAL_EXPORT (R164). -/
def execSalExport (a : Acc) (d : Nat) (v : Word) (s : State) : Out :=
  .next (if d < 8 ∧ bit v.toNat 16 ∧ !bit v.toNat 0 then salXferWrite s a d v else s)

/-- SAL_IMPORT (R165). -/
def execSalImport (a : Acc) (d : Nat) (v : Word) (s : State) : Out :=
  .next (if d < 8 ∧ bit v.toNat 16 ∧ bit v.toNat 0 then salXferWrite s a d v else s)

/-- Set a flag of a context for a block that is no engine: a refused signal posts SIG_REJECT (R273). -/
def raiseFlag (s : State) (n vid : Nat) : State :=
  if vidClass vid ≠ 0 then sigReject (if vidClass vid = 3 then nameFault s n vid else s) n noEng 0
  else settle (s, [.raise { eng := noEng, op := 0xF0 } n vid 0 noEng 0])

/-- XFER_DONE (R164, R167): the state, the event, and the flag on completion or failure. -/
def execXferDone (d : Nat) (s : State) : Out :=
  .next (
    let x := s.sal d
    match x.xfer with
    | none => s
    | some (n, ok) =>
      let s1 := s.setSal d { x with xfer := none, xferSig := none }
      let s2 := evt (regSet s1 (salPage d) 0xB4 0 2 (if ok then 2 else 3)) (salPage d) 4
      match x.xferSig with
      | some vid => raiseFlag s2 n vid
      | none => s2)

/-! ### The event queue and the counters of the page -/

/-- A read of SAL_EVQ_LO by the warden (R161, R167): the head event leaves; its other fields are captured into SAL_EVQ_HI. -/
def salEvqRead (s : State) (a : Acc) (d : Nat) : State :=
  if !isWarden s a then deniedRead s a
  else match (s.sal d).evq with
    | [] => setRead (regPut s (salPage d) 0xA4 0) a 0
    | e :: rest =>
      let s1 := s.setSal d { s.sal d with evq := rest }
      setRead (regPut s1 (salPage d) 0xA4 (BitVec.ofNat 32 (e.ctx + e.code * 2 ^ 8 + 2 ^ 31))) a e.info

/-- SAL_EVQ_READ (R161). -/
def execSalEvqRead (a : Acc) (d : Nat) (s : State) : Out := .next (if d < 8 ∧ accLive s a then salEvqRead s a d else s)

/-- A read of SAL_WIN_CNT_LO (R141, R159): the counter that SEL names of the entry in the window; 0 for none. -/
def winCounter (s : State) (a : Acc) (d : Nat) : State :=
  let sel := regField s (salPage d) 0x64 0 3
  match winEntry s d with
  | some (k, e) =>
    let c := tget 0 e.cnt sel
    let s1 := if sel < 6 then putEntry s d k { e with cnt := tdel e.cnt sel } else s
    setRead (regPut s1 (salPage d) 0x6C (BitVec.ofNat 32 (c / 2 ^ 32))) a (BitVec.ofNat 32 c)
  | none => setRead (regPut s (salPage d) 0x6C 0) a 0

end Sys2Proof.Machine
end

