-- ==== Sys2Proof/Machine/Time.lean ====
section
/-! DEFINITION. Time bases, rates and steps, TB3, trigger comparators, pins and captures (14). -/

namespace Sys2Proof.Machine

open Sys2Proof

def cTimeStepRefused : Nat := 0xA001
def cTimeSrcBad : Nat := 0xA002
def cTimeTrigRefused : Nat := 0xA004

/-! ### Accessors -/

def TimeUnit.trig (t : TimeUnit) (i : Nat) : Trig := tget {} t.trigs i
def TimeUnit.setTrig (t : TimeUnit) (i : Nat) (v : Trig) : TimeUnit := { t with trigs := tset {} t.trigs i v }
def TimeUnit.reader (t : TimeUnit) (a : Acc) : TimeReader := tget {} t.readers (accKey a)
def TimeUnit.setReader (t : TimeUnit) (a : Acc) (v : TimeReader) : TimeUnit := { t with readers := tset {} t.readers (accKey a) v }

/-- VALID_A or VALID_B of a base (R423). -/
def baseValid (s : State) (k : Nat) : Bool := (k == 1 || k == 2) && bit (regGet s timePage 0x54).toNat (15 + k)

/-- SRC of TB3 (R424). -/
def tb3Src (s : State) : Nat := regField s timePage 0x58 0 2

/-- Write ERR_CODE of the time page; the spec names no INFO words here (log entry 27). -/
def timeErr (s : State) (code : Nat) : State := pageErrOpen s timePage code

/-! ### Counting (R414, R424, R425) -/

/-- Advance TB0, TB1 or TB2 by one tick. -/
def tickBase (t : TimeUnit) (k : Nat) : TimeUnit :=
  let t1 := t.setBase k ((t.base k).advance (tickUnits + rateOf t k))
  if k = 0 then t1 else t1.setSt k { t.st k with slewTicks := (t.st k).slewTicks - 1 }

/-- The steering term of R425 in units of 2^−32 ns. -/
def slewUnits (ppm : Nat) : Int := ((ppm * 2 * 2 ^ 32 + 500000) / 1000000 : Nat)

/-- TB3 after a tick that follows its active base (R425): the base, and whether it slews on. `a` and `a1` are the active base
before and after the tick. -/
def tickTb3 (t3 a a1 : TimeBase) (rate : Int) (ppm : Nat) : TimeBase × Bool :=
  let o := t3.units - a.units
  if o = 0 then (a1, false)
  else
    let term := if 0 < o then -slewUnits ppm else slewUnits ppm
    let x := t3.advance (tickUnits + clampRate (rate + term))
    let o1 := x.units - a1.units
    if (0 < o ∧ o1 ≤ 0) ∨ (o < 0 ∧ 0 ≤ o1) then (a1, false) else (x, true)

/-- The bases after a tick (R414, R424, R425): every base counts; TB3 follows TB0 until it adopts SRC, then its active base; pulses run
on. -/
def tickBases (s : State) : State :=
  let t := s.time
  let t1 := tickBase (tickBase (tickBase t 0) 1) 2
  let t2 := { t1 with pins := (t1.pins.map fun (p : Nat × Nat) => (p.1, p.2 - 2)).filter fun p => p.2 != 0 }
  if !t.stepped then
    let k := tb3Src s
    if baseValid s k then s.setTime { t2.setBase 3 (t2.base k) with stepped := true, active := k, slewing := false }
    else s.setTime (t2.setBase 3 (t2.base 0))
  else
    let k := t.active
    let (x, on) := tickTb3 (t.base 3) (t.base k) (t2.base k) (rateOf t k) (regField s timePage 0x58 16 9)
    let s1 := s.setTime { t2.setBase 3 x with slewing := on }
    if t.slewing && !on then evt s1 timePage 1 else s1

/-- The time of a comparator, and TB3, in nanoseconds. -/
def Trig.at (g : Trig) : Nat := g.sec.toNat * 1000000000 + g.ns
def tb3Ns (s : State) : Nat := s.tb3.sec.toNat * 1000000000 + s.tb3.ns

/-- A bit of TIME_TRIG_CTL. -/
def Trig.has (g : Trig) (i : Nat) : Bool := bit g.ctl.toNat i
def Trig.set (g : Trig) (lo w v : Nat) : Trig := { g with ctl := BitVec.ofNat 32 (setBits g.ctl.toNat lo w v) }

/-- The context that a comparator acts for; one that is not assigned is the warden's. -/
def Trig.ctx (g : Trig) : Nat := g.owner.getD 0

/-- The owner is bound to a job whose TIME_OK is 0 (R428). -/
def trigUntimed (s : State) (g : Trig) : Bool :=
  match jobOf s g.ctx with
  | some j => !(s.jobSlot j).timeOk
  | none => false

/-- An armed comparator has its firing tick (R427, R428): TB3 is at or beyond AT, or its owner has no common time. -/
def trigDue (s : State) (i : Nat) : Bool :=
  let g := s.time.trig i
  g.has 0 && (decide (g.at ≤ tb3Ns s) || trigUntimed s g) && !s.time.due.contains i

/-- The comparators whose firing tick this is are to issue, in ascending order (R427). -/
def latchDue (s : State) : State := s.setTime { s.time with due := s.time.due ++ (List.range 16).filter (trigDue s) }

/-- TIME_TICK (R414, R427). -/
def execTimeTick (s : State) : Out := .next (if s.time.running then latchDue (tickBases s) else s)

/-! ### Reading (R416) -/

/-- A read of TIME_RD_NS (R416). -/
def readTime (s : State) (a : Acc) : State :=
  let r := s.time.reader a
  let b := s.time.base r.base
  setRead (s.setTime (s.time.setReader a { r with held := b })) a (BitVec.ofNat 32 b.ns)

/-- TIME_RD_NS (R416). -/
def execTimeRdNs (a : Acc) (s : State) : Out := .next (if accLive s a then readTime s a else s)

/-! ### Rates and steps (R417, R418) -/

/-- The base that TIME_ADJ_SEL names (R417). -/
def adjBase (s : State) : Nat := regField s timePage 0x60 0 2

/-- The base named can be adjusted. -/
def adjustable (k : Nat) : Bool := k == 1 || k == 2

/-- Change the steering of the selected base. -/
def adjust (s : State) (f : Steer → Steer) : State :=
  let k := adjBase s
  if adjustable k then s.setTime (s.time.setSt k (f (s.time.st k))) else s

/-- A write of the time page by the warden. -/
def timeWrite (a : Acc) (f : State → State) (s : State) : Out := .next (if accLive s a then wardenOnly s a f else s)

/-- A write of TIME_RATE (R417): stored within its limits. -/
def rateWrite (v : Word) (s : State) : State := adjust s fun x => { x with rate := clampRate v.toInt }

/-- TIME_RATE (R417). -/
def execTimeRate (a : Acc) (v : Word) (s : State) : Out := timeWrite a (rateWrite v) s

/-- A write of TIME_SLEW_TICKS (R417): it replaces the ticks that remain. -/
def slewWrite (v : Word) (s : State) : State := adjust s fun x => { x with slewTicks := v.toNat }

/-- TIME_SLEW_TICKS (R417). -/
def execTimeSlewTicks (a : Acc) (v : Word) (s : State) : Out := timeWrite a (slewWrite v) s

/-- A write of TIME_STEP_HI (R418): the selected base moves by the signed count of nanoseconds once, or the step is refused. -/
def stepWrite (v : Word) (s0 : State) : State :=
  let s := regPut s0 timePage 0x74 v
  let k := adjBase s
  let b := s.time.base k
  let n : Int := (b.sec.toNat * 1000000000 + b.ns : Nat) + (v ++ regGet s timePage 0x70).toInt
  if !adjustable k ∨ (s.time.st k).stepped ∨ n < 0 ∨ (2 ^ 48 * 1000000000 : Int) ≤ n then timeErr s cTimeStepRefused
  else
    let m := n.toNat
    let t := s.time.setBase k { b with sec := BitVec.ofNat 48 (m / 1000000000), ns := m % 1000000000 }
    s.setTime (t.setSt k { t.st k with stepped := true })

/-- TIME_STEP_HI (R418). -/
def execTimeStepHi (a : Acc) (v : Word) (s : State) : Out := timeWrite a (stepWrite v) s

/-- A write of TIME_ADJ_STAT (R418): REOPEN clears STEPPED of a base that TB3 does not follow; otherwise, and with a base selected that
has no step, it is refused. -/
def reopenWrite (v : Word) (s : State) : State :=
  let k := adjBase s
  if !bit v.toNat 31 then s
  else if !adjustable k ∨ (s.time.stepped ∧ s.time.active = k) then timeErr s cTimeStepRefused
  else adjust s fun x => { x with stepped := false }

/-- TIME_REOPEN (R418). -/
def execTimeReopen (a : Acc) (v : Word) (s : State) : Out := timeWrite a (reopenWrite v) s

/-! ### Two domains (R423 to R425) -/

/-- TB3 moves to a base (R424, R425): it slews to it while the two differ; DOM_MOVE is posted when the base changes. -/
def moveTo (s : State) (k : Nat) : State :=
  let t := s.time
  let s1 := s.setTime { t with active := k, move := none, slewing := decide ((t.base 3).units ≠ (t.base k).units) }
  if t.active = k then s1 else evt s1 timePage 0

/-- A move asked for by a write happens once its base reads VALID. -/
def tryMove (s : State) : State :=
  match s.time.move with
  | some k => if baseValid s k then moveTo s k else s
  | none => s

/-- A write of TIME_DOM (R423, R424): equal numbers are refused; a domain that loses VALID may hand over to the other. -/
def domWrite (v : Word) (s : State) : State :=
  let n := v.toNat
  if bits n 0 8 = bits n 8 8 then timeErr s cTimeSrcBad
  else
    let s1 := plainWrite s timePage 0x54 v
    let k := s.time.active
    let fell := baseValid s k && !baseValid s1 k
    let s2 := if s.time.stepped ∧ fell ∧ bit n 18 ∧ baseValid s1 (3 - k) then moveTo s1 (3 - k) else s1
    tryMove s2

/-- TIME_DOM (R423). -/
def execTimeDom (a : Acc) (v : Word) (s : State) : Out := timeWrite a (domWrite v) s

/-- A write of TIME_TB3_CFG (R424): SRC 3, and 0 after the step, are refused; after the step a write asks for a move. -/
def tb3Write (v : Word) (s : State) : State :=
  let n := v.toNat
  let src := bits n 0 2
  let ppm := bits n 16 9
  if src = 3 ∨ (src = 0 ∧ s.time.stepped) then timeErr s cTimeSrcBad
  else
    let s1 := regPut s timePage 0x58 (BitVec.ofNat 32 (src + (if ppm = 0 then 1 else if 400 < ppm then 400 else ppm) * 2 ^ 16))
    if s.time.stepped then tryMove (s1.setTime { s1.time with move := some src }) else s1

/-- TIME_TB3_CFG (R424). -/
def execTimeTb3Cfg (a : Acc) (v : Word) (s : State) : Out := timeWrite a (tb3Write v) s

/-! ### Comparators (R426 to R429) -/

/-- Replace a comparator. -/
def putTrig (s : State) (i : Nat) (g : Trig) : State := s.setTime (s.time.setTrig i g)

/-- A refused action (R427): the comparator disarms with FAULT, and the code goes to the INFO words. -/
def trigFault (s : State) (i code : Nat) : State :=
  let g := s.time.trig i
  evt (pageErr (putTrig s i ((g.set 0 1 0).set 12 1 1)) timePage cTimeTrigRefused i code) timePage 3

/-- Raise the signal of a comparator for a context: participant 560 for a barrier (R426). An identifier of class 0b11 maps nothing (R9). -/
def trigSignal (s : State) (i n vid mode : Nat) : State :=
  if vidClass vid ≠ 3 ∧ vidClass vid ≠ modeClass mode then trigFault s i cSyncBadOp
  else
    let (s1, st, w) := applySig s n vid mode { eng := 0x830, op := 0xF0 + mode, part := 560 }
    settle (if st = 0 then s1 else trigFault s1 i st, w)

/-- SIG_ID and SIG_MODE of a comparator. -/
def Trig.sigId (g : Trig) : Nat := bits g.ctl.toNat 16 14
def Trig.sigMode (g : Trig) : Nat := bits g.ctl.toNat 3 2

/-- The code that refuses the write of a comparator (R426, R427), 0 for none. -/
def trigWriteCode (s : State) (g : Trig) : Nat :=
  let c := extCheck s g.ctx [{ addr := g.addr.toNat, len := 8, write := true }]
  match rangeOf g.addr.toNat with
  | .stack _ | .hubSram => c
  | _ => if c = 0 then cMemAccess else c

/-- What a comparator does on firing, its owner not being ABORTED. -/
def trigAct (s : State) (i : Nat) : State :=
  let g := s.time.trig i
  match bits g.ctl.toNat 1 2 with
  | 0 => trigSignal s i g.ctx g.sigId g.sigMode
  | 1 =>
    let c := trigWriteCode s g
    if c = 0 then
      store ((putTrig s i { g with pend := g.pend ++ [(g.ctx, g.sigId, g.sigMode)] }).crossMem 8 g.addr.toNat 8) g.addr.toNat
        (toLE 8 g.value.toNat)
    else trigFault s i c
  | _ => s

/-- Pulse the pins that a comparator names (R429): pulses on one pin combine as OR. -/
def pulse (s : State) (pins : Nat) : State :=
  (List.range 4).foldl (fun s p =>
    let c := (regGet s timePage (0xAC + 4 * p)).toNat
    if bit pins p ∧ bit c 31 then s.setTime { s.time with pins := tput s.time.pins p (max (tget 0 s.time.pins p) (bits c 0 20)) }
    else s) s

/-- AT advanced by whole periods: by one, and on to the first value beyond `now` (R427). -/
def nextAt (at_ period now : Nat) : Nat := if now < at_ + period then at_ + period else at_ + (now - at_) / period * period + period

/-- Set AT from nanoseconds. -/
def Trig.setAt (g : Trig) (n : Nat) : Trig := { g with sec := BitVec.ofNat 48 (n / 1000000000), ns := n % 1000000000 }

/-- A comparator fires (R427, R428): pins, action, then it disarms or advances. -/
def fireTrig (s : State) (i : Nat) : State :=
  let g := s.time.trig i
  let u := trigUntimed s g
  let supp := (s.ctx g.ctx).st == .aborted
  let now := tb3Ns s
  let again := g.period != 0 && !u
  let skip := again && decide (g.at + g.period ≤ now)
  let g1 := (if g.overdue then g.set 9 1 1 else g)
  let g2 := (if u then g1.set 10 1 1 else g1)
  let g3 := (if supp then g2.set 11 1 1 else g2)
  let g4 := if again then { g3.setAt (nextAt g.at g.period now) with overdue := false } else { g3.set 0 1 0 with overdue := false }
  let late := b2n g.overdue + b2n skip
  let s1 := bump (wakeDie (putTrig s i g4) 8) timePage 1 1
  let s2 := if late = 0 then s1 else evt (bump s1 timePage 2 late) timePage 2
  let s3 := pulse s2 (bits g.ctl.toNat 5 4)
  if supp then s3 else trigAct s3 i

/-- TRIG_FIRE (R427): the next comparator whose firing tick has come fires, in the order of their ticks and, within one, of their numbers. -/
def execTrigFire (i : Nat) (s : State) : Out :=
  .next (
    match s.time.due with
    | k :: rest => if i = k then fireTrig (s.setTime { s.time with due := rest }) i else s
    | [] => s)

/-- TRIG_WRITE_ACK (R426): the oldest write of a comparator is acknowledged, and its SIG_ID is raised for the context that it was made
for. -/
def execTrigWriteAck (i : Nat) (s : State) : Out :=
  .next (
    let g := s.time.trig i
    match if i < 16 then g.pend else [] with
    | (n, vid, mode) :: rest => trigSignal (putTrig s i { g with pend := rest }) i n vid mode
    | [] => s)

/-- The fields of a comparator but ARM cannot be written (R427): it is armed, or its firing has not left yet. -/
def trigLocked (s : State) (i : Nat) : Bool := (s.time.trig i).has 0 || s.time.due.contains i

/-- The comparator that a reader has selected, and whether its registers are open to it (R426). -/
def trigOpen (s : State) (a : Acc) : Bool :=
  isWarden s a || (accCtx s a == (s.time.trig (s.time.reader a).trig).owner && (accCtx s a).isSome)

/-- A write of TIME_TRIG_CTL (R426 to R428): while ARM is 1 only ARM is taken, and a firing whose tick has come takes place all the same;
arming clears the status bits, and fires at once for an owner without common time. -/
def trigCtlWrite (s : State) (i : Nat) (v : Word) : State :=
  let g := s.time.trig i
  let n := v.toNat
  if trigLocked s i then (if bit n 0 then s else putTrig s i (g.set 0 1 0))
  else
    let g1 := ((g.set 1 8 (bits n 1 8)).set 16 14 (bits n 16 14))
    if !bit n 0 then putTrig s i g1
    else if bits n 1 2 = 3 then timeErr (putTrig s i g1) cTimeTrigRefused
    else
      let g2 := { (g1.set 9 4 0).set 0 1 1 with overdue := decide (g.at < tb3Ns s) }
      let s1 := putTrig s i g2
      if trigUntimed s1 g2 then fireTrig s1 i else s1

/-- An access to the trigger registers by the warden or the owner: other contexts' writes are ignored. -/
def trigAccess (s : State) (a : Acc) (f : State → Nat → State) : State :=
  if !accLive s a then s else if trigOpen s a then f s (s.time.reader a).trig else denied s a

/-- ARM (R427): a write of TIME_TRIG_CTL. -/
def execArm (a : Acc) (v : Word) (s : State) : Out := .next (trigAccess s a fun s i => trigCtlWrite s i v)

/-- A write of TIME_TRIG_OWN (R426), ignored while the comparator is armed (R427). -/
def trigOwnWrite (a : Acc) (v : Word) (s : State) : State :=
  let i := (s.time.reader a).trig
  if trigLocked s i then s
  else putTrig s i { s.time.trig i with owner := if bit v.toNat 31 then some (bits v.toNat 0 6) else none }

/-- TIME_TRIG_OWN (R426): the warden only. -/
def execTimeTrigOwn (a : Acc) (v : Word) (s : State) : Out := timeWrite a (trigOwnWrite a v) s

/-- The comparators of a context that enters RELEASING (R428). -/
def releaseTrigs (s : State) (n : Nat) : State :=
  s.setTime { s.time with due := s.time.due.filter (fun i => (s.time.trig i).owner != some n), trigs := (s.time.trigs.map fun p =>
    if p.2.owner = some n then (p.1, ({ p.2.set 0 1 0 with owner := none, overdue := false } : Trig)) else p).filter fun p => p.2 != {} }

/-! ### Captures (R430) and the stamp queue (R420) -/

/-- Capture into a slot: the four bases, or OVERRUN while the slot holds a capture. -/
def captureInto (s : State) (k : Nat) : State :=
  if bit (regGet s timePage 0xC0).toNat k then evt (bump (regSet s timePage 0xC0 (5 + k) 1 1) timePage 3 1) timePage 5
  else
    let t := s.time
    evt (regSet (s.setTime { t with caps := tput t.caps k ((List.range 4).map t.base) }) timePage 0xC0 k 1 1) timePage 4

/-- CAPTURE (R430): a rising edge on an input whose bit is set. -/
def execCapture (k : Nat) (s : State) : Out :=
  .next (if k < 4 ∧ bit (regGet s timePage 0xBC).toNat k then captureInto (wakeDie s 8) k else s)

/-- A write of TIME_CAP_CTL. -/
def capCtlWrite (v : Word) (s : State) : State :=
  let s1 := plainWrite s timePage 0xBC v
  if bit v.toNat 4 then captureInto s1 4 else s1

/-- SOFT_CAPTURE (R430). -/
def execSoftCapture (a : Acc) (v : Word) (s : State) : Out := timeWrite a (capCtlWrite v) s

/-- A read of TIME_SQ_W0 (R420): the head entry leaves, and its other words are captured. -/
def stampRead (s : State) (a : Acc) : State :=
  match s.time.stampq with
  | [] => setRead s a 0
  | w :: rest =>
    let s1 := s.setTime { s.time with stampq := rest }
    setRead ([1, 2, 3, 4].foldl (fun s i => regPut s timePage (0xD8 + 4 * i) (w.getD i 0)) s1) a (w.getD 0 0)

/-- TIME_SQ_W0 (R420). -/
def execTimeSqW0 (a : Acc) (s : State) : Out :=
  .next (if !accLive s a then s else if isWarden s a then stampRead s a else deniedRead s a)

end Sys2Proof.Machine
end

