-- ==== Sys2Proof/Machine/Ctxs.lean ====
section
/-! DEFINITION. The life of a context (R35, R36, R281): assignment of queues and harts, quotas, opening, starting, releasing, and the
zeroisation of its keys. -/

namespace Sys2Proof.Machine

open Sys2Proof

/-! ### Keys (R449, log entry 6) -/

/-- A memory key and a seal secret drawn now, as the numbers of their first draws: 512 and 256 bits, and no draw serves twice. The
number of a key is never 0, which stands for no key. -/
def newKeys (s : State) : Nat × Nat × State := (s.free + 1, s.free + 9, { s with free := s.free + 13 })

/-- A context with fresh keys. -/
def drawKeys (s : State) (n : Nat) : State :=
  let (k, j, s1) := newKeys s
  s1.setCtx n { s1.ctx n with memKey := some k, sealKey := some j, objCounter := 0 }

/-! ### Harts (R37, R45, R539) -/

/-- The hart of a control core that a CTX_SET item names (R2, R37): saltern cores only. -/
def itemHart (core hart : Nat) : Option Nat := if engKind core = .core then engHart core hart else none

/-- The bays whose slices hold the core memory of a hart. -/
def hartBays (h : Nat) : List Nat := [hartCore h / 16 * 32 + hartCore h % 16 * 2, hartCore h / 16 * 32 + hartCore h % 16 * 2 + 1]

/-- A fenced bay holds the core memory of a hart (R478, R503). -/
def hartFenced (s : State) (h : Nat) : Bool := decide (h < 256) && (hartBays h).any fun b => s.svc.bays.contains b

/-- The core of a hart is quiesced, by its CTL or for an update (R481, R495). -/
def coreQuiet (s : State) (h : Nat) : Bool :=
  quiescing s (pageOf 8 (hartCore h)) || (s.svc.updState == 1 && s.svc.updKind == 1 && s.svc.updAt == hartEng h)

/-- Bind a hart to a context: a status with which it is refused (R37, R478, R503), 0 when it is bound. A hart that was bound to none
starts on the context's program: what stopped it before is over. -/
def bindHart (s : State) (h n : Nat) : State × Nat :=
  let x := s.hart h
  if x.bound ∧ x.ctx ≠ n then (s, cNotAssigned)
  else if hartFenced s h then (s, cEngineFenced)
  else if x.bound then (s, 0)
  else (s.setHart h { x with bound := true, ctx := n, stopped := coreQuiet s h, trap := none, blocked := none,
                             was := if x.was.contains n then x.was else x.was ++ [n] }, 0)

/-- Unbind a hart (R539): it stops at its next instruction boundary, and gives up an instruction that it is blocked in. -/
def unbindHart (s : State) (h n : Nat) : State :=
  let s1 := dropWaiter s (.hart h)
  s1.setHart h { s1.hart h with bound := false, ctx := n, blocked := none }

/-! ### Queues (R45, R48, R140, R169) -/

/-- The state of a bay as it is assigned: vector state and counters start anew. -/
def freshBay (s : State) (b : Nat) : State :=
  clearCounters (clearCounters ((s.setVec b {}).setPan b {}) (pageOf 10 b)) (pageOf 11 b)

/-- Assign a queue to a context: a status with which it is refused (R48, R478, R503), 0 when it is assigned. In RUN and ABORTED the
queue takes its default grant at once (R45). -/
def assignQueue (s : State) (n e q : Nat) : State × Nat :=
  if engKind e = .invalid then (s, cBadEngine)
  else if queueCount e ≤ q then (s, cNotAssigned)
  else if engKind e = .bay ∧ s.svc.bays.contains (engBay e) then (s, cEngineFenced)
  else match s.ownerOf e q with
    | some m => if m = n then (s, 0) else (s, cNotAssigned)
    | none =>
      let s1 : State :=
        if engKind e = .fabric then assignFabric s (e % 256) (some n)
        else
          let s0 := if engKind e = .bay then freshBay s (engBay e) else s
          { s0 with owner := tput s0.owner (e * 4 + q) n }
      (if (s1.ctx n).st = .run ∨ (s1.ctx n).st = .aborted then fixGrants s1 n e q else s1, 0)

/-- The queues of a context: keys engine × 4 + queue. -/
def ctxQueues (s : State) (n : Nat) : List Nat := (s.owner.filter fun p => p.2 == n).map (·.1)

/-- An explicit grant (R45): the queue is the context's, the hart is bound to it, and the counts of a queue total at most its depth. -/
def setGrant (s : State) (n e q h count : Nat) : State × Nat :=
  let mine := s.explicit.filter fun p => p.1 / 258 == e * 4 + q && p.1 != grantKey e q h
  let total := (mine.map (·.2)).sum + count
  if s.ownerOf e q ≠ some n ∨ !(boundHarts s n).contains h ∨ count = 0 ∨ queueDepth e < total then (s, cNotAssigned)
  else ({ s with explicit := tput s.explicit (grantKey e q h) count }, 0)

/-! ### Quotas (R55) -/

/-- A quota is set, or refused with NOT_ASSIGNED: the sum over the contexts stays at most 1,024, and context 0 holds at least 32. -/
def quotaWrite (s : State) (n d q : Nat) : State × Nat :=
  let others := ((List.range 64).filter (· != n)).map fun m => quotaOf s m d
  if 1024 < others.sum + q ∨ (n = 0 ∧ q < 32) then (s, cNotAssigned) else (setQuota s n d q, 0)

/-- CC_CTX_TAGQ (R55). -/
def execCcCtxTagq (a : Acc) (n d : Nat) (v : Word) (s : State) : Out :=
  .next (wardenOnly s a fun s => if n < 64 ∧ d < 8 then (quotaWrite s n d (bits v.toNat 0 11)).1 else s)

/-- A write of CC_HARTn_CTX (R37, R508, R539), with the checks of binding; the warden cores' registers do not take it. -/
def hartCtxWrite (s : State) (inst hart : Nat) (v : Word) : State :=
  if 128 ≤ inst ∨ 2 ≤ hart then s
  else
    let h := inst * 2 + hart
    if bit v.toNat 31 then (bindHart s h (bits v.toNat 0 6)).1
    else unbindHart s h (bits v.toNat 0 6)

/-- CC_HART_CTX (R539). -/
def execCcHartCtx (a : Acc) (inst hart : Nat) (v : Word) (s : State) : Out :=
  .next (wardenOnly s a fun s => hartCtxWrite s inst hart v)

/-! ### Opening and starting (R35, R45, R96) -/

/-- FREE to BUILDING: the keys are drawn. The event queue starts empty (log entry 32). -/
def openCtx (s : State) (n : Nat) : State :=
  let c := s.ctx n
  drawKeys (s.setCtx n { c with st := .building, events := [], evDropped := 0 }) n

/-- BUILDING to RUN: the grants are fixed, and a seed is drawn where the owner gave none. -/
def startCtx (s : State) (n : Nat) : State :=
  let s1 := (ctxQueues s n).foldl (fun s k => fixGrants s n (k / 4) (k % 4)) s
  let c := s1.ctx n
  match c.seed with
  | some _ => s1.setCtx n { c with st := .run }
  | none =>
    let (d, s2) := drawFree s1
    s2.setCtx n { c with st := .run, seed := some d }

/-! ### Releasing (R36, R149, R428) -/

/-- Every salinometer frees what it holds of a context (R149). -/
def releaseSals (s : State) (n : Nat) : State :=
  { s with sals := tmap {} (fun _ x =>
      { x with entries := x.entries.filter fun p => p.1 / 2 ^ 32 != n,
               cache := x.cache.filter fun c => c.key / 2 ^ 32 != n,
               reqs := x.reqs.filter fun r => r.ctx != n,
               corr := x.corr.filter fun r => r.ctx != n,
               obs := x.obs.filter fun o => o.ctx != n,
               evq := x.evq.filter fun e => e.ctx != n,
               window := if x.window.map (· / 2 ^ 32) = some n then none else x.window,
               winW0 := if x.window.map (· / 2 ^ 32) = some n then none else x.winW0,
               winW1 := if x.window.map (· / 2 ^ 32) = some n then none else x.winW1,
               xfer := if x.xfer.map (·.1) = some n then none else x.xfer,
               xferSig := if x.xfer.map (·.1) = some n then none else x.xferSig }) s.sals }

/-- An open block that no trailer will close is dropped: its hart has stopped. -/
def dropOpenBlocks (s : State) (n : Nat) : State :=
  (ctxBays s n).foldl (fun s b =>
    let v := s.vec b
    if (closedOps v.q).isEmpty then s.setVec b { v with q := [], owner := none, words := 0, held := false, stop := 0 } else s) s

/-- The harts of a context stop. -/
def stopHarts (s : State) (n : Nat) : State :=
  (boundHarts s n).foldl (fun s h => s.setHart h { s.hart h with stopped := true, blocked := none }) s

/-- A context enters RELEASING (R36). -/
def releaseCtx (s : State) (n : Nat) : State :=
  let c := s.ctx n
  let s1 := releaseTrigs (releaseSals (s.setCtx n { c with st := .releasing, ackPending := false }) n) n
  dropOpenBlocks (stopHarts (settle (endCtxWork s1 n cCtxReleased)) n) n

/-! ### Zeroisation (R36, R281) -/

/-- An object is residue (R281). -/
def isResidue (s : State) (cls key : Nat) : Bool :=
  hasWaiters s cls key ||
  (match cls with
   | 0 => false
   | 1 => !(s.barrier key).arr.isEmpty || !(s.barrier key).lap.isEmpty
   | _ => (s.credit key).p != (s.credit key).c || (s.credit key).faulted)

/-- The identifiers of a context whose objects are residue. -/
def residues (s : State) (n : Nat) : List Nat :=
  ((s.ctx n).map.filter fun p => bit p.2.toNat 0 && isResidue s (p.1 / 4096) (entryObj (p.1 / 4096) p.2)).map (·.1)

/-- The residue checks: the counts by class, then the first 16 identifiers; then every object is reset and unmapped. -/
def residueCheck (s : State) (n : Nat) : State :=
  let rs := residues s n
  let count := fun cls => min 1023 (rs.countP fun v => v / 4096 == cls)
  let s1 := syncEvent s n 6 (count 0 + count 1 * 2 ^ 10 + count 2 * 2 ^ 20)
  let s2 := (rs.take 16).foldl (fun s v => syncEvent s n 6 v) s1
  let s3 := (s2.ctx n).map.foldl (fun s p => if bit p.2.toNat 0 then freshObj s (p.1 / 4096) (entryObj (p.1 / 4096) p.2) else s) s2
  s3.setCtx n { s3.ctx n with map := [] }

/-- A queue of a context returns to the warden, unassigned. -/
def freeQueue (s : State) (k : Nat) : State :=
  if engKind (k / 4) = .fabric then assignFabric s (k / 4 % 256) none
  else
    let s1 := if engKind (k / 4) = .bay then freshBay s (engBay (k / 4)) else s
    { s1 with owner := tdel s1.owner k, explicit := s1.explicit.filter (fun p => p.1 / 258 != k),
              grants := s1.grants.filter fun p => p.1 / 258 != k }

/-- A hart that was bound to a released context: its ring area is zeroed and its ring is empty; one still bound to it is bound to
none. -/
def freeHart (s : State) (h n : Nat) : State :=
  let base := ringAddr h 0
  let x := s.hart h
  (clearMem s base (base + 0x2000)).setHart h (if x.bound ∧ x.ctx ≠ n then
    { x with head := 0, phase := true, tail := 0, tailPhase := true, ring := [], was := x.was.filter (· != n) } else {})

/-- The saltern harts that were bound to a context and whose rings are not yet zeroed (R36, R539). -/
def wereBound (s : State) (n : Nat) : List Nat := (List.range 256).filter fun h => (s.hart h).was.contains n || hartCtx s h == some n

/-- The keys of a context are zeroised and it reaches FREE (R36): tags, harts, queues, names, regions and quotas are gone. What the
warden set for its waits (SYNC_CTX_TMO, SYNC_CTX_DL) and its event queue stay. -/
def freeCtx (s : State) (n : Nat) : State :=
  let s1 := residueCheck s n
  let s2 := { s1 with tags := s1.tags.filter fun p => p.2.ctx != n }
  let s3 := (ctxQueues s2 n).foldl freeQueue s2
  let s4 := (wereBound s3 n).foldl (fun s h => freeHart s h n) s3
  let s5 := (List.range 8).foldl (fun s d => setQuota s n d 0) s4
  let c := s5.ctx n
  s5.setCtx n { tmo := c.tmo, dlPolicy := c.dlPolicy, dlWindow := c.dlWindow, events := c.events, evDropped := c.evDropped }

/-- CTX_ZEROISE (R36): due once no operation of a context in RELEASING is queued or running. -/
def execCtxZeroise (n : Nat) (s : State) : Out :=
  .next (if n < 64 ∧ n ≠ 0 ∧ (s.ctx n).st = .releasing ∧ ctxIdle s n then freeCtx s n else s)

end Sys2Proof.Machine
end

