-- ==== Sys2Proof/Machine/Boot.lean ====
section
/-! DEFINITION. Rails, resets, the boot ROM, laser modules, optical loopback, the host link (19, R29 to R32, R505, R507). -/

namespace Sys2Proof.Machine

open Sys2Proof

/-- The pages. -/
def bootPage : Nat := pageOf 2 0
def hostPage : Nat := pageOf 1 0
def secPage : Nat := pageOf 3 0
def meshPage : Nat := pageOf 7 0

def State.setBoot (s : State) (b : Boot) : State := { s with boot := b }
def State.setSec (s : State) (x : Sec) : State := { s with sec := x }
def State.setSvc (s : State) (x : Svc) : State := { s with svc := x }
def State.setHost (s : State) (x : HostPort) : State := { s with host := x }

/-! ### What a reset keeps (R512, R514) -/

/-- How far a reset reaches: the main rail was lost, a cold reset, a warm reset. -/
inductive Reach where
  | power | cold | warm
  deriving DecidableEq, Repr

/-- The vault after a reset: the OTP and what R514 keeps. A transition of the life cycle that waited takes effect at a cold reset or a
power-up (R462): a claim writes the next owner slot, the return to PROVISIONED revokes the slot. -/
def resetSec (x : Sec) (r : Reach) : Sec :=
  let y : Sec :=
    { lc := x.lc, lcNext := x.lcNext, defunctPending := x.defunctPending, ownerSlot := x.ownerSlot, ownerValid := x.ownerValid,
      slotsUsed := x.slotsUsed, ownerHash := x.ownerHash, nextOwnerHash := x.nextOwnerHash, latched := x.latched, fuse := x.fuse, claimPolicy := x.claimPolicy,
      otk := if r = .power then [] else x.otk, pbk := if r = .warm then x.pbk else none, huk := x.huk, idk := x.idk }
  if r = .warm then y
  else match x.lcNext with
    | some 2 => { y with lc := 2, lcNext := none, ownerSlot := x.slotsUsed, slotsUsed := x.slotsUsed + 1, ownerValid := true,
                         ownerHash := x.nextOwnerHash, nextOwnerHash := [] }
    | some 1 => { y with lc := 1, lcNext := none, ownerValid := if x.lc = 3 then false else x.ownerValid }
    | _ => y

/-- A saltern after a reset is OFF; its stacks need training unless the reset was warm. -/
def resetDies (t : Tbl DiePower) (r : Reach) : Tbl DiePower :=
  (List.range 9).foldl (fun u d =>
    let x := tget (dieDefault d) t d
    tset (dieDefault d) u d { dieDefault d with thermal := x.thermal, thermCeil := x.thermCeil, trained := decide (r = .warm) && x.trained }) []

/-- Memory that a reset keeps: what lies beyond the host port, and stacked memory in self-refresh under a warm reset. -/
def resetMem (m : List Host.Cell) (r : Reach) : List Host.Cell :=
  m.filter fun c => (decide (hostBase ≤ c.1) && decide (c.1 < 0x4000_0000_0000)) || (decide (r = .warm) && decide (c.1 < 0x180_0000_0000))

/-- The pages of the always-on domain, which no reset with standby reaches: PWR and TIME (R434). -/
def alwaysOnPage (page : Nat) : Bool := page / 1024 == 4 || page / 1024 == 6

/-- Boot and laser state after a reset. -/
def resetBoot (b : Boot) (r : Reach) (cause : Nat) : Boot :=
  let on := decide (r ≠ .power)
  let w := decide (r = .warm)
  { standby := b.standby, alwaysOn := b.alwaysOn, mainRail := b.mainRail && on, hub := b.hub && on, rom := b.hub && on,
    portOn := b.portOn && w, cause := cause, warm := w, wdnRun := if b.hub && on then 1 else 0,
    tapIr := b.tapIr, tapDr := b.tapDr, bsr := b.bsr, lands := b.lands, seated := b.seated,
    lit := if w then b.lit else [], stable := if w then b.stable else [], shut := if w then b.shut else [],
    engCal := if w then b.engCal else [] }

/-- A device reset, or the loss of the main rail (R512, R514). Operations in flight end with records that no one sees (R516). -/
def resetDevice (s : State) (r : Reach) (cause : Nat) : State :=
  let w := decide (r = .warm)
  let t := ((List.range 63).foldl (fun s i => releaseTrigs s (i + 1)) s).time
  { regs := s.regs.filter fun p => alwaysOnPage (p.1 / 4096)
    cnts := s.cnts.filter fun p => alwaysOnPage (p.1 / 256)
    mem := resetMem s.mem r
    memTag := if w then s.memTag else []
    links := if w then tmap {} (fun _ (l : Link) => ({ light := l.light, calibrated := l.calibrated } : Link)) s.links else []
    macs := if r = .power then [] else tmap {} (fun _ (m : Mac) => ({ cak := m.cak } : Mac)) s.macs
    time := t
    dies := resetDies s.dies r
    sensors := if w then s.sensors else tmap {} (fun _ (x : Sensor) => ({ x with tripped := false } : Sensor)) s.sensors
    ceil := s.ceil
    watts := s.watts
    amps := s.amps
    meshFailed := if w then s.meshFailed else []
    sec := resetSec s.sec r
    svc := if w then { log := s.svc.log, seq := s.svc.seq } else {}
    boot := resetBoot s.boot r cause
    host := if w then { up := s.host.up, speed := s.host.speed, width := s.host.width, flit := s.host.flit, cxl := s.host.cxl,
                        vfs := s.host.vfs, msix := s.host.msix } else {}
    readVal := s.readVal
    waitSeq := s.waitSeq
    free := s.free
    pending := s.pending }

/-- The loss of everything but the OTP, the seated modules, the board's main rail and what lies beyond the host port (R512). -/
def standbyLost (s : State) : State :=
  { mem := resetMem s.mem .power
    sec := resetSec s.sec .power
    boot := { mainRail := s.boot.mainRail, seated := s.boot.seated }
    readVal := s.readVal
    waitSeq := s.waitSeq
    free := s.free
    pending := s.pending }

/-! ### Rails (R511, R512) -/

/-- STANDBY_UP (R511): the always-on domain leaves reset, the tamper sensors arm. -/
def execStandbyUp (s : State) : Out := .next (if s.boot.standby then s else s.setBoot { s.boot with standby := true })

/-- ALWAYS_ON_READY (R415, R511): TB0 counts from 0. -/
def execAlwaysOnReady (s : State) : Out :=
  .next (
    if s.boot.standby ∧ !s.boot.alwaysOn then
      (s.setBoot { s.boot with alwaysOn := true }).setTime { s.time with running := true }
    else s)

/-- MAIN_RAIL_UP (R511). -/
def execMainRailUp (s : State) : Out := .next (s.setBoot { s.boot with mainRail := true })

/-- HUB_POWER_ON (R511): the hub rails are stable and its PLL has locked; the ROM starts on warden core 0. -/
def execHubPowerOn (s : State) : Out :=
  .next (
    if s.boot.mainRail ∧ s.boot.alwaysOn ∧ !s.boot.hub then s.setBoot { s.boot with hub := true, rom := true, wdnRun := 1 } else s)

/-- MAIN_RAIL_LOSS (R512): start-up resumes when the rail returns, with BOOT_CAUSE 6. -/
def execMainRailLoss (s : State) : Out :=
  .next (
    if !s.boot.mainRail then s
    else if s.boot.hub then resetDevice s .power 6
    else s.setBoot { s.boot with mainRail := false })

/-- STANDBY_LOSS (R512). -/
def execStandbyLoss (s : State) : Out := .next (if s.boot.standby then standbyLost s else s)

/-! ### The ROM (R465, R517) -/

/-- Draw `n` words of the TRNG. -/
def drawWords : Nat → State → List Word × State
  | 0, s => ([], s)
  | n + 1, s =>
    let (d, s1) := drawFree s
    let (ws, s2) := drawWords n s1
    (d.truncate 32 :: ws, s2)

/-- The image kinds that a boot awaits (R518). -/
def needKinds (lc : Nat) : List Nat := [0, 1, 2, 3, 4] ++ if lc = 2 then [5] else []

/-- The ROM's steps pass: PBK, nonce, the keys and seed of context 0, the host port, BOOT_STAGE 1. -/
def romPasses (s : State) : State :=
  let s1 := if (s.boot.warm ∧ s.sec.pbk.isSome) ∨ !s.sec.idk then s
    else ({ s with free := s.free + 1 } : State).setSec { s.sec with pbk := some (s.free + 1) }
  let (ws, s2) := drawWords 8 s1
  let (seed, s3) := drawFree (s2.setSec { s2.sec with nonce := ws })
  let s4 := drawKeys (s3.setCtx 0 { s3.ctx 0 with seed := some seed }) 0
  s4.setBoot { s4.boot with inTamper := false, stage := 1, need := needKinds s4.sec.lc, romDone := true, portOn := true }

/-- ROM_BOOT (R465, R517). DEFUNCT_PENDING is completed first, and a cold reset follows. A failed step halts the ROM. -/
def execRomBoot (otpOk trngOk pbkOk : Bool) (s : State) : Out :=
  .next (
    let b := s.boot
    if !b.hub ∨ !b.rom ∨ b.romDone ∨ b.perst ∨ b.lands then s
    else if s.sec.defunctPending ∧ s.sec.lc ≠ 4 then
      resetDevice (s.setSec { s.sec with lc := 4, lcNext := none, huk := false, idk := false }) .cold 5
    else if otpOk ∧ trngOk ∧ (pbkOk ∨ b.warm) then romPasses s
    else s.setBoot { b with stage := 4, romDone := true, portOn := true })

/-! ### Resets (R507, R513, R516) -/

/-- PERST_ASSERT (R513): a cold reset that holds while PERST# is asserted. -/
def execPerstAssert (s : State) : Out :=
  .next (
    if s.boot.hub ∧ !s.boot.inTamper then
      let s1 := resetDevice s .cold 3
      s1.setBoot { s1.boot with perst := true }
    else s)

/-- PERST_DEASSERT (R513). -/
def execPerstDeassert (s : State) : Out := .next (s.setBoot { s.boot with perst := false })

/-- A reset is in progress until the ROM has run; a halted ROM and test access leave only by a cold reset (R507, R517, R524). -/
def resetTaken (s : State) (cold : Bool) : Bool := s.boot.romDone && !s.boot.inTamper && (cold || s.boot.stage != 4)

/-- A write of BOOT_RST (R507): the KEY must match; one that arrives during a reset is ignored. -/
def rstWrite (s : State) (v : Word) : State :=
  if bits v.toNat 16 16 ≠ 0xA5C3 then s
  else if bits v.toNat 0 2 = 1 ∧ resetTaken s false then resetDevice s .warm 2
  else if bits v.toNat 0 2 = 2 ∧ resetTaken s true then resetDevice s .cold 1
  else s

/-- The host, or the warden, writes BOOT_RST. -/
def byHostOrWarden (s : State) (a : Acc) (f : State → State) : State :=
  if a = .host then (if s.host.up then f s else s) else wardenOnly s a f

/-- WARM_RESET (R513). -/
def execWarmReset (a : Acc) (v : Word) (s : State) : Out :=
  .next (byHostOrWarden s a fun s => if bits v.toNat 0 2 = 1 then rstWrite s v else s)

/-- COLD_RESET (R513). -/
def execColdReset (a : Acc) (v : Word) (s : State) : Out :=
  .next (byHostOrWarden s a fun s => if bits v.toNat 0 2 = 2 then rstWrite s v else s)

/-- KICK (R507): a write of BOOT_WDOG that restarts the watchdog, whose count no register shows. -/
def execKick (a : Acc) (v : Word) (s : State) : Out :=
  .next (wardenOnly s a fun s => if bit v.toNat 31 then plainWrite s bootPage 0x4C v else s)

/-- BOOT_WDOG_EXPIRE (R507): a warm reset with CAUSE 4. -/
def execBootWdogExpire (s : State) : Out :=
  .next (
    if regField s bootPage 0x4C 0 16 ≠ 0 ∧ (s.boot.stage = 2 ∨ s.boot.stage = 3) then resetDevice s .warm 4 else s)

/-! ### Laser modules (R30, R31, R479, R519) -/

/-- The links or port groups of a module go DOWN with a cause. -/
def feedDown (s : State) (m cause : Nat) : State :=
  [2 * m, 2 * m + 1].foldl (fun s e =>
    if e < 12 then linkDown (s.setLink e { s.link e with light := false }) e cause else groupDown s (e - 12)) s

/-- A module's laser is off. -/
def laserOff (s : State) (m : Nat) : State :=
  s.setBoot { s.boot with lit := s.boot.lit.filter (· != m), stable := s.boot.stable.filter (· != m) }

/-- A module's laser is powered, once the calibration image is there (R519): it then needs its stabilisation time. -/
def laserOn (s : State) (m : Nat) : State :=
  if s.boot.seated.contains m ∧ !s.svc.lmods.contains m ∧ (tfind s.sec.running 2).isSome ∧ !s.boot.lit.contains m
  then s.setBoot { s.boot with lit := s.boot.lit ++ [m] } else s

/-- The calibration of a module's engines is void (R31, R479). -/
def feedUncal (s : State) (m : Nat) : State :=
  [2 * m, 2 * m + 1].foldl (fun s e =>
    let s1 := s.setBoot { s.boot with engCal := s.boot.engCal.filter (· != e) }
    if e < 12 then s1.setLink e { s1.link e with calibrated := false } else s1) s

/-- Removal: calibration is void, and a loopback test through the module's light ends with every LOCK bit at 0 (R31, R525). -/
def feedLost (s : State) (m : Nat) : State :=
  [2 * m, 2 * m + 1].foldl (fun s e =>
    let b := s.boot
    if 2 ≤ tget 0 b.lbRun e then s.setBoot { b with lbRun := tdel b.lbRun e, lbLock := tdel b.lbLock e } else s) (feedUncal s m)

/-- LASER_REMOVE (R31, R479). -/
def execLaserRemove (m : Nat) (s : State) : Out :=
  .next (
    if s.boot.seated.contains m then
      let s1 := s.setBoot { s.boot with seated := s.boot.seated.filter (· != m) }
      feedLost (feedDown (laserOff s1 m) m 1) m
    else s)

/-- LASER_INSERT (R31, R479). -/
def execLaserInsert (m : Nat) (s : State) : Out :=
  .next (
    if m < 8 ∧ !s.boot.seated.contains m then laserOn (s.setBoot { s.boot with seated := s.boot.seated ++ [m] }) m else s)

/-- The engines of a module have stable light: its links may come up. -/
def feedStable (s : State) (m : Nat) : State :=
  let s1 := s.setBoot { s.boot with stable := s.boot.stable ++ [m] }
  if m < 6 then tryUp (tryUp s1 (2 * m)) (2 * m + 1) else s1

/-- LASER_STABLE (R31). -/
def execLaserStable (m : Nat) (s : State) : Out :=
  .next (if s.boot.lit.contains m ∧ !s.boot.stable.contains m then feedStable s m else s)

/-! ### Optical loopback (R525) -/

/-- Counters of a lane: BITS and ERR. -/
def lbCounter (e lane c : Nat) : Nat := (e * 8 + lane) * 2 + c

/-- The counters and PASS of an engine start anew. -/
def lbClear (s : State) (e : Nat) : State :=
  { s with boot := { s.boot with lbPass := tdel s.boot.lbPass e },
           cnts := s.cnts.filter fun p => !(p.1 / 256 == bootPage && p.1 % 256 / 16 == e) }

/-- The engine is idle (R525). -/
def lbIdle (s : State) (e : Nat) : Bool :=
  if e < 12 then (s.link e).state == 0 && !enabled s (grlPage e)
  else (List.range 4).all fun p => !macCfgBit s (4 * (e - 12) + p) 0 && !macCfgBit s (4 * (e - 12) + p) 1

/-- The laser module of an engine is lit and not fenced. -/
def lbLit (s : State) (e : Nat) : Bool := s.boot.lit.contains (e / 2) && !s.svc.lmods.contains (e / 2)

/-- A write of BOOT_LB_CTL: RUN 1 starts a test of the selected engine or is refused; RUN 0, or MODE 0, ends it. -/
def lbCtlWrite (s : State) (v : Word) : State :=
  let e := regField s bootPage 0x54 0 4
  let mode := bits v.toNat 0 2
  let b := s.boot
  if !bit v.toNat 2 ∨ mode = 0 then
    regPut (s.setBoot { b with lbRun := tdel b.lbRun e, lbLock := tdel b.lbLock e, lbRefused := b.lbRefused && !bit v.toNat 2 })
      bootPage 0x58 (BitVec.ofNat 32 mode)
  else if !lbIdle s e ∨ (mode = 2 ∧ !lbLit s e) then s.setBoot { b with lbRefused := true }
  else
    let s1 := s.setBoot { b with lbRun := tput b.lbRun e mode, lbLock := tdel b.lbLock e, lbRefused := false }
    regPut (lbClear s1 e) bootPage 0x58 (BitVec.ofNat 32 mode)

/-- BOOT_LB_CTL (R525). -/
def execBootLbCtl (a : Acc) (v : Word) (s : State) : Out := .next (wardenOnly s a fun s => lbCtlWrite s v)

/-- Set a lane's bit of an engine. -/
def laneBit (t : Tbl (BitVec 8)) (e lane : Nat) : Tbl (BitVec 8) := tset 0 t e (tget 0 t e ||| BitVec.ofNat 8 (2 ^ lane))

/-- LB_LOCK (R525). -/
def execLbLock (e lane : Nat) (s : State) : Out :=
  .next (
    if tget 0 s.boot.lbRun e ≠ 0 ∧ lane < 8 then s.setBoot { s.boot with lbLock := laneBit s.boot.lbLock e lane } else s)

/-- LB_PASS (R525): 10^12 bits are checked, with at most 10^7 errors; how many is free (log entry 33). -/
def execLbPass (e lane : Nat) (s : State) : Out :=
  .next (
    let b := s.boot
    if tget 0 b.lbRun e ≠ 0 ∧ e < 16 ∧ lane < 8 ∧ bit (tget 0 b.lbLock e).toNat lane ∧ !bit (tget 0 b.lbPass e).toNat lane then
      let (d, s1) := drawFree (s.setBoot { b with lbPass := laneBit b.lbPass e lane })
      bump (bump s1 bootPage (lbCounter e lane 0) 1000000000000) bootPage (lbCounter e lane 1) (d.toNat % 10000001)
    else s)

/-! ### Lands that the package drives (R528, R535) -/

/-- THERMTRIP# is driven low (R528): a junction has tripped, and TRIPPED still shows it (DESIGN CHOICE, log entry 93). -/
def thermtripLow (s : State) : Bool := s.boot.standby && (List.range 9).any fun n => (s.sensor n).tripped

/-- LM_EN of a laser module (R535): high while the module may emit. -/
def lmEnable (s : State) (m : Nat) : Bool :=
  s.boot.standby && s.boot.lit.contains m && !s.svc.lmods.contains m && !s.boot.shut.contains (2 * m) && !s.boot.shut.contains (2 * m + 1)

/-! ### The host link (R32, R505) -/

/-- A PCIe link that the port can form (R32, R505): speed codes 1 to 6, up to 64 GT/s, 1 to 16 lanes, and FLIT mode at 64 GT/s. -/
def linkShape (speed width : Nat) (flit : Bool) : Bool :=
  decide (1 ≤ speed) && decide (speed ≤ 6) && decide (1 ≤ width) && decide (width ≤ 16) && (!flit || speed == 6)

/-- HOST_LINK_UP (R505, R517, R524): a link that the port cannot form does not come up (R32). -/
def execHostLinkUp (speed width : Nat) (flit : Bool) (cxl : BitVec 3) (vfs : Nat) (s : State) : Out :=
  .next (
    if s.boot.portOn ∧ !s.boot.perst ∧ !s.boot.lands ∧ !s.host.up ∧ linkShape speed width flit then
      evt (s.setHost { s.host with up := true, speed := speed, width := width, flit := flit, cxl := cxl, vfs := min vfs 63 })
        hostPage 0
    else s)

/-- The host link goes down. -/
def hostDown (s : State) : State := if s.host.up then evt (s.setHost { s.host with up := false }) hostPage 1 else s

/-- HOST_LINK_DOWN (R505). -/
def execHostLinkDown (s : State) : Out := .next (hostDown s)

end Sys2Proof.Machine
end

