-- ==== Sys2Proof/Machine/Griros.lean ====
section
/-! DEFINITION. Flits and messages of Griros, and the collectives (10, R289 to R296, R301, R302, R310 to R316; 09, R274 to R276). -/

namespace Sys2Proof.Machine

open Sys2Proof

def cCollMismatch : Nat := 0x7006

/-! ### Messages (R290) -/

/-- The message header at the start of a payload, and the data that the flit holds. -/
def parseMsg (vc : Nat) (num : BitVec 16) (p : List Byte) : Msg :=
  let w1 := fieldLE p 4 4
  let w6 := fieldLE p 0x18 4
  { vc := vc, mtype := fieldLE p 0 1, jobTag := BitVec.ofNat 16 (fieldLE p 2 2), epoch := BitVec.ofNat 16 w1, mark := bit w1 16,
    addr := fieldLE p 8 8 % 2 ^ 52, len := fieldLE p 0x10 4, xfer := fieldLE p 0x14 4, sigId := w6 % 2 ^ 14,
    sigMode := bits w6 14 2, sigEn := bit w6 16, xferBytes := fieldLE p 0x1C 4, data := p.drop 32, num := num }

/-- Data bytes that a message carries: WRITE, READ_DATA and COLL_DATA carry LEN. -/
def msgNeed (m : Msg) : Nat := if m.mtype = 1 ∨ m.mtype = 3 ∨ m.mtype = 5 then m.len else 0

/-- Flit buffers of a VC are freed: they are credits to return (R293). -/
def freeFlits (l : Link) (vc n : Nat) : Link := { l with freed := tset 0 l.freed vc (tget 0 l.freed vc + n) }

/-- Take a message into assembly, or to the received messages when it is whole; an MTYPE of no data channel is dropped. Its flits stay
in their buffers until it is taken. -/
def assemble (l : Link) (m : Msg) : Link :=
  if m.data.length < msgNeed m then { l with rxAsm := tput l.rxAsm m.vc m }
  else
    let l1 := { l with rxAsm := tdel l.rxAsm m.vc }
    if m.mtype = 0 ∨ 5 < m.mtype then freeFlits l1 m.vc m.want else { l1 with rxMsgs := l1.rxMsgs ++ [m] }

/-- A message in assembly is given up: its buffers are freed. -/
def dropAsm (l : Link) (vc : Nat) : Link :=
  match tfind l.rxAsm vc with
  | some m => freeFlits { l with rxAsm := tdel l.rxAsm vc } vc m.want
  | none => l

/-- A flit's payload goes to the message of its VC (R289, R290): a MSG_HEAD begins one, a MSG_BODY with the number of its head continues
it. What begins or continues none is dropped (log entry 83). An IDLE flit takes no buffer. -/
def takePayload (l : Link) (f : Flit) : Link :=
  let vc := f.vc.toNat
  if f.ftype = 0 then l
  else if !linkUp l ∨ vc = 0 then freeFlits l vc 1
  else if f.ftype = 1 then assemble (dropAsm l vc) { parseMsg vc f.msg f.payload with want := 1 }
  else if f.ftype = 2 then
    match tfind l.rxAsm vc with
    | some m =>
      if m.num = f.msg then assemble l { m with data := (m.data ++ f.payload).take (msgNeed m), want := m.want + 1 } else freeFlits l vc 1
    | none => freeFlits l vc 1
  else freeFlits l vc 1

/-! ### Transfers that are acknowledged (R53, R301) -/

/-- A transfer has no message unacknowledged anywhere. -/
def xferAcked (s : State) (x : TxXfer) : Bool := !x.read && (List.range 12).all fun k => !xferOn s k x

/-- The operations whose transfers are acknowledged are done. -/
def settleXfers (s : State) : State :=
  let fin := s.txXfers.filter (xferAcked s)
  fin.foldl (fun s x => match s.run x.engine 0 with
    | some op => s.setRun x.engine 0 { op with done := true }
    | none => s) { s with txXfers := s.txXfers.filter fun x => !fin.contains x }

/-! ### Flits (R289, R293 to R295) -/

/-- a is at or before b in the 24-bit series. -/
def seqLe (a b : BitVec 24) : Bool := (b - a).toNat < 2 ^ 23

/-- RETRY_LIMIT of a link; a write of 0 stores 1. -/
def retryLimit (s : State) (k : Nat) : Nat := regField s (grlPage k) 0x48 4 4

/-- Send a flit of the retry buffer again, and those behind it. -/
def resend : List SentFlit → Link → List SentFlit × Link
  | [], l => ([], l)
  | f :: fs, l =>
    let (g, l1) := transmit l f
    let (gs, l2) := resend fs l1
    (g :: gs, l2)

/-- Replay the retry buffer in order (R294): counted as sent and as replayed, and the link goes DOWN at the limit. -/
def replay (s : State) (k : Nat) : State :=
  let l := s.link k
  if l.retryBuf.isEmpty then s
  else
    let (gs, l1) := resend l.retryBuf l
    let s1 := bump (bump (s.setLink k { l1 with retryBuf := gs, replays := l.replays + 1 }) (grlPage k) 0 gs.length) (grlPage k) 5 gs.length
    if retryLimit s k ≤ l.replays + 1 then linkDown s1 k 4 else s1

/-- An accepted flit: acknowledgement, credits and payload; then a replay when it asks for one, and an answer. -/
def acceptFlit (s : State) (k : Nat) (f : Flit) : State :=
  let l := s.link k
  let buf := l.retryBuf.dropWhile fun x => seqLe x.hdr.seq f.ack
  let vc := f.crVc.toNat
  let l1 := { l with rxSeq := l.rxSeq + 1, nakDue := false, retryBuf := buf,
                     replays := if buf.length < l.retryBuf.length then 0 else l.replays,
                     spent := tset 0 l.spent vc (tget 0 l.spent vc - f.crCount.toNat) }
  let s1 := settleXfers (s.setLink k (takePayload l1 f))
  answerFlit (if f.nak then replay s1 k else s1) k

/-- The receiving keys of a link once a flit with a KEY_PHASE comes: the next ones from the first flit after the flip (R298). -/
def phaseKeys (l : Link) (phase : Bool) : Link :=
  if l.keyPhaseRx ≠ phase ∧ l.nextRx.isSome then { l with keyRx := l.nextRx, nextRx := none, keyPhaseRx := phase, rxCount := 0 } else l

/-- Discard a flit, and ask for a replay from the last good SEQ (R294). -/
def discardFlit (s : State) (k : Nat) : State := answerFlit (s.setLink k { s.link k with nakDue := true }) k

/-- FLIT_RECEIVE (R288, R294, R295): CRC, tag and order are checked, then reserved bits and credits. -/
def execFlitReceive (k : Nat) (image : List Byte) (s : State) : Out :=
  .next (
    let l := s.link k
    if l.state < 3 then s
    else
      let s1 := bump s (grlPage k) 1 1
      if !flitCrcOk image then discardFlit (bump (s1.setLink k { l with rxCount := l.rxCount + 1 }) (grlPage k) 4 1) k
      else
        let l1 := phaseKeys l (bit (ofLE (image.take 16)) 6)
        match openFlit l1.keyRx l1.rxCount image with
        | none => evt (bump (linkDown s1 k 5) (grlPage k) 6 1) (grlPage k) 6
        | some f =>
          let s2 := s1.setLink k { l1 with rxCount := l1.rxCount + 1 }
          if f.seq ≠ l.rxSeq then discardFlit s2 k
          else if 4 ≤ f.ftype.toNat ∨ f.reservedBits ∨ tget 0 l.spent f.crVc.toNat < f.crCount.toNat then linkDown s2 k 6
          else acceptFlit s2 k f)

/-- FLIT_REPLAY_TIMEOUT (R294): a flit has been unacknowledged for 4 µs. -/
def execFlitReplayTimeout (k : Nat) (s : State) : Out := .next (if (s.link k).state < 3 then s else replay s k)

/-! ### Messages of a job (R302) -/

/-- The first message of an MTYPE that stands first on its VC. -/
def headMsg (l : Link) (mt : Nat) : Option Msg :=
  [1, 2, 3].findSome? fun vc =>
    match l.rxMsgs.find? fun m => m.vc == vc with
    | some m => if m.mtype = mt then some m else none
    | none => none

/-- Take a message off a link: its flit buffers are free (R293). -/
def popMsg (s : State) (k : Nat) (m : Msg) : State :=
  let l := s.link k
  match takeFirst (fun x : Msg => x.vc == m.vc) l.rxMsgs with
  | some (x, rest) => s.setLink k (freeFlits { l with rxMsgs := rest } m.vc x.want)
  | none => s

/-- The slot of a message: the one bound to the link, if its tag matches. -/
def msgSlot (s : State) (k : Nat) (m : Msg) : Option Nat :=
  match linkSlot s k with
  | some slot => if (s.jobSlot slot).valid ∧ (s.jobSlot slot).tag = m.jobTag then some slot else none
  | none => none

/-- Act on the first message of an MTYPE of a link; without a job that matches, `lost` says what becomes of it. -/
def onMsg (k mt : Nat) (lost : State → State) (f : State → Nat → Msg → State) (s : State) : Out :=
  .next (match headMsg (s.link k) mt with
    | some m =>
      let s1 := popMsg s k m
      match msgSlot s1 k m with
      | some slot => f s1 slot m
      | none => lost s1
    | none => s)

/-! ### Remote signals (R274 to R276, R306, R307) -/

/-- The receiving hub refuses a signal (R275). -/
def rejectRemote (s : State) (n node : Nat) : State := syncEvent (bump s syncPage 2 1) n 5 (node + 2 ^ 31)

/-- Apply a signal from a neighbour to the context of a job. A third arrival is posted as BARRIER_LAP (R264) and refused (R275). -/
def applyRemote (s : State) (k slot : Nat) (m : Msg) : State :=
  let n := (s.jobSlot slot).ctx
  let node := (s.link k).peer.toNat
  match translate s n m.sigId with
  | none => rejectRemote (nameFault s n m.sigId) n node
  | some key =>
    let b := s.barrier key
    let i := b.conf.remote.idxOf node
    let mismatch := m.sigMode == 2 && m.epoch != (s.ctx n).epoch
    if !mapRemote s n m.sigId ∨ modeClass m.sigMode ≠ vidClass m.sigId then rejectRemote s n node
    else if m.sigMode = 2 ∧ !b.conf.remote.contains node then rejectRemote s n node
    else
      let (s1, st, w) := applySig s n m.sigId m.sigMode
        { eng := node, op := 0xF0 + m.sigMode, remote := true, mark := m.mark || mismatch, part := 576 + i }
      settle (if st = cBarrierLap then rejectRemote s1 n node else s1, w)

/-- GRL_SIGNAL (R274, R302). -/
def execGrlSignal (k : Nat) (s : State) : Out :=
  onMsg k 4 (fun s => bump s syncPage 2 1) (fun s slot m => applyRemote s k slot m) s

/-- What this device knows of a neighbour's transfer, from one of its messages. -/
def rxXfer (s : State) (node slot : Nat) (m : Msg) : RxXfer :=
  (s.rxXfers.find? fun x => x.node == node && x.job == slot && x.xfer == m.xfer && x.read == (m.mtype == 2)).getD
    { node := node, job := slot, xfer := m.xfer, read := m.mtype == 2 }

/-- Replace what is known of a transfer. -/
def putRx (s : State) (x : RxXfer) : State :=
  { s with rxXfers := s.rxXfers.filter (fun y => !(y.node == x.node && y.job == x.job && y.xfer == x.xfer && y.read == x.read)) ++ [x] }

/-- Count bytes of a transfer: the state, and whether all of them have been moved. -/
def countRx (s : State) (x : RxXfer) (m : Msg) : State × Bool :=
  let now := x.written + m.len
  let s1 := putRx s { x with written := now }
  if now % 2 ^ 32 = m.xferBytes then ({ s1 with rxXfers := s1.rxXfers.filter fun y => y != { x with written := now } }, true) else (s1, false)

/-- A message of a neighbour's transfer (R301): one without data brings an extent, which is checked against the job context's rights
before any data is accepted; what belongs to a refused transfer is discarded. `f` acts on an accepted one, and is told whether it is the
transfer's last. -/
def xferMsgIn (s : State) (k slot : Nat) (m : Msg) (f : State → Bool → State) : State :=
  let x := rxXfer s (s.link k).peer.toNat slot m
  let ext : Ext := { addr := m.addr, len := if m.len = 0 then m.xferBytes else m.len, write := m.mtype == 1 }
  let bad := x.refused || extCheck s (s.jobSlot slot).ctx [ext] != 0
  if m.len = 0 then putRx s { x with refused := bad }
  else
    let (s1, last) := countRx s { x with refused := bad } m
    if bad then s1 else f s1 last

/-- GRL_WRITE (R301): checked against the job context's rights and written; the transfer's last byte applies its signal. -/
def execGrlWrite (k : Nat) (s : State) : Out :=
  onMsg k 1 id (fun s slot m =>
    xferMsgIn s k slot m fun s last =>
      let s1 := netStore (s.crossMem 8 m.addr m.len) m.addr m.data
      if last ∧ m.sigEn then applyRemote s1 k slot m else s1) s

/-- READ_REQ (R290, R292, R301): the memory is read and returned on VC 2 of the same link, in messages of at most 16 KiB. -/
def execReadReq (k : Nat) (s : State) : Out :=
  onMsg k 2 id (fun s slot m =>
    xferMsgIn s k slot m fun s _ =>
      let j := s.jobSlot slot
      (cut m.addr m.len).foldl (fun s c =>
        sendMsg s k { vc := 2, mtype := 3, jobTag := j.tag, epoch := (s.ctx j.ctx).epoch, addr := c.1, len := c.2,
                      xfer := m.xfer, xferBytes := m.xferBytes, data := load s c.1 c.2 } none) (s.crossMem 8 m.addr m.len)) s

/-- READ_DATA (R292, R301): a piece of a read; with the last one the descriptor's data lands. -/
def execReadData (k : Nat) (s : State) : Out :=
  onMsg k 3 id (fun s slot m =>
    match takeFirst (fun x : TxXfer => x.read && x.slot == slot && x.xfer == m.xfer) s.txXfers with
    | none => s
    | some (x, rest) =>
      let y := { x with want := x.want.filter fun w => !(w.1 == m.addr && w.2.1 == m.len), parts := tput x.parts m.addr m.data }
      if y.want.isEmpty then readLanded { s with txXfers := rest } y else { s with txXfers := rest ++ [y] }) s

/-! ### Collectives (R310 to R316) -/

/-- A member's view of a collective: the descriptor, the job slot, the ring, the bytes of an element. -/
structure CollV where
  d : DmaDesc
  slot : Nat
  ring : RingEnt
  es : Nat
  deriving DecidableEq, Repr

/-- Ring size and this member's position. -/
def CollV.size (v : CollV) : Nat := v.ring.size.toNat
def CollV.pos (v : CollV) : Nat := v.ring.pos.toNat

/-- Elements of a chunk: its first and its number (R312). -/
def CollV.chunk (v : CollV) (c : Nat) : Nat × Nat :=
  let l := alignUp (cdiv v.d.cols v.size) 32
  (c * l, min ((c + 1) * l) v.d.cols - c * l)

/-- The descriptor of the input that this member reads, and of the output that it writes (R310): the same with its own number of
elements. -/
def CollV.input (v : CollV) : DmaDesc := if v.d.op = 0x11 then { v.d with cols := (v.chunk v.pos).2 } else v.d
def CollV.output (v : CollV) : DmaDesc := if v.d.op = 0x10 then { v.d with cols := (v.chunk v.pos).2 } else v.d

/-- The output goes to memory sealed: all of it when the collective ends. -/
def CollV.seals (v : CollV) : Bool := sealsObject v.d v.d.dst || sealsPages v.d v.d.dst

/-- Where a chunk of the output stands. -/
def CollV.place (v : CollV) (i : Nat) : Nat := v.d.dst + if v.d.op = 0x10 ∨ v.d.op = 0x13 then 0 else (v.chunk i).1 * v.es

/-- The view of an engine's collective, if its ring is in use. -/
def collView (s : State) (op : Op) (d : DmaDesc) : Option CollV :=
  match jobOf s op.ctx with
  | none => none
  | some slot =>
    let r := tget {} (s.jobSlot slot).rings d.node
    if r.size = 0 then none else some { d := d, slot := slot, ring := r, es := if d.sfmt = 0 then 1 else 2 }

/-- The CRC-32C of the parameters (R315): OP, ring, n, format, ROP, RND, TID, STEP. -/
def collCrc (d : DmaDesc) : Word :=
  crc32c (toLE 1 d.op ++ toLE 1 d.node ++ toLE 4 d.cols ++ toLE 1 d.sfmt ++ toLE 1 d.rop ++ toLE 1 d.rnd ++ toLE 4 d.tid.toNat ++
    toLE 4 d.step.toNat)

/-- The key of a hop of a phase. -/
def hopKey (phase hop : Nat) : Nat := phase * 2 ^ 21 + hop

/-- Send the bytes of a chunk to the next member (R313): ADDR holds the ring and the byte offset, XFER the hop (log entry 22). -/
def sendChunk (s : State) (v : CollV) (phase hop : Nat) (bs : List Byte) : State :=
  let j := s.jobSlot v.slot
  deal s (usableLinks s v.slot v.ring.next.toNat) ((cut 0 bs.length).map fun c =>
    { vc := 3, mtype := 5, jobTag := j.tag, epoch := (s.ctx j.ctx).epoch, addr := v.d.node * 2 ^ 48 + c.1, len := c.2,
      xfer := hopKey phase hop, xferBytes := (collCrc v.d).toNat, data := slice bs c.1 c.2 })

/-- This member's input of elements: from memory, or from what a sealed source was opened to. -/
def inputBytes (s : State) (v : CollV) (c : Coll) (first n : Nat) : List Byte :=
  match c.text with
  | some bs => slice bs (first * v.es) (n * v.es)
  | none => load s (v.d.src + first * v.es) (n * v.es)

/-- This member's input of a chunk. -/
def ownChunk (s : State) (v : CollV) (c : Coll) (i : Nat) : List Byte := inputBytes s v c (v.chunk i).1 (v.chunk i).2

/-- Combine one element of the arriving partial with this member's input (R313). -/
def combine (v : CollV) (seed : Dword) (hop idx a b : Nat) : Nat :=
  let f := dense16 v.d.sfmt
  let x := decodeFmt f a
  let y := decodeFmt f b
  if v.d.rop = 0 then
    let r := if v.d.rnd = 2 then srBits seed (v.d.tid + BitVec.ofNat 32 hop) v.d.step idx else 0
    code f (rndOf v.d.rnd) r (x.add y)
  else code f .rne 0 (f32 ((if v.d.rop = 1 then vmax else vmin) (toF32 x) (toF32 y)))

/-- Combine a chunk. -/
def combineChunk (v : CollV) (seed : Dword) (hop c : Nat) (a b : List Byte) : List Byte :=
  (List.range (v.chunk c).2).flatMap fun i =>
    toLE 2 (combine v seed hop ((v.chunk c).1 + i) (fieldLE a (2 * i) 2) (fieldLE b (2 * i) 2))

/-- The bytes of a hop that have come, in order. -/
def hopBytes (c : Coll) (phase hop : Nat) : List Byte :=
  (c.got.filter fun p => p.1 / 2 ^ 40 == hopKey phase hop).flatMap (·.2)

/-- Put a collective back. -/
def putColl (s : State) (c : Coll) : State := { s with colls := (s.colls.filter fun x => x.engine != c.engine) ++ [c] }

/-- Drop the collective of an engine. -/
def dropColl (s : State) (e : Nat) : State := { s with colls := s.colls.filter fun x => x.engine != e }

/-- Write a chunk of the output and remember it; one that is to be sealed waits for the end. -/
def outChunk (s : State) (v : CollV) (c : Coll) (i : Nat) (bs : List Byte) : State :=
  let s1 := if v.seals then s else netStore (s.crossMem (c.engine / 256) (v.place i) bs.length) (v.place i) bs
  putColl s1 { c with mine := tput c.mine i bs }

/-- The collective of an engine has its output (R314): it is written, and its remote signal follows the data to the next member
(R292). -/
def collDone (s : State) (v : CollV) (c : Coll) : State :=
  let bytes := c.mine.flatMap (·.2)
  match s.run c.engine 0 with
  | none => dropColl s c.engine
  | some op =>
    let s1 := if v.seals then writeLocal s op.ctx v.output (c.mine.map fun p => (v.place p.1, p.2)) else s
    let s2 := dmaDone (dropColl s1 c.engine) c.engine 0 bytes.length (crc32c bytes)
    if v.d.rsigEn then
      match route s2 op.ctx v.ring.next.toNat with
      | .inl _ => s2
      | .inr (slot, ks) => sendRsig s2 op v.d slot 3 ks
    else s2

/-- Enter the gather of a member whose own chunk is known: it goes to the next member at hop 1. -/
def enterGather (s : State) (e : Nat) (v : CollV) (bs : List Byte) : State :=
  match s.colls.find? fun x => x.engine == e with
  | none => s
  | some c => putColl (sendChunk s v 1 1 bs) { c with phase := 1, hop := 1 }

/-- Carry a collective on as far as the data that has come takes it. -/
def collRun : Nat → State → Nat → State
  | 0, s, _ => s
  | f + 1, s, e =>
    match s.colls.find? fun x => x.engine == e, s.run e 0 with
    | some c, some op =>
      match collView s op (dmaDesc op.body) with
      | none => s
      | some v =>
        let dd := v.size
        let p := v.pos
        let seed := (s.jobSlot v.slot).seed
        let bs := hopBytes c c.phase c.hop
        if c.phase = 0 then
          let i := (p + 2 * dd - 1 - c.hop) % dd
          if bs.length < (v.chunk i).2 * v.es then s
          else
            let part := combineChunk v seed c.hop i bs (ownChunk s v c i)
            let s := s.crossMem (e / 256) (v.d.src + (v.chunk i).1 * v.es) ((v.chunk i).2 * v.es)
            if c.hop + 1 < dd then collRun f (putColl (sendChunk s v 0 (c.hop + 1) part) { c with hop := c.hop + 1 }) e
            else if v.d.op = 0x10 then
              let s1 := outChunk s v c p part
              collDone s1 v { c with mine := [(p, part)] }
            else collRun f (enterGather (outChunk s v c p part) e v part) e
        else if c.phase = 1 then
          let i := (p + dd - c.hop) % dd
          if bs.length < (v.chunk i).2 * v.es then s
          else
            let s1 := outChunk s v c i bs
            let c1 := { c with mine := tput c.mine i bs }
            if c.hop + 1 < dd then collRun f (putColl (sendChunk s1 v 1 (c.hop + 1) bs) { c1 with hop := c.hop + 1 }) e
            else collDone s1 v c1
        else
          if bs.length < v.d.cols * v.es then s
          else
            let s1 := if p + 1 < dd then sendChunk s v 2 1 bs else s
            collDone (outChunk s1 v c 0 bs) v { c with mine := [(0, bs)] }
    | _, _ => s

/-- A member reads its input: all but those behind the first of a broadcast (R310). -/
def CollV.reads (v : CollV) : Bool := !(v.d.op == 0x13 && v.pos != 0)

/-- Extents that a collective reads and writes on this device, with what its sealing touches. -/
def collExts (s : State) (n : Nat) (v : CollV) : List Ext :=
  (if v.reads then sideExts s n v.input (srcSide v.input) false else []) ++ sideExts s n v.output (dstSide v.output) true

/-- The checks of a collective's sides before it begins, in the order of those of a move (R227, R241, R455); 0 when it may. -/
def collCheck (s : State) (op : Op) (v : CollV) : Nat :=
  let n := op.ctx
  let a := extCheck (s.asOf op) n (collExts s n v)
  if a = cMemUnmapped then a
  else if (v.reads && !sideMeta s n v.input (srcSide v.input)) || !sideMeta s n v.output (dstSide v.output) then cMemAccess
  else if a ≠ 0 then a
  else if v.reads && openAbsent s n v.input (srcSide v.input) then cKeyAbsent
  else sealCheck s n v.output (dstSide v.output)

/-- The neighbours that a member needs: NEXT unless it is the last of a broadcast, PREV unless it is the first. -/
def collRoute (s : State) (n : Nat) (v : CollV) : Nat :=
  let st := fun (node : BitVec 20) => match route s n node.toNat with | .inl c => c | .inr _ => 0
  let next := if v.d.op = 0x13 ∧ v.pos + 1 = v.size then 0 else st v.ring.next
  let prev := if v.d.op = 0x13 ∧ v.pos = 0 then 0 else st v.ring.prev
  if next ≠ 0 then next else prev

/-- Begin a collective: the first send of this member, then what has already come. `text` is what a sealed source was opened to. -/
def collStart (s : State) (e : Nat) (op : Op) (v : CollV) (text : Option (List Byte)) : State :=
  let p := v.pos
  let s0 := (s.crossMem (e / 256) v.d.src (v.input.cols * v.es)).setRun e 0 { op with phase := 4 }
  let c : Coll := { engine := e, slot := v.slot, ring := v.d.node, phase := if v.d.op = 0x11 then 1 else if v.d.op = 0x13 then 2 else 0,
                    hop := 1, text := text }
  let s1 := putColl s0 c
  if v.d.op = 0x11 then
    let bs := inputBytes s1 v c 0 (v.chunk p).2
    collRun (2 * v.size + 2) (enterGather (outChunk s1 v c p bs) e v bs) e
  else if v.d.op = 0x13 then
    if p = 0 then
      let bs := inputBytes s1 v c 0 v.d.cols
      collDone (outChunk (sendChunk s1 v 2 1 bs) v c 0 bs) v { c with mine := [(0, bs)] }
    else s1
  else
    let i := (p + v.size - 1) % v.size
    collRun (2 * v.size + 2) (sendChunk s1 v 0 1 (ownChunk s1 v c i)) e

/-- A sealed source is opened whole before the collective begins; one that is not authentic ends it (R241, R455). -/
def collOpen (s : State) (e : Nat) (op : Op) (v : CollV) : State :=
  if v.reads && (sealsObject v.d v.d.src || sealsPages v.d v.d.src) then
    match openText s op.ctx v.input with
    | .inl (a, info) => sealFail s e op a info 0 0
    | .inr bs => collStart s e op v (some bs)
  else collStart s e op v none

/-- A collective row: the engine's operation begins if it is that collective. -/
def collRow (code e : Nat) (s : State) : Out :=
  .next (match dmaOp s e with
    | none => s
    | some (op, d) =>
      if d.op ≠ code then s
      else match collView s op d with
        | none => dmaEnd s e cGrlNoRoute
        | some v =>
          if collCheck s op v ≠ 0 then dmaEnd s e (collCheck s op v)
          else if collRoute s op.ctx v ≠ 0 then dmaEnd s e (collRoute s op.ctx v)
          else collOpen s e op v)

/-- CREDSCAT (R310, R313). -/
def execCredscat (e : Nat) (s : State) : Out := collRow 0x10 e s

/-- CALLGATH (R310, R313). -/
def execCallgath (e : Nat) (s : State) : Out := collRow 0x11 e s

/-- CALLRED (R310, R316). -/
def execCallred (e : Nat) (s : State) : Out := collRow 0x12 e s

/-- CBCAST (R310). -/
def execCbcast (e : Nat) (s : State) : Out := collRow 0x13 e s

/-- COLL_DATA (R313, R315): the data joins the member's collective of the ring; different parameters end it. A message that comes
before the member begins waits on its VC. -/
def execCollData (k : Nat) (s : State) : Out :=
  .next (match headMsg (s.link k) 5 with
    | none => s
    | some m =>
      match msgSlot s k m with
      | none => popMsg s k m
      | some slot =>
        match s.colls.find? fun c => c.slot == slot && c.ring == m.addr / 2 ^ 48 with
        | none => s
        | some c =>
          let s1 := popMsg s k m
          match s1.run c.engine 0 with
          | none => s1
          | some op =>
            if m.xferBytes ≠ (collCrc (dmaDesc op.body)).toNat then
              awayEnd (dropColl s1 c.engine) c.engine cCollMismatch (collWritten s1 c)
            else
              let c1 := { c with got := tput c.got (m.xfer * 2 ^ 40 + m.addr % 2 ^ 48) m.data }
              collRun (2 * (2 ^ 20) + 2) (putColl s1 c1) c.engine)

/-- COLL_TIMEOUT (R314): the wait for a neighbour's data has lasted the context's SYNC_CTX_TMO. -/
def execCollTimeout (e : Nat) (s : State) : Out :=
  .next (
    if s.colls.any fun c => c.engine == e then
      match s.run e 0 with
      | some op =>
        if (s.ctx op.ctx).tmo = 0 then s
        else awayEnd (bump (dropColl s e) syncPage 0 1) e cSyncTimeout (((s.colls.find? fun c => c.engine == e).map (collWritten s)).getD [])
      | none => s
    else s)

end Sys2Proof.Machine
end

