-- ==== Sys2Proof/Machine/Sec.lean ====
section
/-! DEFINITION. Images, life-cycle tokens, zeroisation and tamper (16, R456 to R465; R518, R519). -/

namespace Sys2Proof.Machine

open Sys2Proof

def cSecImageReject : Nat := 0xC001
def cSecLcRefused : Nat := 0xC002
def cSecTamper : Nat := 0xC004

/-! ### Fetching an image (R456) -/

/-- SEC_IMG_ADDR and SEC_IMG_LEN. -/
def imgAddr (s : State) : Nat := (regGet s secPage 0x50).toNat + (regGet s secPage 0x54).toNat * 2 ^ 32
def imgLen (s : State) : Nat := regField s secPage 0x58 0 29

/-- The extent is one of host memory, aligned, and holds a header and a body. -/
def imgExtentOk (s : State) : Bool :=
  imgAddr s % 64 == 0 && decide (320 < imgLen s) && decide (imgLen s ≤ 320 + 2 ^ 28) && decide (hostBase ≤ imgAddr s) &&
  decide (imgAddr s + imgLen s ≤ cxlBase)

/-- The vault takes images: the ROM has reached BOOT_STAGE 1, and neither halted nor been taken by a tamper or a test (R517, R518). -/
def vaultTakes (s : State) : Bool := decide (1 ≤ s.boot.stage) && decide (s.boot.stage ≤ 3) && !s.boot.inTamper && s.host.up

/-- A write of SEC_IMG_CTL: GO is ignored while an image is being verified. -/
def imgGo (s : State) (v : Word) : State :=
  if bit v.toNat 0 ∧ s.sec.imgState ≠ 1 ∧ vaultTakes s then
    s.setSec { s.sec with imgState := 1, imgReason := 0, img := if imgExtentOk s then s.raw (imgAddr s) (imgLen s) else [] }
  else s

/-- IMAGE_LOAD (R456, R467): through the physical function only. -/
def execImageLoad (a : Acc) (v : Word) (s : State) : Out := .next (if a = .host then imgGo s v else denied s a)

/-! ### Verification (R457, R458) -/

/-- Fields of an image. -/
def hdrKind (img : List Byte) : Nat := bits (fieldLE img 4 4) 0 4
def hdrSvn (img : List Byte) : Nat := bits (fieldLE img 4 4) 8 8
def hdrVersion (img : List Byte) : Word := BitVec.ofNat 32 (fieldLE img 8 4)
def hdrDigest (img : List Byte) : List Byte := slice img 0x10 48
def hdrPalSig (img : List Byte) : List Byte := slice img 0x70 96
def imgBody (img : List Byte) : List Byte := img.drop 320

/-- What the vault holds of an image. -/
def imgInfo (img : List Byte) : ImageInfo := { version := hdrVersion img, svn := hdrSvn img, digest := hdrDigest img }

/-- Every byte is 0. -/
def allZero (l : List Byte) : Bool := l.all (· == 0)

/-- Reason 1: MAGIC, a reserved field, KIND, LENGTH or the extent is invalid. -/
def hdrBad (img : List Byte) : Bool :=
  decide (img.length < 320) || fieldLE img 0 4 != 0x5A494D31 || bits (fieldLE img 4 4) 4 4 != 0 || fieldLE img 6 2 != 0 ||
  decide (6 < hdrKind img) || decide (63 < hdrSvn img) || fieldLE img 0xC 4 != img.length - 320 || img.length == 320 ||
  !allZero (slice img 0x40 48) || !allZero (slice img 0x130 16)

/-- OWN_SIG is required (R457). -/
def ownRequired (s : State) (kind : Nat) : Bool := kind == 5 || (decide (kind < 5) && s.sec.lc == 2)

/-- The SVN fuse counter of a kind, and the policy's minimum (R451, R459). -/
def svnFuse (s : State) (kind : Nat) : Nat := tget 0 s.sec.fuse kind
def svnMin (s : State) (kind : Nat) : Nat :=
  match s.sec.policy with
  | some p => Config.policyMin p.digest kind
  | none => 0

/-- The lowest reason for which an image is refused (R458); 0 when none applies. A token's signatures are the transition's (R462). -/
def imgReasonOf (s : State) (img : List Byte) (palOk ownOk loadOk : Bool) : Nat :=
  let k := hdrKind img
  if !loadOk ∨ hdrBad img then 1
  else if sha384 (imgBody img) ≠ hdrDigest img then 2
  else if (k < 5 ∧ !palOk) ∨ (k = 5 ∧ !allZero (hdrPalSig img)) then 3
  else if ownRequired s k ∧ (!ownOk ∨ !s.sec.ownerValid) then 4
  else if k < 5 ∧ (hdrSvn img < svnFuse s k ∨ hdrSvn img < svnMin s k) then 5
  else if (s.sec.lc = 4 ∧ 1 ≤ k ∧ k ≤ 5) ∨ (k = 5 ∧ s.sec.lc ≠ 2) then 6
  else 0

/-! ### Zeroisation (R449, R463, R465) -/

/-- Context, link, MACsec, job and transport keys, seeds, and the owner policy are zeroised; links without keys are DOWN. -/
def zeroiseKeys (s : State) : State :=
  let noKeys := fun (_ : Nat) (c : Ctx) => ({ c with memKey := none, sealKey := none, seed := none } : Ctx)
  let noSec := fun (_ : Nat) (m : Mac) => ({ m with cak := none, txAn := none, txPn := 0, txSak := none, rxSc := [] } : Mac)
  let noSeed := fun (_ : Nat) (j : Job) => ({ j with seed := 0 } : Job)
  let s1 := (List.range 12).foldl (fun s k => if (s.link k).keyed then linkDown s k (s.link k).cause else s) s
  { s1 with links := tmap {} (fun _ l => { l with keyTx := none, keyRx := none, nextRx := none, nonce := none }) s1.links, ctxs := tmap {} noKeys s1.ctxs, macs := tmap {} noSec s1.macs, jobs := tmap {} noSeed s1.jobs,
            sec := { s1.sec with otk := [], policy := none } }

/-- Every context other than 0 that is not FREE is released. -/
def releaseAll (s : State) : State :=
  (List.range 63).foldl (fun s i =>
    let c := (s.ctx (i + 1)).st
    if c = .free ∨ c = .releasing then s else releaseCtx s (i + 1)) s

/-! ### The life cycle (R462) -/

/-- A field of a token's body. -/
def tokTarget (b : List Byte) : Nat := fieldLE b 0 1

/-- The bytes of the nonce (R467). -/
def nonceBytes (s : State) : List Byte := (s.sec.nonce.map fun w => toLE 4 w.toNat).flatten

/-- The transition is allowed from the present state and the token carries the signatures it needs. -/
def lcAllowed (s : State) (target : Nat) (palOk ownOk : Bool) : Bool :=
  match s.sec.lc, target with
  | 0, 1 => palOk
  | 1, 2 => palOk && ownOk && decide (s.sec.slotsUsed < 8)
  | 2, 3 => ownOk || palOk
  | 3, 1 => palOk
  | 2, 4 => ownOk
  | 3, 4 => palOk
  | _, _ => false

/-- A token passes its checks. -/
def tokenOk (s : State) (b : List Byte) (palOk ownOk : Bool) : Bool :=
  b.length == (if s.sec.lc = 1 ∧ tokTarget b = 2 then 184 else 88) && allZero (slice b 1 7) &&
  slice b 8 48 == (List.range 48).map Config.idkHash && slice b 56 32 == nonceBytes s && lcAllowed s (tokTarget b) palOk ownOk

/-- Apply a token: RETURN and DEFUNCT at once, the others at the next cold reset. -/
def lcApply (s : State) (b : List Byte) : State :=
  match tokTarget b with
  | 3 => let s1 := zeroiseKeys (releaseAll s); s1.setSec { s1.sec with lc := 3, lcNext := none }
  | 4 => let s1 := zeroiseKeys (releaseAll s); s1.setSec { s1.sec with lc := 4, lcNext := none, pbk := none, huk := false, idk := false }
  | 2 => s.setSec { s.sec with lcNext := some 2, nextOwnerHash := slice b 88 48, claimPolicy := slice b 136 48 }
  | t => s.setSec { s.sec with lcNext := some t }

/-- Process a token: a fresh nonce is drawn, LC_DONE is posted. -/
def doToken (s : State) (b : List Byte) (palOk ownOk : Bool) : State :=
  let ok := tokenOk s b palOk ownOk
  let s1 := if ok then lcApply s b else pageErrOpen s secPage cSecLcRefused
  let (ws, s2) := drawWords 8 (s1.setSec { s1.sec with imgState := if ok then 2 else 3 })
  evt (s2.setSec { s2.sec with nonce := ws }) secPage 1

/-! ### Acceptance (R480, R518, R519) -/

/-- An image of a kind runs on every instance of it. -/
def runImage (s : State) (k : Nat) (i : ImageInfo) : State :=
  let s1 := s.setSec { s.sec with running := tput s.sec.running k i }
  s1.setSvc { s1.svc with instVer := s1.svc.instVer.filter fun p => p.1 / 65536 != k }

/-- The calibration image powers the laser modules, and calibration of the fed engines begins (R519). -/
def lightUp (s : State) : State :=
  (List.range 8).foldl (fun s m =>
    let s1 := laserOn s m
    if s1.boot.lit.contains m ∧ !s1.boot.stable.contains m then feedStable s1 m else s1) s

/-- What the kind of an image accepted during boot starts. -/
def bootStart (s : State) (k : Nat) : State :=
  if k = 0 then s.setBoot { s.boot with stage := max 2 s.boot.stage, wdnRun := 2 }
  else if k = 2 then lightUp s
  else s

/-- BOOT_STAGE 3 once the warden runs and NEED is 0: context 0 enters RUN (R35, R518). -/
def bootReady (s : State) : State :=
  if s.boot.stage = 2 ∧ s.boot.need.isEmpty then
    (s.setBoot { s.boot with stage := 3 }).setCtx 0 { s.ctx 0 with st := .run }
  else s

/-- An accepted image: applied at once during boot, staged afterwards; a policy is loaded at once. -/
def acceptImage (s : State) (img : List Byte) : State :=
  let k := hdrKind img
  let i := imgInfo img
  if k = 5 then
    let s1 := s.setSec { s.sec with policy := some i }
    bootReady (s1.setBoot { s1.boot with need := s1.boot.need.filter (· != 5) })
  else if s.boot.stage = 3 then s.setSec { s.sec with staged := some (k, i) }
  else
    let s1 := bootStart (runImage s k i) k
    bootReady (s1.setBoot { s1.boot with need := s1.boot.need.filter (· != k) })

/-- A refusal (R458): the reason stands in ERR_INFO0; the spec names no ERR_INFO1 (log entry 27). -/
def imgRejected (s : State) (r : Nat) : State :=
  pageErr { s with free := s.free + 1 } secPage cSecImageReject r (Config.draw s.free).toNat

/-- IMAGE_VERIFY (R458): the end of the verification, with what the signature checks and the fetch gave. -/
def execImageVerify (palSigOk ownSigOk loadOk : Bool) (s : State) : Out :=
  .next (
    if s.sec.imgState ≠ 1 then s
    else
      let img := s.sec.img
      let r := imgReasonOf s img palSigOk ownSigOk loadOk
      let s1 := s.setSec { s.sec with imgKind := hdrKind img, imgReason := r, img := [] }
      if r ≠ 0 then evt (imgRejected (s1.setSec { s1.sec with imgState := 3 }) r) secPage 0
      else if hdrKind img = 6 then evt (doToken s1 (imgBody img) palSigOk ownSigOk) secPage 0
      else evt (acceptImage (s1.setSec { s1.sec with imgState := 2 }) img) secPage 0)

/-! ### Tamper (R464, R465) -/

/-- TAMPER (R465): the record, DEFUNCT_PENDING and the latch; every volatile key is gone, every die is held, and only the SEC page
answers until the ROM completes DEFUNCT (R517). -/
def execTamper (sensor : Nat) (s : State) : Out :=
  .next (
    if !s.boot.standby ∨ 5 ≤ sensor then s
    else
      let l := s.sec.latched ||| BitVec.ofNat 5 (2 ^ sensor)
      let s1 := s.setSec { s.sec with latched := l, defunctPending := true }
      let s2 := if s1.boot.hub then evt (pageErrOpen (chargeEvery s1 cSecTamper noEng l.toNat false) secPage cSecTamper) secPage 2 else s1
      let s3 := resetDevice s2 .cold s2.boot.cause
      { s3 with regs := s2.regs.filter fun p => alwaysOnPage (p.1 / 4096) || p.1 / 4096 == secPage
                host := s2.host
                macs := []
                svc := { log := s2.svc.log, seq := s2.svc.seq }
                sec := { s3.sec with otk := [], nonce := s2.sec.nonce, lc := s2.sec.lc, lcNext := none }
                boot := { s3.boot with inTamper := true, portOn := s2.boot.portOn, stage := 5 } })

end Sys2Proof.Machine
end

