-- ==== Sys2Proof/Machine/Mailbox.lean ====
section
/-! DEFINITION. The DOE instances and the warden mailbox: sessions, messages, responses, measurements, relayed events (16, R452,
R453, R459, R460; 18, R501 to R504, R538). The warden firmware's part is carried out by these commands (log entry 14). -/

namespace Sys2Proof.Machine

open Sys2Proof

/-! ### Messages and responses (R500 to R502) -/

/-- The code under which an SPDM GET_MEASUREMENTS request waits. -/
def spdmCode : Nat := 0x10000

/-- The statuses of a response (R502). -/
def stOk : Nat := 0
def stBadMessage : Nat := 1
def stWrongState : Nat := 2
def stRefused : Nat := 3

/-- The code of the oldest message of a function. -/
def mbxHead (s : State) (fn : Nat) : Option Nat := (s.host.mbx.find? fun m => m.1 == fn).map (·.2)

/-- A response is ready: the function's vector is raised (R500). -/
def respond (s : State) (fn : Nat) (r : Resp) : State :=
  s.setHost { s.host with resp := tput s.host.resp fn r, msix := s.host.msix ++ [if fn = 0 then 1 else 2 * fn] }

/-- The mailbox is served: the warden firmware runs and is not quiesced for an update (R481). -/
def mbxServed (s : State) : Bool := s.boot.wdnRun == 2 && !quiescing s (pageOf 8 128)

/-- Handle the oldest message of a function, if it is of a code and the firmware serves the mailbox. -/
def onMail (fn code : Nat) (f : State → State × Resp) (s : State) : Out :=
  .next (
    if mbxServed s ∧ mbxHead s fn = some code then
      let rest := match takeFirst (fun (m : Nat × Nat) => m.1 == fn) s.host.mbx with
        | some (_, ms) => ms
        | none => []
      let (s1, r) := f (s.setHost { s.host with mbx := rest })
      respond s1 fn r
    else s)

/-- A response without a body. -/
def answer (code status : Nat) (dcode : Nat := 0) (index : Nat := 0) : Resp :=
  { code := code, status := status, dcode := BitVec.ofNat 16 dcode, index := index }

/-- A message is discarded and counted DOE_DISCARD (R501, R506). -/
def doeDiscard (s : State) : State := bump s hostPage 5 1

/-- A code belongs to the function: 1 to 6 to the virtual functions, 8 to 10 to the physical one, 7 to any (R503). -/
def fnTakes (fn code : Nat) : Bool := if 1 ≤ code ∧ code ≤ 6 then fn != 0 else if 8 ≤ code ∧ code ≤ 10 then fn == 0 else true

/-- DOE_MESSAGE (R452, R501, R502, R518): a code that no message has, a LENGTH that is not the payload's or the code's and a reserved byte
that is not 0 (`good` is false) are answered BAD_MESSAGE. -/
def execDoeMessage (fn : Nat) (msg : DoeMsg) (s : State) : Out :=
  .next (
    let here := s.host.sessions.contains fn
    if !s.host.up ∨ s.host.vfs < fn ∨ s.boot.inTamper then s
    else if s.boot.stage ≠ 2 ∧ s.boot.stage ≠ 3 then doeDiscard s
    else match msg with
      | .sessionStart ok =>
        if ok ∧ s.sec.pbk.isSome ∧ (s.sec.lc = 2 → s.sec.ownerValid) ∧ !here then
          s.setHost { s.host with sessions := s.host.sessions ++ [fn] }
        else s
      | .badAuth =>
        s.setHost { s.host with sessions := s.host.sessions.filter (· != fn) }
      | .spdm size => if 16384 < size then doeDiscard s else s.setHost { s.host with mbx := s.host.mbx ++ [(fn, spdmCode)] }
      | .palquel code size good inSession =>
        if 16384 < size ∨ !inSession ∨ !here ∨ !fnTakes fn code then doeDiscard s
        else if code = 0 ∨ 10 < code ∨ !good then respond s fn (answer (code % 65536) stBadMessage)
        else s.setHost { s.host with mbx := s.host.mbx ++ [(fn, code)] })

/-! ### Contexts (R503) -/

/-- Contexts may be created: BOOT_STAGE 3, and a life-cycle state that opens them; in FIELD a policy is loaded (R451, R461, R518). None
is on a device whose mesh has failed (R27; DESIGN CHOICE, log entry 69). -/
def ctxsOpen (s : State) : Bool :=
  s.boot.stage == 3 && !s.dead && (s.sec.lc == 0 || s.sec.lc == 3 || (s.sec.lc == 2 && s.sec.policy.isSome))

/-- CTX_OPEN (R503). -/
def execCtxOpen (n : Nat) (s : State) : Out :=
  onMail n 1 (fun s =>
    if n = 0 ∨ 64 ≤ n ∨ (s.ctx n).st ≠ .free ∨ !ctxsOpen s then (s, answer 1 stWrongState)
    else (openCtx s n, answer 1 stOk)) s

/-- A field of an item is beyond its range. -/
def itemBad : SetItem → Bool
  | .region idx _ _ _ => decide (64 ≤ idx)
  | .syncMap cls idx _ => decide (4 ≤ cls) || decide (4096 ≤ idx)
  | .quota d q => decide (8 ≤ d) || decide (2048 ≤ q)
  | .hart _ h => decide (2 ≤ h)
  | .queue e q => decide (4096 ≤ e) || decide (4 ≤ q)
  | .sealTab _ => false
  | .sealKey k _ => decide (5 ≤ k)
  | .grant e q _ h c => decide (4096 ≤ e) || decide (4 ≤ q) || decide (2 ≤ h) || decide (65536 ≤ c)

/-- An item of BUILDING only (R503). -/
def itemBuilds : SetItem → Bool
  | .hart _ _ | .sealKey _ _ | .grant _ _ _ _ _ => true
  | _ => false

/-- Apply an item as a warden write: the state, and the error code of a refusal. -/
def itemApply (s : State) (n : Nat) : SetItem → State × Nat
  | .region idx base limit attr =>
    regionWrite s n idx { valid := attr.getLsbD 0, base := base &&& ~~~(0xFFFF#52), limit := limit ||| 0xFFFF#52, attr := attr }
  | .syncMap cls idx entry => if cls = 3 then (s, 0) else mapWrite s n (cls * 4096 + idx) entry
  | .quota d q => quotaWrite s n d q
  | .hart core h =>
    match itemHart core h with
    | some k => bindHart s k n
    | none => (s, cBadEngine)
  | .queue e q => assignQueue s n e q
  | .sealTab a => (s.setCtx n { s.ctx n with sealTab := a &&& ~~~(0x3F#52) }, 0)
  | .sealKey k slots => (s.setCtx n { s.ctx n with keySel := k, otkSlots := slots }, 0)
  | .grant e q core h c =>
    match itemHart core h with
    | some k => setGrant s n e q k c
    | none => (s, cBadEngine)

/-- Apply items in order, stopping at the first refusal. -/
def itemsApply (n : Nat) : List SetItem → Nat → State → State × Resp
  | [], _, s => (s, answer 2 stOk)
  | it :: its, i, s =>
    if itemBuilds it ∧ (s.ctx n).st ≠ .building then (s, answer 2 stWrongState 0 i)
    else
      let (s1, code) := itemApply s n it
      if code ≠ 0 then (s1, answer 2 stRefused code i) else itemsApply n its (i + 1) s1

/-- CTX_SET (R503): not in FREE and RELEASING (log entry 35). -/
def execCtxSet (n : Nat) (items : List SetItem) (s : State) : Out :=
  onMail n 2 (fun s =>
    if items.any itemBad then (s, answer 2 stBadMessage)
    else if (s.ctx n).st = .free ∨ (s.ctx n).st = .releasing then (s, answer 2 stWrongState)
    else itemsApply n items 0 s) s

/-- A hart of a control core is bound to a context. -/
def coreOf (s : State) (n core : Nat) : Bool := [0, 1].any fun h =>
  match itemHart core h with
  | some k => (s.hart k).bound && (s.hart k).ctx == n
  | none => false

/-- CTX_LOAD (R38, R503). -/
def execCtxLoad (n core offset : Nat) (bytes : List Byte) (s : State) : Out :=
  onMail n 3 (fun s =>
    let c := s.ctx n
    let inst := core / 256 * 16 + (core % 256 - 0x20)
    if 8192 < bytes.length ∨ 0xC000 < offset + bytes.length then (s, answer 3 stBadMessage)
    else if c.st ≠ .building then (s, answer 3 stWrongState)
    else if !coreOf s n core then (s, answer 3 stRefused cNotAssigned)
    else
      let s1 := (s.cross 8 (inst / 16)).setCtx n { c with loads := c.loads ++ [(core, offset, bytes)] }
      ((bytes.zipIdx).foldl (fun (s : State) (p : Byte × Nat) =>
        { s with mem := wrByte s.mem (coreMemAddr inst (offset + p.2)) p.1 }) s1, answer 3 stOk)) s

/-- CTX_SEED (R96, R503): once, in BUILDING. A seed that is drawn is returned. -/
def execCtxSeed (n : Nat) (seed : Option Dword) (s : State) : Out :=
  onMail n 4 (fun s =>
    let c := s.ctx n
    if c.st ≠ .building ∨ c.seedSet then (s, answer 4 stWrongState)
    else match seed with
      | some d => (s.setCtx n { c with seed := some d, seedSet := true }, answer 4 stOk)
      | none =>
        let (d, s1) := drawFree s
        (s1.setCtx n { c with seed := some d, seedSet := true }, { answer 4 stOk with body := toLE 8 d.toNat })) s

/-- CTX_START (R45, R503). -/
def execCtxStart (n : Nat) (s : State) : Out :=
  onMail n 5 (fun s => if (s.ctx n).st ≠ .building ∨ s.dead then (s, answer 5 stWrongState) else (startCtx s n, answer 5 stOk)) s

/-- CTX_RELEASE (R36, R503). -/
def execCtxRelease (n : Nat) (s : State) : Out :=
  onMail n 6 (fun s =>
    if n = 0 ∨ (s.ctx n).st = .free ∨ (s.ctx n).st = .releasing then (s, answer 6 stWrongState)
    else (releaseCtx s n, answer 6 stOk)) s

/-! ### Events (R504, R538) -/

/-- The 40 bytes of an entry. -/
def eventBytes (e : CtxEvent) : List Byte :=
  toLE 2 e.kind ++ toLE 2 e.ptype ++ toLE 2 e.inst ++ toLE 2 e.code.toNat ++ ((padTo 0 8 e.words).map fun w => toLE 4 w.toNat).flatten

/-- The response body: entries dropped, entries returned, the entries. -/
def eventsBody (dropped : BitVec 16) (es : List CtxEvent) : List Byte :=
  toLE 2 dropped.toNat ++ toLE 2 es.length ++ (es.map eventBytes).flatten

/-- GET_EVENTS (R503, R504). -/
def execGetEvents (fn count : Nat) (s : State) : Out :=
  onMail fn 7 (fun s =>
    if count = 0 ∨ 64 < count then (s, answer 7 stBadMessage)
    else if fn = 0 then
      (s.setHost { s.host with events := s.host.events.drop count, evDropped := 0 },
       { answer 7 stOk with body := eventsBody s.host.evDropped (s.host.events.take count) })
    else
      let c := s.ctx fn
      (s.setCtx fn { c with events := c.events.drop count, evDropped := 0 },
       { answer 7 stOk with body := eventsBody c.evDropped (c.events.take count) })) s

/-- A 16-bit count that stops at its largest value. -/
def satInc16 (n : BitVec 16) : BitVec 16 := if n = 0xFFFF then n else n + 1

/-- Append an entry to a context's queue of 512, or drop and count it; the function's vector is raised when the queue becomes
non-empty (R500, R504). Context 0 has no queue. -/
def relayTo (s : State) (n : Nat) (e : CtxEvent) : State :=
  if n = 0 then s
  else
    let c := s.ctx n
    if 512 ≤ c.events.length then s.setCtx n { c with evDropped := satInc16 c.evDropped }
    else
      let s1 := s.setCtx n { c with events := c.events ++ [e] }
      if c.events.isEmpty then s1.setHost { s1.host with msix := s1.host.msix ++ [2 * n] } else s1

/-- Append an entry to the physical function's queue. -/
def relayHost (s : State) (e : CtxEvent) : State :=
  if 512 ≤ s.host.events.length then s.setHost { s.host with evDropped := satInc16 s.host.evDropped }
  else s.setHost { s.host with events := s.host.events ++ [e] }

/-- The entry of a page event: LO, and HI as the page captures it. -/
def pageEntry (ptype inst : Nat) (e : PageEvent) : CtxEvent :=
  { kind := 0, ptype := ptype, inst := inst, code := BitVec.ofNat 16 e.code,
    words := [e.info, BitVec.ofNat 32 (e.ctx + e.code * 256 + 2 ^ 31)] }

/-- An error record goes to its context, or to the physical function's queue when ALLCTX is set (R471, R538). -/
def relayRecord (s : State) (r : ErrRec) : State :=
  let w := (r.words.headD 0).toNat
  let e : CtxEvent := { kind := 1, ptype := 5, inst := 0, code := 0, words := r.words }
  if bit w 22 then relayHost s e else relayTo s (bits w 16 6) e

/-- EVENT_RELAY (R538): the firmware takes the head entry of a page queue or the log, or an SVC event, and passes it on. The code under
which an SVC event is passed is free (log entry 36). -/
def execEventRelay (src : RelaySrc) (s : State) : Out :=
  .next (
    if !mbxServed s then s
    else match src with
      | .sal d =>
        match (s.sal d).evq with
        | e :: rest => relayTo (s.setSal d { s.sal d with evq := rest }) e.ctx (pageEntry 12 d e)
        | [] => s
      | .sync =>
        match s.syncEvq with
        | e :: rest => relayTo { s with syncEvq := rest } e.ctx (pageEntry 15 8 e)
        | [] => s
      | .ovs f =>
        match (s.fabric f).evq with
        | e :: rest => relayTo (s.setFabric f { s.fabric f with evq := rest }) e.ctx (pageEntry 18 f e)
        | [] => s
      | .errLog =>
        match s.svc.log with
        | r :: rest => relayRecord (s.setSvc { s.svc with log := rest }) r
        | [] => s
      | .svc i =>
        if i < 3 ∧ bit (regGet s svcPage 0x10).toNat i then
          let s1 := regPut s svcPage 0x10 (regGet s svcPage 0x10 &&& ~~~BitVec.ofNat 32 (2 ^ i))
          let (d, s2) := drawFree s1
          relayHost s2 { kind := 0, ptype := 5, inst := 0, code := d.truncate 16, words := [] }
        else s)

/-! ### Keys, SVN and jobs (R453, R459, R503) -/

/-- KEY_INSTALL (R453): the object counter of a slot starts at 0 at each install. -/
def execKeyInstall (key : KeyMsg) (s : State) : Out :=
  onMail 0 8 (fun s =>
    match key with
    | .otk slot k sealer =>
      if 4 ≤ slot then (s, answer 8 stBadMessage)
      else (s.setSec { s.sec with otk := tput s.sec.otk slot { key := k, sealer := sealer, counter := 0 } }, answer 8 stOk)
    | .cak m ckn k =>
      if 16 ≤ m then (s, answer 8 stBadMessage)
      else (s.setMac m { s.mac m with cak := some { ckn := ckn, key := k } }, answer 8 stOk)) s

/-- SVN_COMMIT (R459, R475): the fuse rises to the SVN of the running image, never falls. -/
def execSvnCommit (kind : Nat) (s : State) : Out :=
  onMail 0 9 (fun s =>
    if 4 < kind then (s, answer 9 stBadMessage)
    else match tfind s.sec.running kind with
      | some i => (s.setSec { s.sec with fuse := tset 0 s.sec.fuse kind (max (svnFuse s kind) i.svn) }, answer 9 stOk)
      | none => (s, answer 9 stOk)) s

/-- A field of a job item is beyond its range. -/
def jobItemBad : JobItem → Bool
  | .entry slot table idx _ _ _ _ => decide (64 ≤ slot) || decide (4 ≤ table) || decide (16 ≤ idx)
  | .bind link slot _ => decide (12 ≤ link) || decide (64 ≤ slot)
  | .seed slot _ => decide (63 ≤ slot)
  | .admission slot => decide (63 ≤ slot)

/-- Apply a job item: the state, and the error code of a refusal. -/
def jobApply (s : State) : JobItem → State × Nat
  | .entry slot table idx w0 w1 w2 w3 =>
    let (s1, ok) := jobEntryWrite s slot table idx w0 w1 w2 w3
    (s1, if ok then 0 else cGrlNoRoute)
  | .bind k slot valid => (bindLink s k (BitVec.ofNat 32 (slot + b2n valid * 2 ^ 6)), 0)
  | .seed slot d => (s.setJob slot { s.jobSlot slot with seed := d }, 0)
  | .admission slot => (admitSlot s slot, 0)

/-- Apply job items in order, stopping at the first refusal. -/
def jobsApply : List JobItem → Nat → State → State × Resp
  | [], _, s => (s, answer 10 stOk)
  | it :: its, i, s =>
    let (s1, code) := jobApply s it
    if code ≠ 0 then (s1, answer 10 stRefused code i) else jobsApply its (i + 1) s1

/-- JOB_SET (R503). -/
def execJobSet (items : List JobItem) (s : State) : Out :=
  onMail 0 10 (fun s => if items.any jobItemBad then (s, answer 10 stBadMessage) else jobsApply items 0 s) s

/-! ### Measurements (R460) -/

/-- 48 zero bytes. -/
def zeroDigest : List Byte := List.replicate 48 0

/-- What the configuration digest of a context covers (R460), as numbers: programs, regions, names, queues, quotas, job slot, slots. -/
def ctxFacts (s : State) (n : Nat) : List Nat :=
  let c := s.ctx n
  (c.loads.map fun l => l.1 :: l.2.1 :: l.2.2.length :: l.2.2.map (·.toNat)).flatten ++
  ((c.region.filter (·.2.valid)).map fun r => [r.1, b2n r.2.valid, r.2.base.toNat, r.2.limit.toNat, r.2.attr.toNat]).flatten ++
  (c.map.map fun m => [m.1, m.2.toNat]).flatten ++ ctxQueues s n ++ ((List.range 8).map fun d => quotaOf s n d) ++
  [(jobOf s n).getD 64, c.otkSlots.toNat]

/-- The block of an image kind. -/
def imageBlock (s : State) (k : Nat) : Meas :=
  let i := tget {} s.sec.running k
  { index := k + 2, digest := i.digest, vals := [i.version.toNat, i.svn] }

/-- The block of a context: zero while it is FREE. -/
def ctxBlock (s : State) (n : Nat) : Meas :=
  { index := 0x10 + n,
    digest := if (s.ctx n).st = .free then zeroDigest else (List.range 48).map (Config.configDigest (ctxFacts s n)) }

/-- The block of a slot of a fabric: zero while it is empty. -/
def slotBlock (s : State) (f k : Nat) : Meas :=
  { index := 0x50 + 16 * f + k,
    digest := match (s.fabric f).image k with
      | some img => sha384 img
      | none => zeroDigest }

/-- The measurement blocks, in order of their index. -/
def measure (s : State) : List Meas :=
  let x := s.sec
  [{ index := 1, digest := (List.range 48).map Config.romDigest }] ++ (List.range 5).map (imageBlock s) ++
  [{ index := 7, digest := match x.policy with
      | some p => p.digest
      | none => zeroDigest },
   { index := 8, digest := x.ownerHash, vals := [x.lc, b2n x.defunctPending, x.ownerSlot] },
   { index := 9, vals := (List.range 5).map (svnFuse s) }] ++
  (List.range 63).map (fun i => ctxBlock s (i + 1)) ++
  ((List.range 4).map fun f => (List.range 16).map (slotBlock s f)).flatten

/-- GET_MEASUREMENTS (R460): signed by the PBK over the requester's nonce. No answer is given where no key remains (R461). -/
def execGetMeasurements (fn : Nat) (nonce : List Byte) (s : State) : Out :=
  .next (
    if mbxServed s ∧ mbxHead s fn = some spdmCode then
      let rest := match takeFirst (fun (m : Nat × Nat) => m.1 == fn) s.host.mbx with
        | some (_, ms) => ms
        | none => []
      let s1 := ({ s with free := s.free + 1 } : State).setHost { s.host with mbx := rest }
      if s.sec.pbk.isNone then s1
      else respond s1 fn { code := spdmCode, status := 0, blocks := measure s, nonce := nonce,
                           sig := (List.range 96).map (Config.signature (nonce ++ toLE 8 s.free)) }
    else s)

end Sys2Proof.Machine
end

