-- ==== Sys2Proof/Machine/Svc.lean ====
section
/-! DEFINITION. Fences, live update, the error log's registers and the die mesh (17, R476 to R485; R27, R510). -/

namespace Sys2Proof.Machine

open Sys2Proof

def cMeshFail : Nat := 0xD001
def cBayFenced : Nat := 0xD002

/-! ### Fences (R476 to R479) -/

/-- The register and bit of a part in the fence registers (R485). -/
def fenceReg (kind part : Nat) : Nat × Nat :=
  if kind = 0 then (0x64 + 4 * (part / 32), part % 32) else if kind = 1 then (0x84, part) else (0x88, part)

/-- Parts of a kind. -/
def fenceParts (kind : Nat) : Nat := if kind = 0 then 256 else if kind = 1 then 8 else 12

/-- The contexts that a bay's fence is charged to (R469, R478): the assigned one, and those bound to harts of the core whose memory
the bay holds. -/
def bayOwners (s : State) (b : Nat) : List Nat :=
  let c := bayCore b
  let hs := [2 * c, 2 * c + 1].filterMap fun h => if (s.hart h).bound then some (s.hart h).ctx else none
  (List.range 64).filter fun n => s.bayCtx b == some n || hs.contains n

/-- The instance being updated is a part that a fence, or its work, concerns (R482). -/
def updOnPart (s : State) (kind part : Nat) : Bool :=
  let i := s.svc.updAt
  s.svc.updState == 1 &&
  match kind, s.svc.updKind with
  | 0, 1 => i == coreEng (bayCore part)
  | 0, 4 => i == part
  | 1, 2 => (i == 2 * part || i == 2 * part + 1)
  | 2, 2 => i == part
  | _, _ => false

/-- A bay's fence (R478): no push is taken, queued work completes ENGINE_FENCED, running work is to stop with it, the core's harts stop;
then its contexts are charged. -/
def fenceBay (s : State) (b : Nat) : State :=
  let e := bayEng b
  let c := bayCore b
  let s1 := [2 * c, 2 * c + 1].foldl (fun s h => s.setHart h { s.hart h with stopped := true }) s
  let (s2, w1) := stopQueue s1 e 0 (fun _ => true) cEngineFenced
  let s3 := stopRunning s2 (fun o => o.engine == e) cEngineFenced
  let (s4, w2) := stopVec s3 b cEngineFenced
  let s5 := settle (s4, w1 ++ w2)
  settle (s5, chargeAll cBayFenced noEng 0 b (bayOwners s b))

/-- Begin a fence or an unfence. -/
def fenceBegin (s0 : State) (r : FenceReq) : State :=
  let s := if updOnPart s0 r.kind r.part ∧ r.on then failApply s0 cUpdateFail else s0
  let x := s.svc
  let drop := fun (l : List Nat) => l.filter (· != r.part)
  if r.kind = 0 then
    if r.on then fenceBay (s.setSvc { x with bays := drop x.bays ++ [r.part], busy := some r }) r.part
    else s.setSvc { x with busy := some r }
  else if r.kind = 1 then
    if r.on then
      feedUncal (feedDown (laserOff (s.setSvc { x with lmods := drop x.lmods ++ [r.part], busy := some r }) r.part) r.part 7) r.part
    else laserOn (s.setSvc { x with lmods := drop x.lmods, busy := some r }) r.part
  else if r.on then linkDown (s.setSvc { x with links := drop x.links ++ [r.part], busy := some r }) r.part 7
  else tryUp (s.setSvc { x with links := drop x.links, busy := some r }) r.part

/-- The part is fenced, or a held write will fence it. -/
def fenceWanted (s : State) (kind part : Nat) : Bool :=
  match s.svc.held.reverse.find? fun r => r.kind == kind && r.part == part with
  | some r => r.on
  | none =>
    match s.svc.busy with
    | some r => if r.kind = kind ∧ r.part = part then r.on
        else (if kind = 0 then s.svc.bays else if kind = 1 then s.svc.lmods else s.svc.links).contains part
    | none => (if kind = 0 then s.svc.bays else if kind = 1 then s.svc.lmods else s.svc.links).contains part

/-- A write of one fence bit (R476): one that arrives while a fence runs is held. -/
def fenceWrite (s : State) (kind part : Nat) (on : Bool) : State :=
  if fenceParts kind ≤ part ∨ fenceWanted s kind part = on then s
  else
    let (off, i) := fenceReg kind part
    let s1 := regSet s svcPage off i 1 (b2n on)
    let r : FenceReq := { kind := kind, part := part, on := on }
    if s1.svc.busy.isSome then s1.setSvc { s1.svc with held := s1.svc.held ++ [r] } else fenceBegin s1 r

/-- A write of a fence register: each bit that changes is a fence or an unfence, the lowest first. -/
def fenceWord (s : State) (kind base n : Nat) (v : Word) : State :=
  (List.range n).foldl (fun s i => fenceWrite s kind (base + i) (bit v.toNat i)) s

/-- The next held write is applied. -/
def fenceNext (s : State) : State :=
  match s.svc.held with
  | r :: rest => fenceBegin (s.setSvc { s.svc with busy := none, held := rest }) r
  | [] => s.setSvc { s.svc with busy := none }

/-- BAY_FENCE (R478). -/
def execBayFence (a : Acc) (b : Nat) (s : State) : Out := .next (wardenOnly s a fun s => fenceWrite s 0 b true)

/-- BAY_UNFENCE (R478). -/
def execBayUnfence (a : Acc) (b : Nat) (s : State) : Out := .next (wardenOnly s a fun s => fenceWrite s 0 b false)

/-- LMOD_FENCE (R479). -/
def execLmodFence (a : Acc) (m : Nat) (s : State) : Out := .next (wardenOnly s a fun s => fenceWrite s 1 m true)

/-- LMOD_UNFENCE (R479). -/
def execLmodUnfence (a : Acc) (m : Nat) (s : State) : Out := .next (wardenOnly s a fun s => fenceWrite s 1 m false)

/-- LINK_FENCE (R477). -/
def execLinkFence (a : Acc) (k : Nat) (s : State) : Out := .next (wardenOnly s a fun s => fenceWrite s 2 k true)

/-- LINK_UNFENCE (R477). -/
def execLinkUnfence (a : Acc) (k : Nat) (s : State) : Out := .next (wardenOnly s a fun s => fenceWrite s 2 k false)

/-- The running work of a bay has stopped. -/
def bayStopped (s : State) (b : Nat) : Bool := (s.run (bayEng b) 0).isNone && (closedOps (s.vec b).q).isEmpty

/-- A bay is powered off (R478): its slice, its pan and its vector unit keep nothing. -/
def bayPowerOff (s : State) (b : Nat) : State := clearMem ((s.setVec b {}).setPan b {}) (bayAddr b 0) (bayAddr b 0x30_0000)

/-- FENCE_DONE (R476): BUSY clears, the event is posted, and a held write is applied. A bay's fence ends once its work has stopped; its
unfence with BAY_UNFENCE_DONE. -/
def execFenceDone (s : State) : Out :=
  .next (
    match s.svc.busy with
    | none => s
    | some r =>
      if r.kind = 0 then
        if r.on ∧ bayStopped s r.part then evt (fenceNext (bayPowerOff s r.part)) svcPage 1 else s
      else evt (fenceNext s) svcPage 1)

/-- BAY_UNFENCE_DONE (R478): the slice is zeroed and the bay returns to the warden unassigned; the core's harts can run once neither of
its bays is fenced. -/
def execBayUnfenceDone (b : Nat) (s : State) : Out :=
  .next (
    if s.svc.busy = some { kind := 0, part := b, on := false } then
      let s1 := clearMem s (bayAddr b 0) (bayAddr b 0x30_0000)
      let s2 := freeQueue (s1.setSvc { s1.svc with bays := s1.svc.bays.filter (· != b) }) (bayEng b * 4)
      let c := bayCore b
      let s3 := if hartFenced s2 (2 * c) then s2
        else [2 * c, 2 * c + 1].foldl (fun s h => s.setHart h { s.hart h with stopped := false }) s2
      evt (fenceNext s3) svcPage 1
    else s)

/-! ### Live update (R480 to R482) -/

/-- The instances of an image kind, ascending (R481). -/
def updInstances (kind : Nat) : List Nat :=
  match kind with
  | 0 => [0]
  | 1 => (List.range 128).map coreEng
  | 2 => List.range 25
  | 3 => List.range 4
  | 4 => List.range 260
  | _ => []

/-- A connection of the die mesh that carries traffic retrains (R27). -/
def retrainConn (s : State) (c : Nat) : State :=
  if s.meshFailed.contains c then s else evt (bump s meshPage (c * 8 + 1) 1) meshPage 0

/-- Ask an instance to quiesce (R481). -/
def updQuiesce (s : State) (kind i : Nat) : State :=
  match kind with
  | 0 => s.setBoot { s.boot with wdnRun := 3 }
  | 1 => [0, 1].foldl (fun s h =>
      match engHart i h with
      | some k => s.setHart k { s.hart k with stopped := true }
      | none => s) s
  | 2 =>
    if i < 12 then startRecal s i
    else if i < 16 then groupDown (s.setBoot { s.boot with engCal := s.boot.engCal.filter (· != i) }) (i - 12)
    else if i = 24 then (List.range 14).foldl (fun s c => retrainConn s c) s
    else s
  | 3 => startHarvest s i
  | 4 => if 256 ≤ i then startHarvest s (i - 256) else s
  | _ => s

/-- An instance has quiesced (R481). -/
def updQuiet (s : State) (kind i : Nat) : Bool :=
  match kind with
  | 3 => !(s.fabric i).harvesting
  | 4 => if 256 ≤ i then !(s.fabric (i - 256)).harvesting else (s.vec i).owner.isNone
  | _ => true

/-- Begin the apply of the next instance, or end it. -/
def updNext (s : State) : State :=
  match s.svc.updLeft with
  | i :: rest => updQuiesce (s.setSvc { s.svc with updAt := i, updLeft := rest }) s.svc.updKind i
  | [] =>
    let s1 := s.setSvc { s.svc with updState := 2, updImg := none }
    let mine := decide (s1.sec.staged = s.svc.updImg.map fun i => (s.svc.updKind, i))
    evt (s1.setSec { s1.sec with staged := if mine then none else s1.sec.staged }) svcPage 2

/-- A write of SVC_UPD_CTL: APPLY is ignored while one runs, or no image of KIND is staged. -/
def applyWrite (s : State) (v : Word) : State :=
  let kind := regField s svcPage 0x90 0 4
  let inst := regField s svcPage 0x90 16 16
  let scope := if inst = 0xFFFF then updInstances kind else (updInstances kind).filter (· == inst)
  match s.sec.staged with
  | none => s
  | some (k, info) =>
    if !bit v.toNat 0 ∨ s.svc.updState = 1 ∨ k ≠ kind ∨ scope.isEmpty then s
    else
      let old := (updInstances kind).foldl (fun t i => tput t (instKey kind i) (instVersion s kind i)) s.svc.instVer
      updNext (s.setSvc { s.svc with updState := 1, updKind := kind, updLeft := scope, updImg := some info, instVer := old })

/-- APPLY (R480). -/
def execApply (a : Acc) (v : Word) (s : State) : Out := .next (wardenOnly s a fun s => applyWrite s v)

/-- UPDATE_INSTANCE_QUIESCED (R480 to R482): the new image is loaded and verified, and the instance runs it; one whose copy fails keeps
the old image, and the apply stops. -/
def execUpdateInstanceQuiesced (verified : Bool) (s : State) : Out :=
  .next (
    let k := s.svc.updKind
    let i := s.svc.updAt
    match s.svc.updImg with
    | none => s
    | some info =>
      if s.svc.updState ≠ 1 ∨ !updQuiet s k i then s
      else if !verified then failApply s cUpdateFail
      else
        let s1 := s.setSec { s.sec with running := tput s.sec.running k info }
        let s2 := s1.setSvc { s1.svc with instVer := tput s1.svc.instVer (instKey k i) info.version }
        updNext (resumeInst s2 k i))

/-- SVC_QUIESCE_TMO (R482): an instance has not quiesced in time. -/
def execSvcQuiesceTmo (s : State) : Out :=
  .next (if s.svc.updState = 1 ∧ !updQuiet s s.svc.updKind s.svc.updAt then failApply s cQuiesceTmo else s)

/-! ### The error log (R471, R485) -/

/-- A read of SVC_ERRLOG_W0: the head record leaves the log, and its other words are captured. -/
def errlogRead (s : State) (a : Acc) : State :=
  match s.svc.log with
  | [] => setRead s a 0
  | r :: rest =>
    let s1 := s.setSvc { s.svc with log := rest }
    let s2 := (List.range 7).foldl (fun s i => regPut s svcPage (0x48 + 4 * i) (r.words.getD (i + 1) 0)) s1
    setRead s2 a (r.words.headD 0)

/-- SVC_ERRLOG_W0 (R485, R538): the warden's read. -/
def execSvcErrlogW0 (a : Acc) (s : State) : Out :=
  .next (if isWarden s a ∧ accLive s a then errlogRead s a else deniedRead s a)

/-! ### The die mesh (R27, R510) -/

/-- MESH_FAIL (R27, R470): every context in RUN is aborted; FAILED clears only at a cold reset. -/
def execMeshFail (c : Nat) (s : State) : Out :=
  .next (
    if c < 14 ∧ s.boot.hub ∧ !s.meshFailed.contains c then
      evt (chargeEvery { s with meshFailed := s.meshFailed ++ [c] } cMeshFail noEng c false) meshPage 1
    else s)

/-- RETRAIN (R27): below software; it is counted and posted. -/
def execRetrain (c : Nat) (s : State) : Out := .next (if c < 14 ∧ s.boot.hub then retrainConn s c else s)

end Sys2Proof.Machine
end

