-- ==== Sys2Proof/Machine/Views.lean ====
section
/-! DEFINITION. What each register shows: the live fields of the register tables, and STAT and FW_VER of the common layout (R487,
R494, R537). A register without a live field shows its stored bits. -/

namespace Sys2Proof.Machine

open Sys2Proof

/-- A 32-bit word from a number. -/
def word (n : Nat) : Word := BitVec.ofNat 32 n

/-- A mask with one bit for each element of 0 to n − 1 that satisfies a test. -/
def maskFor (n : Nat) (p : Nat → Bool) : Nat := (List.range n).foldl (fun m i => m + b2n (p i) * 2 ^ i) 0

/-! ### The common layout (R487, R494, R537) -/

/-- The die of a page: a saltern for the pages of its blocks, none for the always-on pages (PWR and TIME), else the hub. -/
def pageDie (page : Nat) : Option Nat :=
  match (List.range 8).find? fun d => pageOnDie d page with
  | some d => some d
  | none => if alwaysOnPage page then none else some 8

/-- The block of a page is fenced (R477, R478, R537). -/
def pageFenced (s : State) (page : Nat) : Bool :=
  let i := page % 1024
  match page / 1024 with
  | 8 => decide (i < 128) && (s.svc.bays.contains (i / 16 * 32 + i % 16 * 2) || s.svc.bays.contains (i / 16 * 32 + i % 16 * 2 + 1))
  | 10 | 11 => s.svc.bays.contains i
  | 16 => decide (i < 12) && s.svc.links.contains i
  | _ => false

/-- The block of a page is asleep (R494, R436). -/
def pageAsleep (s : State) (page : Nat) : Bool :=
  (match pageDie page with | some d => decide (2 ≤ (s.die d).state) | none => false) ||
  match page / 1024 with
  | 10 | 11 => s.gated.contains (page % 1024)
  | 18 => let p := (s.fabric (page % 4)).pstate; p == 1 || p == 2
  | _ => false

/-- STAT (R494, R537). Block resets and device resets are single steps, so code 5 is never seen. -/
def statView (s : State) (page : Nat) : Word :=
  let q := bit (regGet s page 0xC).toNat 3
  let st := if pageFenced s page then 3 else if !enabled s page then 0 else if q then 2 else if pageAsleep s page then 4 else 1
  word (st + b2n q * 8)

/-- FW_VER (R487, R481). -/
def fwVer (s : State) (page : Nat) : Word :=
  let i := page % 1024
  match page / 1024 with
  | 1 | 2 | 5 | 9 => instVersion s 0 0
  | 7 => instVersion s 2 24
  | 8 => if i < 128 then instVersion s 1 (coreEng i) else (tget {} s.sec.running 1).version
  | 11 => instVersion s 4 i
  | 13 => if i < 8 then instVersion s 2 (16 + i) else instVersion s 2 24
  | 16 => if i < 12 then instVersion s 2 i else (tget {} s.sec.running 2).version
  | 17 => instVersion s 2 (12 + i / 4)
  | 18 => instVersion s 3 (i % 4)
  | _ => 0

/-! ### Hub pages -/

/-- HOST (R505). -/
def hostView (s : State) (off : Nat) : Word :=
  let h := s.host
  match off with
  | 0x40 => if h.up then word (1 + h.speed * 2 + h.width * 16 + b2n h.flit * 512) else 0
  | 0x44 => if h.up then word h.cxl.toNat else 0
  | 0x48 => word h.vfs
  | _ => regGet s hostPage off

/-- BOOT (R507, R525). -/
def bootView (s : State) (off : Nat) : Word :=
  let b := s.boot
  let e := regField s bootPage 0x54 0 4
  match off with
  | 0x40 => word (b.stage + maskFor 6 (fun k => b.need.contains k) * 256)
  | 0x44 => word b.cause
  | 0x4C => word (regField s bootPage 0x4C 0 16)
  | 0x50 => Config.romVersion
  | 0x58 => word (regField s bootPage 0x58 0 2 + b2n (tget 0 b.lbRun e != 0) * 4)
  | 0x5C => word ((tget 0 b.lbLock e).toNat + (tget 0 b.lbPass e).toNat * 256 + b2n b.lbRefused * 65536)
  | _ => regGet s bootPage off

/-- SEC (R467). -/
def secView (s : State) (off : Nat) : Word :=
  let x := s.sec
  let k := regField s secPage 0x48 0 4
  match off with
  | 0x40 => word (x.lc + b2n x.defunctPending * 8 + x.ownerSlot * 16 + b2n x.ownerValid * 128 + x.slotsUsed * 256 +
      b2n x.policy.isSome * 4096 + maskFor 4 (fun i => (tfind x.otk i).isSome) * 8192)
  | 0x44 => word x.latched.toNat
  | 0x4C => if k < 5 then word (svnFuse s k + (tget {} x.running k).svn * 256) else 0
  | 0x60 => word (x.imgState + x.imgReason * 256 + x.imgKind * 65536)
  | _ => if 0x64 ≤ off then x.nonce.getD ((off - 0x64) / 4) 0 else regGet s secPage off

/-- PWR_DIEn (R446). -/
def dieView (s : State) (d : Nat) : Word :=
  let x := s.die d
  word (x.req + x.state * 4 + b2n x.target.isSome * 16 + dieDuty s d * 32 + b2n (s.lends.any fun t => t / 64 == d) * 4096 +
    b2n x.thermal * 8192)

/-- The bays whose share of the budget is lent (R282): those of each lending context on its die that no fence holds. -/
def lentBays (s : State) : Nat :=
  (List.range 256).countP fun b => !s.svc.bays.contains b && s.lends.any fun t => t / 64 == b / 32 && s.bayCtx b == some (t % 64)

/-- PWR (R446). -/
def pwrView (s : State) (off : Nat) : Word :=
  match off with
  | 0x44 => word (min s.watts 8191 + min s.amps 255 * 65536)
  | 0x4C => word (s.ceil + lentBays s * 65536)
  | 0x7C =>
    let n := regField s pwrPage 0x78 0 6
    let x := s.sensor n
    if n ≤ 40 then word ((BitVec.ofInt 16 x.temp).toNat + b2n x.warn * 2 ^ 16 + b2n x.tripped * 2 ^ 17) else 0
  | _ => if 0x50 ≤ off ∧ off ≤ 0x70 then dieView s ((off - 0x50) / 4) else regGet s pwrPage off

/-- SVC (R485). -/
def svcView (s : State) (off : Nat) : Word :=
  match off with
  | 0x40 => word (s.svc.log.length + s.svc.seq.toNat * 65536)
  | 0x8C => word (b2n s.svc.busy.isSome)
  | 0x98 => word (s.svc.updState + s.svc.updAt * 65536)
  | _ => regGet s svcPage off

/-- TIME_TB3_OFS (R432): TB3 less the base that it follows, in nanoseconds, saturating. -/
def tb3Ofs (s : State) : Word :=
  let b := s.time.base s.time.active
  let d : Int := (tb3Ns s : Int) - (b.sec.toNat * 1000000000 + b.ns : Nat)
  BitVec.ofInt 32 (if d < -(2 ^ 31) then -(2 ^ 31) else if (2 ^ 31 : Int) ≤ d then 2 ^ 31 - 1 else d)

/-- The words NS, SEC low, SEC high and FRAC of a time. -/
def timeWord (b : TimeBase) (i : Nat) : Word :=
  match i with
  | 0 => word b.ns
  | 1 => word b.sec.toNat
  | 2 => word (b.sec.toNat / 2 ^ 32)
  | _ => b.frac

/-- A comparator's registers (R432), from TIME_TRIG_OWN. -/
def trigView (g : Trig) (off : Nat) : Word :=
  match off with
  | 0x84 => match g.owner with | some n => word (n + 2 ^ 31) | none => 0
  | 0x88 => g.ctl
  | 0x8C => word g.ns
  | 0x90 => word g.sec.toNat
  | 0x94 => word (g.sec.toNat / 2 ^ 32)
  | 0x98 => word g.period
  | 0x9C => word g.addr.toNat
  | 0xA0 => word (g.addr.toNat / 2 ^ 32)
  | 0xA4 => word g.value.toNat
  | _ => word (g.value.toNat / 2 ^ 32)

/-- TIME (R416, R432) as a reader sees it. -/
def timeView (s : State) (a : Acc) (off : Nat) : Word :=
  let t := s.time
  let r := t.reader a
  let k := adjBase s
  let x := if adjustable k then t.st k else {}
  if 0x84 ≤ off ∧ off ≤ 0xA8 then trigView (t.trig r.trig) off
  else
    match off with
    | 0x40 => word r.base
    | 0x48 => timeWord r.held 1
    | 0x4C => timeWord r.held 2
    | 0x50 => timeWord r.held 3
    | 0x58 => word ((regGet s timePage 0x58).toNat + t.active * 4 + b2n t.stepped * 16 + b2n t.slewing * 32)
    | 0x5C => tb3Ofs s
    | 0x64 => BitVec.ofInt 32 x.rate
    | 0x68 => BitVec.ofInt 32 x.slewRate
    | 0x6C => word x.slewTicks
    | 0x78 => word (b2n x.stepped + b2n (x.slewTicks != 0) * 2)
    | 0x80 => word r.trig
    | 0xC8 | 0xCC | 0xD0 | 0xD4 =>
      let sel := regGet s timePage 0xC4
      match tfind t.caps (bits sel.toNat 0 3) with
      | some l => timeWord (l.getD (bits sel.toNat 4 2) {}) ((off - 0xC8) / 4)
      | none => 0
    | _ => regGet s timePage off

/-- MESH (R510). -/
def meshView (s : State) (off : Nat) : Word :=
  let c := regField s meshPage 0x40 0 4
  let f := s.meshFailed.contains c
  match off with
  | 0x44 => if c < 14 then word (b2n (!f) + b2n f * 4) else 0
  | 0x48 => word (maskFor 14 (fun i => !s.meshFailed.contains i) + maskFor 14 (fun i => s.meshFailed.contains i) * 65536)
  | _ => regGet s meshPage off

/-! ### Control cores and contexts (R70, R508, R539) -/

/-- CC_HARTn_STAT: the run code and the tags that the hart holds. -/
def hartStat (s : State) (h : Nat) : Word :=
  let x := s.hart h
  let on := if 256 ≤ h then s.boot.wdnRun == 2 else x.bound
  let run := if x.halted then 3 else if x.blocked.isSome then 2 else if on && !x.stopped then 1 else 0
  word (run + hartTags s h * 65536)

/-- CC_RINGn. -/
def ringView (s : State) (h : Nat) : Word :=
  let x := s.hart h
  word (x.head.toNat + b2n x.phase * 256 + x.ring.length * 65536)

/-- CC (R70, R508). -/
def ccView (s : State) (i off : Nat) : Word :=
  let n := off / 4 % 2
  if i < 128 then
    let h := 2 * i + n
    match off with
    | 0x40 | 0x44 => word ((s.hart h).ctx + b2n (s.hart h).bound * 2 ^ 31)
    | 0x48 | 0x4C => hartStat s h
    | 0x50 | 0x54 => ringView s h
    | _ => 0
  else
    match off with
    | 0x40 => word (2 ^ 31)
    | 0x48 => hartStat s (128 + i)
    | 0x50 => ringView s (128 + i)
    | 0x80 => word s.boot.wdnRun
    | 0x84 => word (Config.draw s.free).toNat
    | 0x88 => word (min s.host.mbx.length 1023)
    | _ => 0

/-- The state codes of R35. -/
def ctxCode : CtxState → Nat
  | .free => 0
  | .building => 1
  | .run => 2
  | .aborted => 3
  | .releasing => 4

/-- CC_CTX (R539). -/
def ctxView (s : State) (n off : Nat) : Word :=
  let c := s.ctx n
  match off with
  | 0x40 => word (ctxCode c.st + b2n c.ackPending * 8 + c.epoch.toNat * 65536)
  | 0x64 => word ((List.range 256).countP fun h => hartCtx s h == some n)
  | _ => let d := (off - 0x44) / 4; word (quotaOf s n d + tagsInUse s n d * 65536)

/-! ### Engines of the salterns -/

/-- PAN (R140). -/
def panView (s : State) (b off : Nat) : Word :=
  let p := s.pan b
  let op := s.run (bayEng b) 0
  match off with
  | 0x40 =>
    let ph := if op.isNone then 0 else if p.stage = 4 ∨ p.stage = 5 then 2 else if 6 ≤ p.stage then 3 else 1
    word (ph + (s.queue (bayEng b) 0).length * 256 + (match op with | some o => o.tag * 65536 + 2 ^ 31 | none => 0))
  | 0x44 => word p.tile
  | _ => regGet s (panPage b) off

/-- VEC (R206). -/
def vecView (s : State) (b off : Nat) : Word :=
  let v := s.vec b
  match off with
  | 0x40 =>
    let st := if v.held then 2 else if !v.q.isEmpty then 1 else if !(s.pan b).outliers.isEmpty then 3 else 0
    word (st + vecWords v * 256 + b2n v.owner.isSome * 2 ^ 31)
  | 0x44 => match v.owner with | some h => word (hartEng h + hartNum h * 4096) | none => 0
  | 0x48 => word (v.rows - 1 + (v.cols - 1) * 32)
  | 0x4C => instVersion s 4 b
  | _ => regGet s (vecPage b) off

/-- The home entry that SAL_CMD.CTX and SAL_SEL_TID name. -/
def salSelected (s : State) (d : Nat) : Option SalEntry :=
  tfind (s.sal d).entries (salKey (regField s (salPage d) 0x50 0 6) (regGet s (salPage d) 0x4C).toNat)

/-- SAL (R159, R167). -/
def salView (s : State) (d off : Nat) : Word :=
  let x := s.sal d
  match off with
  | 0x48 => word (x.entries.length + x.cache.length * 65536)
  | 0x50 =>
    let staged := match salSelected s d with
      | some e => e.staged.isSome || e.invalidate || e.clearRung
      | none => false
    word (setBits (setBits (regGet s (salPage d) 0x50).toNat 17 1 (b2n staged)) 31 1 (b2n x.xfer.isSome))
  | 0x54 => word (winWord0 s d)
  | 0x58 => word (winWord1 s d)
  | 0x5C => match winEntry s d with | some (_, e) => e.step | none => 0
  | 0x60 => match winEntry s d with | some (_, e) => word (winEst e) | none => 0
  | 0x64 =>
    word (regField s (salPage d) 0x64 0 3 + (match winEntry s d with | some (_, e) => e.ovf.toNat * 256 | none => 0))
  | _ => regGet s (salPage d) off

/-- MEM (R249): a saltern's page has its stacks, the hub's page the region window and the seal table of MEM_RGN_SEL.CTX. -/
def memView (s : State) (d off : Nat) : Word :=
  if off = 0x40 ∨ off = 0x44 then
    if 8 ≤ d then 0
    else
      let x := s.stack (2 * d + (off - 0x40) / 4)
      word (b2n x.fenceReq + b2n x.fenced * 2 + b2n x.training * 4 + b2n x.trainFail * 8 + b2n x.hot * 16 +
        regField s (memPage d) off 8 8 * 256)
  else if 0x90 ≤ off then
    if d < 8 then 0
    else
      let t := (s.ctx (regField s (memPage 8) 0x90 0 6)).sealTab.toNat
      match off with
      | 0x9C => regGet s (memPage 8) 0x9C ||| 0xFFFF
      | 0xA8 => word t
      | 0xAC => word (t / 2 ^ 32)
      | _ => regGet s (memPage 8) off
  else regGet s (memPage d) off

/-- The engine of a DMA page (R487). -/
def dmaPageEng (i : Nat) : Nat := if i < 128 then i / 16 * 256 + 0x30 + i % 16 else 0x810 + (i - 128)

/-- DMA (R249). -/
def dmaView (s : State) (i off : Nat) : Word :=
  let e := dmaPageEng i
  match off with
  | 0x40 => word ((List.range 4).foldl (fun n q => n + (s.queue e q).length * 256 ^ q) 0 +
      b2n ((s.run e 0).isSome || (s.run e 1).isSome) * 2 ^ 31)
  | _ => regGet s (pageOf 14 i) off

/-! ### Hub engines -/

/-- SYNC (R286). -/
def syncView (s : State) (off : Nat) : Word :=
  let c := s.ctx (regField s syncPage 0x48 0 6)
  match off with
  | 0x44 =>
    let sel := (regGet s syncPage 0x40).toNat
    if bits sel 8 2 = 3 then 0 else tget 0 (s.ctx (sel % 64)).map (bits sel 8 2 * 4096 + bits sel 12 12)
  | 0x4C => c.tmo
  | 0x50 => word (b2n c.dlPolicy + b2n (ctxClosed s (regField s syncPage 0x48 0 6)) * 2 + b2n c.stopped * 4 + c.dlWindow.toNat * 65536)
  | _ => regGet s syncPage off

/-- The window words of an entry of the job page (R320). -/
def jobWindow (s : State) (slot table idx : Nat) : List Word :=
  let j := s.jobSlot slot
  if 63 ≤ slot ∨ 3 ≤ table then [0, 0, 0, 0]
  else if table = 0 then
    [word (b2n j.valid + j.ctx * 2 + b2n j.abortProp * 128 + b2n j.timeOk * 256 + j.tag.toNat * 65536), word j.bound.toNat,
     word j.id.toNat, word (j.id.toNat / 2 ^ 32)]
  else if table = 1 then [word (tget 0 j.nbrNode idx).toNat, word (tget 0 j.nbrLinks idx).toNat, 0, 0]
  else
    let r := tget {} j.rings idx
    [word r.size.toNat, word r.pos.toNat, word r.prev.toNat, word r.next.toNat]

/-- GRL (R318): the page of a link. -/
def grlView (s : State) (k off : Nat) : Word :=
  let l := s.link k
  let bind := (regGet s (grlPage k) 0x4C).toNat
  match off with
  | 0x40 => word (l.state + b2n l.half * 16 + b2n l.degraded * 32 + l.lanes.toNat * 256 + bits bind 0 7 * 65536)
  | 0x44 => word l.peer.toNat
  | 0x50 => word (l.diff.toNat + b2n l.mismatch * 2 ^ 31)
  | 0x54 => l.offset
  | 0x58 => l.rtt
  | 0x5C => word l.cause
  | _ => regGet s (grlPage k) off

/-- The GRL job page (R319, R320): TIME_OK of a job entry is live. -/
def jobView (s : State) (off : Nat) : Word :=
  let sel := (regGet s jobPage 0x44).toNat
  if off = 0x48 ∧ bits sel 6 2 = 0 ∧ sel % 64 < 63 then
    word (setBits (regGet s jobPage 0x48).toNat 8 1 (b2n (s.jobSlot (sel % 64)).timeOk))
  else regGet s jobPage off

/-- MAC (R345): the ring registers show the selected ring, MAC_SLOT_DATA the selected word of the selected slot. -/
def macView (s : State) (m off : Nat) : Word :=
  let x := s.mac m
  let (dir, r) := ringSel s m
  let g := x.ring dir r
  match off with
  | 0x40 => if m % 4 = 0 then regGet s (macPage m) 0x40 else 0
  | 0x74 => word (b2n x.up + b2n (preemptActive s m) * 2 + maskFor 8 (classPaused x) * 256)
  | 0x84 => word g.base.toNat
  | 0x88 => word (g.base.toNat / 2 ^ 32)
  | 0x8C => word (b2n g.en + g.log2 * 2 + g.bufsz * 32 + b2n g.sigEn * 1024 + g.sigId * 4096)
  | 0x90 => word g.sw.toNat
  | 0x94 => word g.hw.toNat
  | 0x9C =>
    let w := regField s (macPage m) 0x98 8 6
    if 37 < w then 0 else word (slotWord x (regField s (macPage m) 0x98 0 5) w)
  | 0xA0 => word (regField s (macPage m) 0xA0 0 4 + x.txAn.getD 0 * 16 + x.rxSc.length * 64)
  | _ => regGet s (macPage m) off

/-- OVS (R389): the page of a fabric. -/
def ovsView (s : State) (f off : Nat) : Word :=
  let x := s.fabric f
  let img := x.image (regField s (ovsPage f) 0x4C 0 4)
  match off with
  | 0x40 =>
    word (x.pstate + b2n x.active.isSome * 4 + x.active.getD 0 * 8 + x.epoch.toNat * 128 + b2n x.isHarvested * 2 ^ 9 +
      b2n x.ingress * 2 ^ 10 + b2n x.harvesting * 2 ^ 11 + b2n x.force.isSome * 2 ^ 12 + b2n x.stalled * 2 ^ 13 +
      b2n (x.tiles.any fun t => t.2.fault) * 2 ^ 14 + (s.queue (fabEng f) 0).length * 65536)
  | 0x44 => match x.ctx with | some n => word (n + 2 ^ 31) | none => word (regField s (ovsPage f) 0x44 0 6)
  | 0x48 => word (maskFor 16 fun k => (x.image k).isSome)
  | 0x50 => match img with | some i => word (imgWord i 8) | none => 0
  | 0xB0 => ovsSfnVer s f
  | _ =>
    if 0x54 ≤ off ∧ off ≤ 0x80 then match img with | some i => word (fieldLE (sha384 i) (off - 0x54) 4) | none => 0
    else regGet s (ovsPage f) off

/-- The path page of a fabric (R411). -/
def pathView (s : State) (f off : Nat) : Word :=
  let x := s.fabric f
  match off with
  | 0x54 =>
    let ing := x.tiles.filter fun t => t.2.conf && t.2.ttype == 3 && t.2.op == 1
    word ((x.recs.countP fun r => !recResolved x r.1) + maskFor 16 (fun i => match ing[i]? with
      | some t => !t.2.deliver.isEmpty
      | none => false) * 65536)
  | _ =>
    if 0x44 ≤ off ∧ off ≤ 0x50 then
      let m := s.mac (4 * f + (off - 0x44) / 4)
      word (m.nextReq.toNat + m.lastFinal.toNat * 65536)
    else regGet s (pathPage f) off

/-! ### Every register -/

/-- What a register shows to an accessor. -/
def regView (s : State) (a : Acc) (page off : Nat) : Word :=
  let i := page % 1024
  if (regInfo page off).isNone then 0
  else if off < 64 then
    match off with
    | 0x00 => word (page / 1024 * 65536 + i)
    | 0x0C => statView s page
    | 0x18 => evtPend s page
    | 0x28 => word (regField s page 0x28 0 1)
    | 0x2C => fwVer s page
    | _ => regGet s page off
  else
    match page / 1024 with
    | 1 => hostView s off
    | 2 => bootView s off
    | 3 => secView s off
    | 4 => pwrView s off
    | 5 => svcView s off
    | 6 => timeView s a off
    | 7 => meshView s off
    | 8 => ccView s i off
    | 9 => ctxView s i off
    | 10 => panView s i off
    | 11 => vecView s i off
    | 12 => salView s i off
    | 13 => memView s i off
    | 14 => dmaView s i off
    | 15 => syncView s off
    | 16 => if i < 12 then grlView s i off else jobView s off
    | 17 => if macUsed s i then macView s i off else 0
    | _ => if i < 4 then ovsView s i off else pathView s (i - 4) off

end Sys2Proof.Machine
end

