-- ==== Sys2Proof/Machine/Regs.lean ====
section
/-! DEFINITION. Register accesses: who may read and write what (R14, R15, R489 to R492 and the register text of every chapter), reads
with their side effects (R141, R490), writes with theirs, CTL and block resets (R494, R495). -/

namespace Sys2Proof.Machine

open Sys2Proof

/-! ### What is open to whom (R489) -/

/-- A context or its function holds a queue of the DMA engine of a page (R249). -/
def holdsDma (s : State) (n i : Nat) : Bool := (List.range 4).any fun q => s.ownerOf (dmaPageEng i) q == some n

/-- A link is bound to the job of a context (R318). -/
def linkOf (s : State) (n k : Nat) : Bool :=
  match linkSlot s k with
  | some j => (s.jobSlot j).valid && (s.jobSlot j).ctx == n
  | none => false

/-- A MAC is assigned to a context (R326). -/
def macOf (s : State) (n m : Nat) : Bool := bit (regGet s (macPage m) 0x44).toNat 31 && macCtx s m == n

/-- The block-specific registers that a hart of a context, or its function, may read. -/
def ctxReads (s : State) (n : Nat) (fn : Bool) (typ i off : Nat) : Bool :=
  match typ with
  | 1 => fn && (off == 0x40 || off == 0x44)
  | 3 => fn && (off == 0x40 || off == 0x44 || off == 0x4C)
  | 4 => fn && (off == 0x44 || off == 0x4C)
  | 6 => decide (0x40 ≤ off ∧ off ≤ 0x50) || decide (0x80 ≤ off ∧ off ≤ 0xA8)
  | 7 => fn && off == 0x48
  | 9 => fn && i == n && off == 0x40
  | 10 | 11 => fn && s.bayCtx i == some n
  | 12 => !fn && (decide (0x4C ≤ off ∧ off ≤ 0x6C) || decide (0xA8 ≤ off ∧ off ≤ 0xB8))
  | 14 => fn && holdsDma s n i
  | 15 => decide (0x54 ≤ off ∧ off ≤ 0x7C)
  | 16 => fn && decide (i < 12) && linkOf s n i
  | 17 => macOf s n i && (decide (0x80 ≤ off ∧ off ≤ 0x94) || decide (0xA8 ≤ off ∧ off ≤ 0xB4))
  | 18 => (s.fabric (i % 4)).ctx == some n && (decide (4 ≤ i) || (off != 0xA8 && off != 0xAC))
  | _ => false

/-- The chapter of a page opens it to a hart of a context, or to its function. -/
def ctxPage (s : State) (n : Nat) (fn : Bool) (typ i : Nat) : Bool :=
  match typ with
  | 1 | 3 | 4 | 7 => fn
  | 6 | 15 => true
  | 9 => fn && i == n
  | 10 | 11 => fn && s.bayCtx i == some n
  | 12 => !fn
  | 14 => fn && holdsDma s n i
  | 16 => fn && decide (i < 12) && linkOf s n i
  | 17 => macOf s n i
  | 18 => (s.fabric (i % 4)).ctx == some n
  | _ => false

/-- The registers that the physical function reads (R489, R446, R467, R505, R507, R508, R510, R416). -/
def hostReads (typ i off : Nat) : Bool :=
  off == 0 || off == 4 || off == 0xC || off == 0x2C || decide (1 ≤ typ ∧ typ ≤ 3) ||
  match typ with
  | 4 => off == 0x44 || off == 0x4C
  | 6 => decide (0x40 ≤ off ∧ off ≤ 0x50)
  | 7 => off == 0x48
  | 8 => decide (128 ≤ i) && (off == 0x80 || off == 0x84)
  | _ => false

/-- The host port serves a page: a device halted by the ROM or held by a test instruction serves the BOOT and SEC pages, one in the
tamper response the SEC page (R465, R517, R524). -/
def hostServes (s : State) (page : Nat) : Bool :=
  if s.boot.inTamper then page == secPage
  else if s.boot.testHold || s.boot.stage == 4 then page == secPage || page == bootPage
  else true

/-- A register is open to reads of an accessor (R489). -/
def readOpen (s : State) (a : Acc) (page off : Nat) : Bool :=
  let typ := page / 1024
  let i := page % 1024
  match a with
  | .host => hostServes s page && hostReads typ i off
  | .hart _ | .vf _ =>
    if isWarden s a then true
    else match accCtx s a with
      | none => false
      | some n =>
        (!isFn a || hostServes s page) &&
        (if off < 64 then ctxPage s n (isFn a) typ i && off != 0x28 else ctxReads s n (isFn a) typ i off)

/-- The registers that a hart of a context, or its function, may write (R162, R283, R326, R389, R411, R416, R426). -/
def ctxWrites (s : State) (n : Nat) (fn : Bool) (typ i off : Nat) : Bool :=
  match typ with
  | 6 => off == 0x40 || off == 0x80 || decide (0x88 ≤ off ∧ off ≤ 0xA8)
  | 12 => !fn && (decide (0x4C ≤ off ∧ off ≤ 0x64) || decide (0xA8 ≤ off ∧ off ≤ 0xB0))
  | 15 => off == 0x54
  | 17 => macOf s n i && decide (0x80 ≤ off ∧ off ≤ 0x90)
  | 18 => (s.fabric (i % 4)).ctx == some n &&
    (if i < 4 then off == 0x4C || off == 0x94 || off == 0x98 else off == 0x40 || off == 0x58)
  | _ => false

/-- A register is open to writes of an accessor. The image registers belong to the physical function (R467). -/
def writeOpen (s : State) (a : Acc) (page off : Nat) : Bool :=
  let typ := page / 1024
  let i := page % 1024
  let img := typ == 3 && decide (0x50 ≤ off ∧ off ≤ 0x5C)
  match a with
  | .host =>
    hostServes s page && (img || (typ == 2 && off == 0x48) || (typ == 1 && (off == 0x4C || off == 0x50 || off == 0x54)) ||
      (typ == 6 && off == 0x40))
  | .hart _ | .vf _ =>
    if isWarden s a then !img
    else match accCtx s a with
      | none => false
      | some n => (!isFn a || hostServes s page) && ctxWrites s n (isFn a) typ i off

/-! ### Reads -/

/-- The counter whose LO register stands at an offset: its index, none where a selector names no counter, and its HI register. -/
def counterAt (s : State) (page off : Nat) : Option (Option Nat × Nat) :=
  let row := fun (base n : Nat) =>
    if base ≤ off ∧ (off - base) % 8 = 0 ∧ (off - base) / 8 < n then some (some ((off - base) / 8), off + 4) else none
  let sel := fun (at_ so w n : Nat) =>
    let k := regField s page so 0 w
    if off = at_ then some (if k < n then some k else none, off + 4) else none
  let i := page % 1024
  match page / 1024 with
  | 1 => sel 0x58 0x54 3 6
  | 2 => if off = 0x60 ∨ off = 0x68 then
      some (some (lbCounter (regField s page 0x54 0 4) (regField s page 0x54 4 3) ((off - 0x60) / 8)), off + 4) else none
  | 5 => row 0xA0 1
  | 6 => sel 0xF0 0xEC 3 6
  | 7 =>
    let c := regField s page 0x40 0 4
    if off = 0x4C then some (if c < 14 then some (c * 8 + regField s page 0x40 4 2) else none, off + 4) else none
  | 10 => row 0x48 5
  | 11 => row 0x50 5
  | 12 => row 0x70 5
  | 13 => row 0x50 7
  | 14 => row 0x48 3
  | 15 => row 0x80 5
  | 16 => if i < 12 then row 0x60 7 else none
  | 17 => if macUsed s i then sel 0xAC 0xA8 6 64 else none
  | 18 => if i < 4 then sel 0x9C 0x98 4 13 else sel 0x5C 0x58 4 16
  | _ => none

/-- Counters of what no command of the table brings (log entry 9): corrected and replayed PCIe traffic, retries of a mesh
connection, codewords that the FEC of a link met in error, and TX_ERR, whose occasion no rule names. The bytes of a mesh connection
are `meshCount`'s. -/
def freeCounter (page idx : Nat) : Bool :=
  match page / 1024 with
  | 1 => idx == 3 || idx == 4
  | 7 => idx % 8 == 0
  | 16 => idx == 2 || idx == 3
  | 17 => idx == 14
  | _ => false

/-- BYTES_A and BYTES_B of a mesh connection (R510). -/
def meshBytes (page idx : Nat) : Bool := page / 1024 == 7 && (idx % 8 == 2 || idx % 8 == 3)

/-- The bytes that have crossed a direction of a connection since its counter was last read: a free number where traffic crossed it,
none where no route of that traffic takes it (R23, R24; log entry 68). -/
def meshCount (s : State) (page idx : Nat) : State :=
  let k := idx / 8 * 2 + (idx % 8 - 2)
  if s.crossed.contains k then bumpFree { s with crossed := s.crossed.filter (· != k) } page idx else s

/-- Read a counter, or 0 where its selector names none (R141). -/
def counterRead (s : State) (a : Acc) (page : Nat) (c : Option Nat × Nat) : State :=
  match c.1 with
  | some idx => readCounter (if meshBytes page idx then meshCount s page idx
      else if freeCounter page idx then bumpFree s page idx else s) a page idx c.2
  | none => setRead (regPut s page c.2 0) a 0

/-- A read of ERR_CODE, ERR_INFO0 or ERR_INFO1: a context's does not clear it (R490). -/
def errRead (s : State) (a : Acc) (page off : Nat) : State :=
  let s1 := setRead s a (regGet s page off)
  if isWarden s a ∨ a = .host then regPut s1 page off 0 else s1

/-- A context sees the debug view only of its own objects (R283): the selection while it names the context, what was captured while it
is the context's object. -/
def dbgHidden (s : State) (a : Acc) (page off : Nat) : Bool :=
  page == syncPage && !isWarden s a &&
  (accCtx s a != if off = 0x54 then some (regField s syncPage 0x54 0 6) else s.dbgCtx)

/-- A context sees a comparator's registers only where it owns the comparator (R426). -/
def trigHidden (s : State) (a : Acc) (page off : Nat) : Bool :=
  page == timePage && decide (0x84 ≤ off ∧ off ≤ 0xA8) && !trigOpen s a

/-- A read of a register that is open to the accessor, with its side effects. -/
def openRead (s : State) (a : Acc) (page off : Nat) : State :=
  let typ := page / 1024
  let i := page % 1024
  if 0x1C ≤ off ∧ off ≤ 0x24 then errRead s a page off
  else if off < 64 then setRead s a (regView s a page off)
  else match counterAt s page off with
    | some c => counterRead s a page c
    | none =>
      if typ = 5 ∧ off = 0x44 then errlogRead s a
      else if typ = 6 ∧ off = 0x44 then readTime s a
      else if typ = 6 ∧ off = 0xD8 then stampRead s a
      else if typ = 12 ∧ off = 0x68 then winCounter s a i
      else if typ = 12 ∧ off = 0xA0 then salEvqRead s a i
      else if typ = 15 ∧ off = 0xB0 then syncEvqRead s a
      else if typ = 18 ∧ i < 4 ∧ off = 0xA8 then ovsEvqRead s a i
      else if dbgHidden s a page off ∨ trigHidden s a page off then setRead s a 0
      else
        let s1 := setRead s a (regView s a page off)
        if typ = 8 ∧ 128 ≤ i ∧ off = 0x84 then { s1 with free := s1.free + 1 } else s1

/-- The die of an accessor: the hub for a function. -/
def accDie : Acc → Nat
  | .hart h => hartEng h / 256
  | _ => 8

/-- A register access crosses the mesh between its accessor's die and its page's (R24); a function's wakes the hub and the die (R439). -/
def crossReg (s : State) (a : Acc) (page : Nat) : State :=
  let d := (pageDie page).getD 8
  if isFn a then hostReach s d else s.cross (accDie a) d

/-- A read of a 32-bit register by a hart or a function (R490): the value stands in `readVal`. A function's read of a page that does
not exist reads 0 and is counted; the caller traps a hart's. -/
def readReg (s0 : State) (a : Acc) (page off : Nat) : State :=
  let s := crossReg s0 a page
  if !pageMapped page then setRead (if isFn a then bump s hostPage 0 1 else s) a 0
  else if (regInfo page off).isNone then setRead s a 0
  else if readOpen s a page off then openRead s a page off
  else deniedRead s a

/-! ### CTL (R494, R495) -/

/-- The pages whose blocks have no quiesce point: QUIESCED follows QUIESCE at once (R495). -/
def quietAtOnce (page : Nat) : Bool := let t := page / 1024; t == 2 || t == 3 || t == 4 || t == 6

/-- What QUIESCE written 1 asks of a block (R481, R495): a core's harts stop, a fabric is harvested. -/
def beginQuiesce (s : State) (page : Nat) : State :=
  let i := page % 1024
  match page / 1024 with
  | 8 => if i < 128 then updQuiesce s 1 (coreEng i) else s
  | 18 => if i < 4 then updQuiesce s 3 i else s
  | _ => s

/-- What QUIESCE written 0 resumes. -/
def endQuiesce (s : State) (page : Nat) : State :=
  let i := page % 1024
  match page / 1024 with
  | 8 => if i < 128 then resumeInst s 1 (coreEng i) else s
  | 16 => if i < 12 then pump s i else s
  | 18 => if i < 4 then resumeInst s 3 i else s
  | _ => s

/-- A block has finished what it had started (R481, R495). -/
def blockQuiet (s : State) (page : Nat) : Bool :=
  let i := page % 1024
  match page / 1024 with
  | 5 => s.svc.busy.isNone && s.svc.updState != 1
  | 10 => (s.run (bayEng i) 0).isNone
  | 11 => (s.vec i).owner.isNone && (s.vec i).words == 0
  | 12 => (s.sal i).xfer.isNone
  | 14 => (s.run (dmaPageEng i) 0).isNone && (s.run (dmaPageEng i) 1).isNone
  | 16 => decide (12 ≤ i) || (s.link i).state != 7
  | 17 => (s.mac i).cur.isNone && (s.mac i).cut.isNone
  | 18 => if i < 4 then !(s.fabric i).harvesting && (s.run (fabEng i) 0).isNone
    else (s.fabric (i - 4)).builder.isEmpty && (s.fabric (i - 4)).memq.isEmpty
  | _ => true

/-- The queue of an engine is assigned to a context other than 0, or holds work of one. -/
def engineHeld (s : State) (e : Nat) : Bool :=
  (List.range 4).any fun q => (match s.ownerOf e q with | some n => n != 0 | none => false) || (s.queue e q).any fun o => o.ctx != 0

/-- The block of a page is assigned to a context other than 0, or holds queued work of one (R495). -/
def blockHeld (s : State) (page : Nat) : Bool :=
  let i := page % 1024
  match page / 1024 with
  | 6 => s.time.trigs.any fun p => match p.2.owner with | some n => n != 0 | none => false
  | 8 => decide (i < 128) && [2 * i, 2 * i + 1].any fun h => (s.hart h).bound && (s.hart h).ctx != 0
  | 9 => i != 0 && (s.ctx i).st != .free
  | 10 | 11 => engineHeld s (bayEng i)
  | 12 => ((s.sal i).reqs ++ (s.sal i).corr).any (fun r => r.ctx != 0) || (s.sal i).obs.any (fun o => o.ctx != 0) ||
    (match (s.sal i).xfer with | some (n, _) => n != 0 | none => false)
  | 13 => decide (8 ≤ i) && (s.ctxs.any fun c => c.1 != 0 && c.2.region.any fun r => r.2.valid)
  | 14 => engineHeld s (dmaPageEng i)
  | 15 => (allWaits s).any fun w => w.ctx != 0
  | 16 => if i < 12 then (match linkSlot s i with | some j => (s.jobSlot j).valid && (s.jobSlot j).ctx != 0 | none => false)
    else s.jobs.any fun j => j.2.valid
  | 17 => macCtx s i != 0
  | 18 => match (s.fabric (i % 4)).ctx with | some n => n != 0 | none => false
  | _ => false

/-- The registers of a page whose home is not the page itself return to their reset values: banked settings, and what the chapters
add (R382, R411, R415). -/
def resetBanks (s : State) (page : Nat) : State :=
  let i := page % 1024
  match page / 1024 with
  | 6 =>
    let t := s.time
    s.setTime { running := t.running, tb := t.tb.filter fun b => b.1 == 0 }
  | 9 => { s with quota := s.quota.filter fun q => q.1 / 8 != i }
  | 11 => s.setVec i { s.vec i with rows := 32, cols := 32 }
  | 12 => s.setSal i { s.sal i with evq := [], window := none, winW0 := none, winW1 := none }
  | 13 => if i < 8 then [2 * i, 2 * i + 1].foldl (fun s k => stackFenceWrite k false s) s
    else { s with ctxs := tmap {} (fun _ (c : Ctx) => { c with region := [], sealTab := 0 }) s.ctxs }
  | 15 => { s with syncEvq := [], ctxs := tmap {} (fun _ (c : Ctx) => { c with map := [], tmo := 1000000, dlPolicy := false, dlWindow := 100 }) s.ctxs }
  | 16 => if i < 12 then s else { s with jobs := [] }
  | 17 => s.setMac i { s.mac i with rings := [], slots := [] }
  | 18 =>
    if i < 4 then let s1 := assignFabric s i none; s1.setFabric i { s1.fabric i with evq := [] } else clearPath s (i - 4)
  | _ => s

/-- The fence registers follow the fences, and the boot and security pages their state, through a block reset. -/
def resetKeeps (page off : Nat) : Bool := page == svcPage && decide (0x64 ≤ off ∧ off ≤ 0x88)

/-- A block reset (R495): every register of the page returns to its reset value, LOCK included. -/
def resetBlock (s : State) (page : Nat) : State :=
  let s1 := clearCounters (resetBanks s page) page
  { s1 with regs := s1.regs.filter fun r => r.1 / 4096 != page || resetKeeps page (r.1 % 4096) }

/-- RESET takes effect (R495): QUIESCED is 1, CTL_LOCK is 0, and the block is neither assigned to a context other than 0 nor holding
queued work of one. -/
def resetTakes (s : State) (page : Nat) : Bool :=
  bit (regGet s page 0xC).toNat 3 && !bit (regGet s page 0x28).toNat 0 && !blockHeld s page

/-- A write of CTL (R495). A write with RESET that does not take effect is ignored. While a loopback test runs on its engine, a write
that would enable a link is ignored (R525). -/
def ctlWrite (s : State) (page : Nat) (v : Word) : State :=
  let link := page / 1024 == 16 && decide (page % 1024 < 12)
  if bit (regGet s page 0x28).toNat 0 then s
  else if bit v.toNat 2 then (if resetTakes s page then resetBlock s page else s)
  else if link ∧ bit v.toNat 0 ∧ tget 0 s.boot.lbRun (page % 1024) ≠ 0 then s
  else
    let was := quiescing s page
    let s1 := regPut s page 8 (word (v.toNat % 4))
    let s2 :=
      if bit v.toNat 1 then
        let s3 := if was then s1 else beginQuiesce s1 page
        if quietAtOnce page then regSet s3 page 0xC 3 1 1 else s3
      else
        let s3 := regSet s1 page 0xC 3 1 0
        if was then endQuiesce s3 page else s3
    if link then tryUp s2 (page % 1024) else s2

/-- A write of LOCK (R15, R494): the first after reset takes effect. Bit 1 of the stored word, which no read shows, records it. -/
def lockWrite (s : State) (page : Nat) (v : Word) : State :=
  if regField s page 0x28 0 2 = 0 then regPut s page 0x28 (word (v.toNat % 2 + 2)) else s

/-! ### Writes of each block -/

/-- A plain write with a stored value in place of one that the register does not take. -/
def putClamped (s : State) (page off : Nat) (v : Word) (f : Nat → Nat) : State := plainWrite s page off (word (f v.toNat))

/-- A field of a number that is 0 is stored as 1. -/
def noZero (n lo w : Nat) : Nat := if bits n lo w = 0 then setBits n lo w 1 else n

/-- The fields of a comparator (R426, R427); every field but ARM is ignored while it is armed. -/
def trigFieldWrite (s : State) (i off : Nat) (v : Word) : State :=
  let g := s.time.trig i
  let n := v.toNat
  if trigLocked s i then s
  else putTrig s i (match off with
    | 0x8C => { g with ns := min (n % 2 ^ 30) 999999999 }
    | 0x90 => { g with sec := BitVec.ofNat 48 (setBits g.sec.toNat 0 32 n) }
    | 0x94 => { g with sec := BitVec.ofNat 48 (setBits g.sec.toNat 32 16 n) }
    | 0x98 => { g with period := if n = 0 then 0 else max n 1000 }
    | 0x9C => { g with addr := BitVec.ofNat 52 (setBits g.addr.toNat 0 32 (n / 8 * 8)) }
    | 0xA0 => { g with addr := BitVec.ofNat 52 (setBits g.addr.toNat 32 20 n) }
    | 0xA4 => { g with value := BitVec.ofNat 64 (setBits g.value.toNat 0 32 n) }
    | _ => { g with value := BitVec.ofNat 64 (setBits g.value.toNat 32 32 n) })

/-- Writes of the TIME page (R416 to R432). -/
def timeRegWrite (s : State) (a : Acc) (off : Nat) (v : Word) : State :=
  let r := s.time.reader a
  let n := v.toNat
  match off with
  | 0x40 => s.setTime (s.time.setReader a { r with base := n % 4 })
  | 0x54 => domWrite v s
  | 0x58 => tb3Write v s
  | 0x64 => rateWrite v s
  | 0x68 => adjust s fun x => { x with slewRate := v.toInt }
  | 0x6C => slewWrite v s
  | 0x74 => stepWrite v s
  | 0x78 => reopenWrite v s
  | 0x80 => s.setTime (s.time.setReader a { r with trig := n % 16 })
  | 0x84 => trigOwnWrite a v s
  | 0x88 => trigAccess s a fun s i => trigCtlWrite s i v
  | 0xBC => capCtlWrite v s
  | _ =>
    if 0x8C ≤ off ∧ off ≤ 0xA8 then trigAccess s a fun s i => trigFieldWrite s i off v
    else if 0xAC ≤ off ∧ off ≤ 0xB8 then putClamped s timePage off v fun n => setBits n 0 20 (max (bits n 0 20) 8)
    else plainWrite s timePage off v

/-- Writes of the SAL page (R162, R163, R167). -/
def salRegWrite (s : State) (a : Acc) (d off : Nat) (v : Word) : State :=
  let p := salPage d
  match off with
  | 0x40 => putClamped s p off v fun n => noZero n 16 8
  | 0x44 => putClamped s p off v fun n => noZero n 0 12
  | 0x50 => salCmdWrite s a d v
  | 0x54 => s.setSal d { s.sal d with winW0 := some v.toNat }
  | 0x58 => winWrite1 s d v
  | 0x64 =>
    let s1 := regPut s p off (word (v.toNat % 8))
    match winEntry s1 d with
    | some (k, e) => putEntry s1 d k { e with ovf := e.ovf &&& ~~~(BitVec.ofNat 6 (bits v.toNat 8 6)) }
    | none => s1
  | 0xB0 => salXferWrite s a d v
  | _ => plainWrite s p off v

/-- Writes of a MEM page (R226, R240, R247 to R249): stacks on the salterns' pages, the region window on the hub's. -/
def memRegWrite (s : State) (d off : Nat) (v : Word) : State :=
  let p := memPage d
  if off = 0x40 ∨ off = 0x44 then
    if 8 ≤ d then s
    else
      let s1 := regPut s p off (word (setBits (regReset p off).toNat 8 8 (max (bits v.toNat 8 8) 1)))
      stackFenceWrite (2 * d + (off - 0x40) / 4) (bit v.toNat 0) s1
  else if off < 0x90 then plainWrite s p off v
  else if d < 8 then s
  else
    let n := regField s p 0x90 0 6
    let c := s.ctx n
    match off with
    | 0x90 => rgnSelWrite v s
    | 0xA4 => rgnAttrWrite v s
    | 0xA8 => s.setCtx n { c with sealTab := BitVec.ofNat 52 (setBits c.sealTab.toNat 0 32 (v.toNat / 64 * 64)) }
    | 0xAC => s.setCtx n { c with sealTab := BitVec.ofNat 52 (setBits c.sealTab.toNat 32 20 v.toNat) }
    | _ => plainWrite s p off v

/-- Writes of the SYNC page (R252, R277, R283, R286). -/
def syncRegWrite (s : State) (a : Acc) (off : Nat) (v : Word) : State :=
  let n := regField s syncPage 0x48 0 6
  let c := s.ctx n
  match off with
  | 0x44 => mapEntWrite v s
  | 0x4C => s.setCtx n { c with tmo := v }
  | 0x50 => s.setCtx n { c with dlPolicy := bit v.toNat 0, dlWindow := BitVec.ofNat 16 (max (bits v.toNat 16 16) 1) }
  | 0x54 => dbgSelWrite s a v
  | _ => plainWrite s syncPage off v

/-- A write of GRL_JOB_SEL loads the window with the selected entry (R319, R320). -/
def jobSelWrite (s : State) (v : Word) : State :=
  let s1 := plainWrite s jobPage 0x44 v
  let w := jobWindow s1 (bits v.toNat 0 6) (bits v.toNat 6 2) (bits v.toNat 8 4)
  (List.range 4).foldl (fun s i => regPut s jobPage (0x48 + 4 * i) (w.getD i 0)) s1

/-- Writes of the GRL pages (R297, R318 to R320). -/
def grlRegWrite (s : State) (i off : Nat) (v : Word) : State :=
  if i < 12 then
    match off with
    | 0x48 => grlCfgWrite s i v
    | 0x4C => bindLink s i v
    | _ => plainWrite s (grlPage i) off v
  else
    match off with
    | 0x40 => nodeIdWrite v s
    | 0x44 => jobSelWrite s v
    | 0x48 => windowWrite s 0 v
    | 0x4C => windowWrite s 1 v
    | 0x50 => windowWrite s 2 v
    | 0x54 => jobW3Write v s
    | 0x58 => jobCmd s v
    | _ => plainWrite s jobPage off v

/-- A write of MAC_CFG (R323, R343, R345): MAXLEN stays within 1,518 and 16,384; while a loopback test runs on the group's engine, a write
that would enable the MAC is ignored (R525). -/
def macCfgWrite (s : State) (m : Nat) (v : Word) : State :=
  let n := v.toNat
  if tget 0 s.boot.lbRun (12 + m / 4) ≠ 0 ∧ (bit n 0 ∨ bit n 1) then s
  else dropDown (pfcCheck (putClamped s (macPage m) 0x48 v fun n => setBits n 16 15 (max 1518 (min (bits n 16 15) 16384))) m) m

/-- A write of a half of MAC_RING_BASE (R327), ignored while the ring is in use. -/
def ringBaseWrite (s : State) (m : Nat) (hi : Bool) (v : Word) : State :=
  let x := s.mac m
  let (dir, r) := ringSel s m
  let g := x.ring dir r
  let b := if hi then setBits g.base.toNat 32 20 v.toNat else setBits g.base.toNat 0 32 (v.toNat / 64 * 64)
  if g.en then s else s.setMac m (x.setRing dir r { g with base := BitVec.ofNat 52 b })

/-- Writes of a MAC page (R321 to R345). A MAC that the mode does not use takes only MAC_GRP_CFG (R321). -/
def macRegWrite (s : State) (m off : Nat) (v : Word) : State :=
  if off = 0x40 then grpWrite s m v
  else if !macUsed s m then s
  else match off with
    | 0x48 => macCfgWrite s m v
    | 0x7C => pfcCheck (plainWrite s (macPage m) off v) m
    | 0x84 => ringBaseWrite s m false v
    | 0x88 => ringBaseWrite s m true v
    | 0x8C => ringCfgWrite s m v
    | 0x90 => swidxWrite s m v
    | 0x9C => slotWrite s m v
    | _ => plainWrite s (macPage m) off v

/-- Writes of the OVS pages (R378, R383, R384, R386, R389, R411). -/
def ovsRegWrite (s : State) (a : Acc) (i off : Nat) (v : Word) : State :=
  let p := pageOf 18 i
  if 4 ≤ i then plainWrite s p off v
  else match off with
    | 0x44 => ovsAssignWrite i v s
    | 0x84 => putClamped s p off v fun n => noZero n 8 16
    | 0x8C => putClamped s p off v fun n => noZero n 0 32
    | 0x90 => ovsForceWrite i v s
    | 0x94 => ovsCmdWrite s a i v
    | _ => plainWrite s p off v

/-- Writes of the BOOT page (R507, R525). -/
def bootRegWrite (s : State) (off : Nat) (v : Word) : State :=
  match off with
  | 0x48 => rstWrite s v
  | 0x54 =>
    let s1 := plainWrite s bootPage off v
    let e := bits v.toNat 0 4
    if e = regField s bootPage 0x54 0 4 then s1 else lbClear s1 e
  | 0x58 => lbCtlWrite s v
  | _ => plainWrite s bootPage off v

/-- Writes of the PWR page (R436, R440, R446). -/
def pwrRegWrite (s : State) (off : Nat) (v : Word) : State :=
  match off with
  | 0x40 => regPut s pwrPage off (word (max 1000 (min (v.toNat % 8192) 4600)))
  | 0x48 => putClamped s pwrPage off v fun n => noZero n 0 16
  | _ => if 0x50 ≤ off ∧ off ≤ 0x70 then (if v.toNat % 4 = 3 then s else reqWrite s ((off - 0x50) / 4) (v.toNat % 4))
    else plainWrite s pwrPage off v

/-- Writes of the SVC page (R476 to R485). -/
def svcRegWrite (s : State) (off : Nat) (v : Word) : State :=
  match off with
  | 0x84 => fenceWord s 1 0 8 v
  | 0x88 => fenceWord s 2 0 12 v
  | 0x94 => applyWrite s v
  | 0x9C => putClamped s svcPage off v fun n => noZero n 0 32
  | _ => if 0x64 ≤ off ∧ off ≤ 0x80 then fenceWord s 0 ((off - 0x64) / 4 * 32) 32 v else plainWrite s svcPage off v

/-- A write of a register of the common layout (R494). Enabling an event that is pending can interrupt the host (R500). -/
def commonWrite (s : State) (page off : Nat) (v : Word) : State :=
  match off with
  | 0x08 => ctlWrite s page v
  | 0x14 => irqAfter (plainWrite s page off v) page (evtPend s page)
  | 0x28 => lockWrite s page v
  | _ => plainWrite s page off v

/-- A write of a register that is open to the accessor, with its side effects. -/
def openWrite (s : State) (a : Acc) (page off : Nat) (v : Word) : State :=
  let i := page % 1024
  if off < 64 then commonWrite s page off v
  else match page / 1024 with
    | 1 => if off = 0x4C then putClamped s hostPage off v fun n => min (n % 32) 23 else plainWrite s hostPage off v
    | 2 => bootRegWrite s off v
    | 3 => if off = 0x5C then imgGo s v else plainWrite s secPage off v
    | 4 => pwrRegWrite s off v
    | 5 => svcRegWrite s off v
    | 6 => timeRegWrite s a off v
    | 8 => if off = 0x40 ∨ off = 0x44 then hartCtxWrite s i ((off - 0x40) / 4) v else s
    | 9 => if 0x44 ≤ off ∧ off ≤ 0x60 then (quotaWrite s i ((off - 0x44) / 4) (bits v.toNat 0 11)).1 else s
    | 12 => salRegWrite s a i off v
    | 13 => memRegWrite s i off v
    | 15 => syncRegWrite s a off v
    | 16 => grlRegWrite s i off v
    | 17 => macRegWrite s i off v
    | 18 => ovsRegWrite s a i off v
    | _ => plainWrite s page off v

/-- A 32-bit write of a register by a hart or a function (R490). A function's write to a page that does not exist is ignored and
counted; the caller traps a hart's. -/
def writeReg (s0 : State) (a : Acc) (page off : Nat) (v : Word) : State :=
  let s := crossReg s0 a page
  if !pageMapped page then (if isFn a then bump s hostPage 0 1 else s)
  else if (regInfo page off).isNone then s
  else if writeOpen s a page off then openWrite s a page off v
  else denied s a

end Sys2Proof.Machine
end

