-- ==== Sys2Proof/Machine/RegRows.lean ====
section
/-! DEFINITION. The commands that access registers without a row of their own, the commands of CTL, and the loads and stores of a hart
outside the command extension (R14, R39, R141, R227, R490 to R495). -/

namespace Sys2Proof.Machine

open Sys2Proof

/-- The address of a register (R486). -/
def regAddr (page off : Nat) : Nat := pageBase + page * 4096 + off

/-- A read of a 32-bit register (R490, R492): a hart traps on a page that does not exist and on an offset that is not aligned. -/
def accRead (s : State) (a : Acc) (page off : Nat) : State :=
  if !accLive s a then s
  else match a with
    | .hart h => if off % 4 ≠ 0 ∨ !pageMapped page then trapHart s h (.loadFault (regAddr page off)) else readReg s a page off
    | _ => readReg s a page (off / 4 * 4)

/-- A write of a 32-bit register (R14, R490, R492): a write that does not cover a whole aligned word is ignored. -/
def accWrite (s : State) (a : Acc) (page off size : Nat) (v : Word) : State :=
  if !accLive s a then s
  else match a with
    | .hart h =>
      if off % size ≠ 0 ∨ !pageMapped page then trapHart s h (.storeFault (regAddr page off))
      else if size ≠ 4 then s else writeReg s a page off v
    | _ => if off % 4 ≠ 0 ∨ size ≠ 4 then s else writeReg s a page off v

/-- REGISTER_WRITE (R490). -/
def execRegisterWrite (a : Acc) (page off size : Nat) (v : Word) (s : State) : Out := .next (accWrite s a page off size v)

/-- COUNTER_LO_READ (R141): a read of the LO register of a 48-bit counter. -/
def execCounterLoRead (a : Acc) (page off : Nat) (s : State) : Out :=
  .next (if (counterAt s page off).isSome ∨ (page / 1024 = 12 ∧ off = 0x68) then accRead s a page off else s)

/-- ERR_CODE_READ (R490): a read of ERR_CODE, ERR_INFO0 or ERR_INFO1. -/
def execErrCodeRead (a : Acc) (page off : Nat) (s : State) : Out :=
  .next (if off = 0x1C ∨ off = 0x20 ∨ off = 0x24 then accRead s a page off else s)

/-- ENABLE (R495): a write of CTL. -/
def execEnable (a : Acc) (page : Nat) (v : Word) (s : State) : Out := .next (accWrite s a page 8 4 v)

/-- QUIESCE (R495): a write of CTL. -/
def execQuiesce (a : Acc) (page : Nat) (v : Word) (s : State) : Out := .next (accWrite s a page 8 4 v)

/-- QUIESCED (R495): a block that is asked to quiesce has finished what it had started. -/
def execQuiesced (page : Nat) (s : State) : Out :=
  .next (if pageMapped page ∧ quiescing s page ∧ blockQuiet s page then regSet s page 0xC 3 1 1 else s)

/-- RESET (R495): a write of CTL with RESET. -/
def execBlockReset (a : Acc) (page : Nat) (v : Word) (s : State) : Out :=
  .next (if bit v.toNat 2 then accWrite s a page 8 4 v else s)

/-- CTL_LOCK (R494): a write of LOCK. -/
def execCtlLock (a : Acc) (page : Nat) (v : Word) (s : State) : Out := .next (accWrite s a page 0x28 4 v)

/-! ### Loads and stores (R38, R39, R227, R491, R492) -/

/-- Write a loaded value, extended with zeros, to a hart's register. -/
def loaded (s : State) (h rd v : Nat) : State := s.setHart h (wrX (s.hart h) rd (BitVec.ofNat 64 v))

/-- The value of an accessor's last register read. -/
def lastRead (s : State) (h : Nat) : Nat := (tget 0 s.readVal h).toNat

/-- A load from a register page: 64 bits are two accesses, the lower address first; a narrower load takes its bytes of the word. -/
def pageLoad (s : State) (h rd page off size : Nat) : State :=
  if size = 8 then
    let s1 := readReg s (.hart h) page off
    let s2 := readReg s1 (.hart h) page (off + 4)
    loaded s2 h rd (lastRead s1 h + lastRead s2 h * 2 ^ 32)
  else
    let s1 := readReg s (.hart h) page (off / 4 * 4)
    loaded s1 h rd (bits (lastRead s1 h) (off % 4 * 8) (size * 8))

/-- A store to a register page: 64 bits are two accesses, the lower address first; a narrower store is ignored (R14). -/
def pageStore (s : State) (h page off size v : Nat) : State :=
  if size = 8 then writeReg (writeReg s (.hart h) page off (word v)) (.hart h) page (off + 4) (word (v / 2 ^ 32))
  else if size = 4 then writeReg s (.hart h) page off (word v)
  else s

/-- A load or store of the hart's own core memory (R38, R39): a store into a ring area is ignored and traps. -/
def coreAccess (s : State) (h rd off size : Nat) (store : Option Dword) (ecc : Ecc) : State :=
  let at_ := fun i => coreMemAddr (hartCore h) (off + i)
  match store with
  | some v =>
    if 0xC000 < off + size then trapHart s h .illegal
    else (toLE size v.toNat).zipIdx.foldl (fun s b => s.setRaw (at_ b.2) [b.1]) s
  | none =>
    let s1 := eccAt s (hartEng h) (at_ 0) ecc false
    loaded s1 h rd (ofLE ((List.range size).map fun i => rdByte s1.mem (at_ i)))

/-- A byte of a completion ring, as the bay windows and the hub show it (R38, R509). -/
def ringByte (a : Nat) : Bool :=
  match rangeOf a with
  | .coreMem _ => let o := a - baySramBase; o / 0x40_0000 % 2 == 1 && decide (sliceBytes + 0x4000 ≤ o % 0x40_0000)
  | .wardenMem _ => decide (0xC000 ≤ (a - hubSramBase - 0x3FE_0000) % 0x1_0000)
  | _ => false

/-- A load or store through the network (R39, R224, R227), checked as it is made. A store into any ring area is ignored and traps
as one into the hart's own does (R39). -/
def netAccess (s : State) (h n rd addr size : Nat) (store : Option Dword) (ecc : Ecc) : State :=
  let bad := extCheck s n [{ addr := addr, len := size, write := store.isSome }] != 0
  match store with
  | some v =>
    if bad then trapHart s h (.storeFault addr)
    else if ringByte addr ∨ ringByte (addr + size - 1) then trapHart s h .illegal
    else netStore (s.crossMem (hartEng h / 256) addr size) addr (toLE size v.toNat)
  | none =>
    if bad then trapHart s h (.loadFault addr)
    else
      let s1 := eccAt (s.crossMem (hartEng h / 256) addr size) (hartEng h) addr ecc false
      loaded s1 h rd (ofLE (load s1 addr size))

/-- A load or store of a register page (R490, R492). -/
def pageAccess (s : State) (h rd addr size : Nat) (store : Option Dword) : State :=
  let page := (addr - pageBase) / 4096
  let off := (addr - pageBase) % 4096
  let bad := addr % size != 0 || !pageMapped page
  match store with
  | some v => if bad then trapHart s h (.storeFault addr) else pageStore s h page off size v.toNat
  | none => if bad then trapHart s h (.loadFault addr) else pageLoad s h rd page off size

/-- HART_LOAD_STORE (R227): a load or store of 1, 2, 4 or 8 bytes. The core sees its own memory at addresses below 64 KiB (R38). -/
def execHartLoadStore (h rd addr size : Nat) (store : Option Dword) (ecc : Ecc) (s : State) : Out :=
  hartDo s h fun s =>
    match hartCtx s h with
    | none => s
    | some n =>
      if size ≠ 1 ∧ size ≠ 2 ∧ size ≠ 4 ∧ size ≠ 8 then s
      else if addr + size ≤ 0x10000 then coreAccess s h rd addr size store ecc
      else if addr < 0x10000 then trapHart s h (if store.isSome then .storeFault addr else .loadFault addr)
      else
        match rangeOf addr with
        | .page _ _ => pageAccess s h rd addr size store
        | _ => netAccess s h n rd addr size store ecc

end Sys2Proof.Machine
end

