-- ==== Sys2Proof/Machine/Tap.lean ====
section
/-! DEFINITION. The test access port (R461, R522 to R524). A command loads an instruction; shifting through the selected register shows
in no state of the device. -/

namespace Sys2Proof.Machine

open Sys2Proof

/-- The IDCODE (R522). -/
def tapIdcode : Word := 0x1A4157AB

/-- An instruction is loaded: the TAP has power, and leaves the lands it held; `dr` is what the selected register captures. -/
def tapLoad (s : State) (code : Nat) (dr : Word) : State :=
  if s.boot.standby then s.setBoot { s.boot with tapIr := BitVec.ofNat 8 code, tapDr := dr, lands := false } else s

/-- The boundary register captures the lands. -/
def tapCapture (s : State) : State :=
  if s.boot.standby then ({ s with free := s.free + 1 } : State).setBoot { s.boot with bsr := Config.lands s.free } else s

/-- An instruction that takes the lands, while BOOT_STAGE is 0, 1 or 4; later it acts as BYPASS (R524). The host port is down meanwhile. -/
def tapLands (s : State) (code : Nat) (capture : Bool) : State :=
  let ok := s.boot.stage == 0 || s.boot.stage == 1 || s.boot.stage == 4
  let s1 := tapLoad s code 0
  if ok ∧ s.boot.standby then
    let s2 := hostDown (if capture then tapCapture s1 else s1)
    s2.setBoot { s2.boot with lands := true }
  else s1

/-- EXTEST (R522, R524). -/
def execExtest (s : State) : Out := .next (tapLands s 0x00 true)

/-- IDCODE (R522). -/
def execIdcode (s : State) : Out := .next (tapLoad s 0x01 tapIdcode)

/-- SAMPLE/PRELOAD (R522): it never disturbs the device. -/
def execSamplePreload (s : State) : Out := .next (tapCapture (tapLoad s 0x02 0))

/-- CLAMP (R522, R524). -/
def execClamp (s : State) : Out := .next (tapLands s 0x03 false)

/-- HIGHZ (R522, R524). -/
def execHighz (s : State) : Out := .next (tapLands s 0x04 false)

/-- EXTEST_PULSE (R522, R524). -/
def execExtestPulse (s : State) : Out := .next (tapLands s 0x05 true)

/-- EXTEST_TRAIN (R522, R524). -/
def execExtestTrain (s : State) : Out := .next (tapLands s 0x06 true)

/-- BYPASS (R522). -/
def execBypass (s : State) : Out := .next (tapLoad s 0xFF 0)

/-- Internal test access is open (R461): MANUFACTURE, and RETURN, which is entered only after zeroisation. -/
def testOpen (s : State) : Bool := s.sec.lc == 0 || s.sec.lc == 3

/-- The first test instruction holds every die in reset but the always-on domain and the vault, at BOOT_STAGE 4 (R524). -/
def testEnter (s : State) : State :=
  if s.boot.testHold ∨ !s.boot.hub ∨ s.boot.inTamper then s
  else
    let s1 := resetDevice s .cold s.boot.cause
    { s1 with sec := s.sec, boot := { s1.boot with testHold := true, stage := 4, romDone := true } }

/-- A test instruction; where it is closed it acts as BYPASS. -/
def tapTest (s : State) (base chain n : Nat) : State :=
  let s1 := tapLoad s ((base + chain) % 256) 0
  if s.boot.standby ∧ testOpen s ∧ chain < n then testEnter s1 else s1

/-- INTERNAL_SCAN (R524). -/
def execInternalScan (chain : Nat) (s : State) : Out := .next (tapTest s 0x80 chain 16)

/-- MEMORY_BIST (R524). -/
def execMemoryBist (chain : Nat) (s : State) : Out := .next (tapTest s 0x90 chain 16)

/-- CORE_DEBUG (R524). -/
def execCoreDebug (chain : Nat) (s : State) : Out := .next (tapTest s 0xA0 chain 4)

/-- TRST_ASSERT (R522): the port is reset to IDCODE, and the lands are free. -/
def execTrstAssert (s : State) : Out := .next (tapLoad s 0x01 tapIdcode)

end Sys2Proof.Machine
end

