-- ==== Sys2Proof/Machine/Dispatch.lean ====
section
/-! DEFINITION. The meaning of each command: one arm per constructor of Instr. -/

namespace Sys2Proof.Machine

open Sys2Proof

def exec (i : Instr) (s : State) : Host.Outcome State Fault Refusal :=
  match i with
  | .zstg h rd rs1 imm => Sys2Proof.Machine.execZstg h rd rs1 imm s
  | .zpush h rd rs1 => Sys2Proof.Machine.execZpush h rd rs1 s
  | .ztpush h rd rs1 => Sys2Proof.Machine.execZtpush h rd rs1 s
  | .zpushm h rd rs1 rs2 => Sys2Proof.Machine.execZpushm h rd rs1 rs2 s
  | .pushUnblock h => Sys2Proof.Machine.execPushUnblock h s
  | .zvec h rd rs1 rs2 => Sys2Proof.Machine.execZvec h rd rs1 rs2 s
  | .zvend h rd rs1 rs2 => Sys2Proof.Machine.execZvend h rd rs1 rs2 s
  | .zsum h rd rs1 rs2 => Sys2Proof.Machine.execZsum h rd rs1 rs2 s
  | .zcwait h rd rs1 => Sys2Proof.Machine.execZcwait h rd rs1 s
  | .zcnext h rd => Sys2Proof.Machine.execZcnext h rd s
  | .zcack h rs1 => Sys2Proof.Machine.execZcack h rs1 s
  | .zeack h rd => Sys2Proof.Machine.execZeack h rd s
  | .epochIncrement ctx => Sys2Proof.Machine.execEpochIncrement ctx s
  | .hartLoadStore h rd addr size store ecc => Sys2Proof.Machine.execHartLoadStore h rd addr size store ecc s
  | .fset h rd rs1 rs2 => Sys2Proof.Machine.execFset h rd rs1 rs2 s
  | .fclr h rd rs1 rs2 => Sys2Proof.Machine.execFclr h rd rs1 rs2 s
  | .ftest h rd rs1 rs2 => Sys2Proof.Machine.execFtest h rd rs1 rs2 s
  | .ftestc h rd rs1 rs2 => Sys2Proof.Machine.execFtestc h rd rs1 rs2 s
  | .fwait h rd rs1 rs2 => Sys2Proof.Machine.execFwait h rd rs1 rs2 s
  | .fwaitc h rd rs1 rs2 => Sys2Proof.Machine.execFwaitc h rd rs1 rs2 s
  | .bconf h rd rs1 rs2 => Sys2Proof.Machine.execBconf h rd rs1 rs2 s
  | .barr h rd rs1 rs2 => Sys2Proof.Machine.execBarr h rd rs1 rs2 s
  | .bwait h rd rs1 rs2 => Sys2Proof.Machine.execBwait h rd rs1 rs2 s
  | .barrw h rd rs1 rs2 => Sys2Proof.Machine.execBarrw h rd rs1 rs2 s
  | .bstat h rd rs1 rs2 => Sys2Proof.Machine.execBstat h rd rs1 rs2 s
  | .cconf h rd rs1 rs2 => Sys2Proof.Machine.execCconf h rd rs1 rs2 s
  | .cprod h rd rs1 rs2 => Sys2Proof.Machine.execCprod h rd rs1 rs2 s
  | .ccons h rd rs1 rs2 => Sys2Proof.Machine.execCcons h rd rs1 rs2 s
  | .cwait h rd rs1 rs2 => Sys2Proof.Machine.execCwait h rd rs1 rs2 s
  | .cwaitc h rd rs1 rs2 => Sys2Proof.Machine.execCwaitc h rd rs1 rs2 s
  | .cread h rd rs1 rs2 => Sys2Proof.Machine.execCread h rd rs1 rs2 s
  | .waitTimeout w => Sys2Proof.Machine.execWaitTimeout w s
  | .dlDieReport die ctx => Sys2Proof.Machine.execDlDieReport die ctx s
  | .deadlock ctx => Sys2Proof.Machine.execDeadlock ctx s
  | .pwrLendStart die ctx => Sys2Proof.Machine.execPwrLendStart die ctx s
  | .syncMapWrite a v => Sys2Proof.Machine.execSyncMapWrite a v s
  | .snap a v => Sys2Proof.Machine.execSnap a v s
  | .syncEvqRead a => Sys2Proof.Machine.execSyncEvqRead a s
  | .descHead engine queue => Sys2Proof.Machine.execDescHead engine queue s
  | .descStart engine queue => Sys2Proof.Machine.execDescStart engine queue s
  | .opComplete engine unit => Sys2Proof.Machine.execOpComplete engine unit s
  | .opBoundaryStop engine unit => Sys2Proof.Machine.execOpBoundaryStop engine unit s
  | .pnop bay => Sys2Proof.Machine.execPnop bay s
  | .pmm bay => Sys2Proof.Machine.execPmm bay s
  | .pmmGather bay => Sys2Proof.Machine.execPmmGather bay s
  | .panSlotReady bay => Sys2Proof.Machine.execPanSlotReady bay s
  | .panTileStart bay => Sys2Proof.Machine.execPanTileStart bay s
  | .panTileEnd bay => Sys2Proof.Machine.execPanTileEnd bay s
  | .panReplay bay => Sys2Proof.Machine.execPanReplay bay s
  | .bitternWork bay => Sys2Proof.Machine.execBitternWork bay s
  | .panOutput bay => Sys2Proof.Machine.execPanOutput bay s
  | .outReconverted bay => Sys2Proof.Machine.execOutReconverted bay s
  | .panSalTimeout bay => Sys2Proof.Machine.execPanSalTimeout bay s
  | .memResidency bay => Sys2Proof.Machine.execMemResidency bay s
  | .salScaleRequest die => Sys2Proof.Machine.execSalScaleRequest die s
  | .salFetchDone die => Sys2Proof.Machine.execSalFetchDone die s
  | .salObservation die => Sys2Proof.Machine.execSalObservation die s
  | .salCorrection die => Sys2Proof.Machine.execSalCorrection die s
  | .lookup a die v => Sys2Proof.Machine.execLookup a die v s
  | .salStage a die v => Sys2Proof.Machine.execSalStage a die v s
  | .invalidate a die v => Sys2Proof.Machine.execInvalidate a die v s
  | .clearRung a die v => Sys2Proof.Machine.execClearRung a die v s
  | .salFree a die v => Sys2Proof.Machine.execSalFree a die v s
  | .salExport a die v => Sys2Proof.Machine.execSalExport a die v s
  | .salImport a die v => Sys2Proof.Machine.execSalImport a die v s
  | .xferDone die => Sys2Proof.Machine.execXferDone die s
  | .salEvqRead a die => Sys2Proof.Machine.execSalEvqRead a die s
  | .counterLoRead a page off => Sys2Proof.Machine.execCounterLoRead a page off s
  | .vnop bay => Sys2Proof.Machine.execVnop bay s
  | .vshape bay => Sys2Proof.Machine.execVshape bay s
  | .vsetx bay => Sys2Proof.Machine.execVsetx bay s
  | .vwait bay => Sys2Proof.Machine.execVwait bay s
  | .vsig bay => Sys2Proof.Machine.execVsig bay s
  | .vsumm bay => Sys2Proof.Machine.execVsumm bay s
  | .vsetp bay => Sys2Proof.Machine.execVsetp bay s
  | .vadd bay => Sys2Proof.Machine.execVadd bay s
  | .vsub bay => Sys2Proof.Machine.execVsub bay s
  | .vmul bay => Sys2Proof.Machine.execVmul bay s
  | .vfma bay => Sys2Proof.Machine.execVfma bay s
  | .vmax bay => Sys2Proof.Machine.execVmax bay s
  | .vmin bay => Sys2Proof.Machine.execVmin bay s
  | .vabs bay => Sys2Proof.Machine.execVabs bay s
  | .vneg bay => Sys2Proof.Machine.execVneg bay s
  | .vsel bay => Sys2Proof.Machine.execVsel bay s
  | .vmovi bay => Sys2Proof.Machine.execVmovi bay s
  | .vmov bay => Sys2Proof.Machine.execVmov bay s
  | .vsfn bay => Sys2Proof.Machine.execVsfn bay s
  | .viadd bay => Sys2Proof.Machine.execViadd bay s
  | .visub bay => Sys2Proof.Machine.execVisub bay s
  | .vimul bay => Sys2Proof.Machine.execVimul bay s
  | .viand bay => Sys2Proof.Machine.execViand bay s
  | .vior bay => Sys2Proof.Machine.execVior bay s
  | .vixor bay => Sys2Proof.Machine.execVixor bay s
  | .vishl bay => Sys2Proof.Machine.execVishl bay s
  | .vishr bay => Sys2Proof.Machine.execVishr bay s
  | .viota bay => Sys2Proof.Machine.execViota bay s
  | .vi2f bay => Sys2Proof.Machine.execVi2f bay s
  | .vf2i bay => Sys2Proof.Machine.execVf2i bay s
  | .vcmp bay => Sys2Proof.Machine.execVcmp bay s
  | .vmop bay => Sys2Proof.Machine.execVmop bay s
  | .vmtri bay => Sys2Proof.Machine.execVmtri bay s
  | .vmfrom bay => Sys2Proof.Machine.execVmfrom bay s
  | .vpermr bay => Sys2Proof.Machine.execVpermr bay s
  | .vpermc bay => Sys2Proof.Machine.execVpermc bay s
  | .vtrans bay => Sys2Proof.Machine.execVtrans bay s
  | .vrotc bay => Sys2Proof.Machine.execVrotc bay s
  | .vbcr bay => Sys2Proof.Machine.execVbcr bay s
  | .vbcc bay => Sys2Proof.Machine.execVbcc bay s
  | .vredr bay => Sys2Proof.Machine.execVredr bay s
  | .vredc bay => Sys2Proof.Machine.execVredc bay s
  | .vredf bay => Sys2Proof.Machine.execVredf bay s
  | .vscan bay => Sys2Proof.Machine.execVscan bay s
  | .vsmx bay => Sys2Proof.Machine.execVsmx bay s
  | .vadam bay => Sys2Proof.Machine.execVadam bay s
  | .vld bay => Sys2Proof.Machine.execVld bay s
  | .vst bay => Sys2Proof.Machine.execVst bay s
  | .vldq bay => Sys2Proof.Machine.execVldq bay s
  | .vstq bay => Sys2Proof.Machine.execVstq bay s
  | .vstqScaleAnswer bay => Sys2Proof.Machine.execVstqScaleAnswer bay s
  | .vecSalTimeout bay => Sys2Proof.Machine.execVecSalTimeout bay s
  | .vmld bay => Sys2Proof.Machine.execVmld bay s
  | .vmst bay => Sys2Proof.Machine.execVmst bay s
  | .dnop engine => Sys2Proof.Machine.execDnop engine s
  | .dmove engine srcErr errAt crcBad => Sys2Proof.Machine.execDmove engine srcErr errAt crcBad s
  | .dfill engine => Sys2Proof.Machine.execDfill engine s
  | .credscat engine => Sys2Proof.Machine.execCredscat engine s
  | .callgath engine => Sys2Proof.Machine.execCallgath engine s
  | .callred engine => Sys2Proof.Machine.execCallred engine s
  | .cbcast engine => Sys2Proof.Machine.execCbcast engine s
  | .scrubStack unit ecc raced => Sys2Proof.Machine.execScrubStack unit ecc raced s
  | .scrubSram unit ecc raced => Sys2Proof.Machine.execScrubSram unit ecc raced s
  | .forcedRefresh stack bank => Sys2Proof.Machine.execForcedRefresh stack bank s
  | .memRgnSel a v => Sys2Proof.Machine.execMemRgnSel a v s
  | .memRgnAttr a v => Sys2Proof.Machine.execMemRgnAttr a v s
  | .stackFence a stack => Sys2Proof.Machine.execStackFence a stack s
  | .stackFenced stack => Sys2Proof.Machine.execStackFenced stack s
  | .stackUnfence a stack => Sys2Proof.Machine.execStackUnfence a stack s
  | .stackTrainDone stack trained => Sys2Proof.Machine.execStackTrainDone stack trained s
  | .hostBar2Read offset len => Sys2Proof.Machine.execHostBar2Read offset len s
  | .hostBar2Write offset bytes => Sys2Proof.Machine.execHostBar2Write offset bytes s
  | .flitReceive link image => Sys2Proof.Machine.execFlitReceive link image s
  | .flitReplayTimeout link => Sys2Proof.Machine.execFlitReplayTimeout link s
  | .lightPresent link => Sys2Proof.Machine.execLightPresent link s
  | .lightLoss engine => Sys2Proof.Machine.execLightLoss engine s
  | .calibrateDone link => Sys2Proof.Machine.execCalibrateDone link s
  | .trainDone link => Sys2Proof.Machine.execTrainDone link s
  | .trainTimeout link => Sys2Proof.Machine.execTrainTimeout link s
  | .trainRetry link => Sys2Proof.Machine.execTrainRetry link s
  | .keyx link peer nonce chainOk policyOk last => Sys2Proof.Machine.execKeyx link peer nonce chainOk policyOk last s
  | .keyxTimeout link => Sys2Proof.Machine.execKeyxTimeout link s
  | .agree link peer => Sys2Proof.Machine.execAgree link peer s
  | .timeExchange link => Sys2Proof.Machine.execTimeExchange link s
  | .time link answer t2 t3 => Sys2Proof.Machine.execTime link answer t2 t3 s
  | .abortNotice link node jobTag epoch => Sys2Proof.Machine.execAbortNotice link node jobTag epoch s
  | .grlWrite link => Sys2Proof.Machine.execGrlWrite link s
  | .readReq link => Sys2Proof.Machine.execReadReq link s
  | .readData link => Sys2Proof.Machine.execReadData link s
  | .grlSignal link => Sys2Proof.Machine.execGrlSignal link s
  | .collData link => Sys2Proof.Machine.execCollData link s
  | .collTimeout engine => Sys2Proof.Machine.execCollTimeout engine s
  | .rekey a link v => Sys2Proof.Machine.execRekey a link v s
  | .flitCountRekey link => Sys2Proof.Machine.execFlitCountRekey link s
  | .reagree a link v => Sys2Proof.Machine.execReagree a link v s
  | .recalNow a link v => Sys2Proof.Machine.execRecalNow a link v s
  | .recalPeriod link byPeer => Sys2Proof.Machine.execRecalPeriod link byPeer s
  | .recalHalfDone link calibrated => Sys2Proof.Machine.execRecalHalfDone link calibrated s
  | .hold a link v => Sys2Proof.Machine.execHold a link v s
  | .grlBind a link v => Sys2Proof.Machine.execGrlBind a link v s
  | .grlNodeId a v => Sys2Proof.Machine.execGrlNodeId a v s
  | .grlJobW3 a v => Sys2Proof.Machine.execGrlJobW3 a v s
  | .jobAdmit a v => Sys2Proof.Machine.execJobAdmit a v s
  | .timeRearm a v => Sys2Proof.Machine.execTimeRearm a v s
  | .rxFrame mac frame => Sys2Proof.Machine.execRxFrame mac frame s
  | .pauseTimerExpire mac cls pfc => Sys2Proof.Machine.execPauseTimerExpire mac cls pfc s
  | .pfcRepeat mac => Sys2Proof.Machine.execPfcRepeat mac s
  | .napFrameDeliver mac => Sys2Proof.Machine.execNapFrameDeliver mac s
  | .txStage mac cls => Sys2Proof.Machine.execTxStage mac cls s
  | .txFrameStart mac => Sys2Proof.Machine.execTxFrameStart mac s
  | .txPreemptions mac sent => Sys2Proof.Machine.execTxPreemptions mac sent s
  | .txFrameDone mac => Sys2Proof.Machine.execTxFrameDone mac s
  | .preemptVerify mac verified => Sys2Proof.Machine.execPreemptVerify mac verified s
  | .macLinkDown mac => Sys2Proof.Machine.execMacLinkDown mac s
  | .macLinkUp mac => Sys2Proof.Machine.execMacLinkUp mac s
  | .macGrpCfg a mac v => Sys2Proof.Machine.execMacGrpCfg a mac v s
  | .macRingCfg a mac v => Sys2Proof.Machine.execMacRingCfg a mac v s
  | .macRingSwidx a mac v => Sys2Proof.Machine.execMacRingSwidx a mac v s
  | .macSlotData a mac v => Sys2Proof.Machine.execMacSlotData a mac v s
  | .onop fabric => Sys2Proof.Machine.execOnop fabric s
  | .oload fabric => Sys2Proof.Machine.execOload fabric s
  | .oswitch fabric => Sys2Proof.Machine.execOswitch fabric s
  | .oswitchAt fabric => Sys2Proof.Machine.execOswitchAt fabric s
  | .oharvest fabric => Sys2Proof.Machine.execOharvest fabric s
  | .omemw fabric => Sys2Proof.Machine.execOmemw fabric s
  | .omemr fabric => Sys2Proof.Machine.execOmemr fabric s
  | .opower fabric => Sys2Proof.Machine.execOpower fabric s
  | .fabricWakeDone fabric => Sys2Proof.Machine.execFabricWakeDone fabric s
  | .dot fabric tile => Sys2Proof.Machine.execDot fabric tile s
  | .dotw fabric tile => Sys2Proof.Machine.execDotw fabric tile s
  | .add2 fabric tile => Sys2Proof.Machine.execAdd2 fabric tile s
  | .mul2 fabric tile => Sys2Proof.Machine.execMul2 fabric tile s
  | .fma2 fabric tile => Sys2Proof.Machine.execFma2 fabric tile s
  | .max2 fabric tile => Sys2Proof.Machine.execMax2 fabric tile s
  | .bias2 fabric tile => Sys2Proof.Machine.execBias2 fabric tile s
  | .func2 fabric tile => Sys2Proof.Machine.execFunc2 fabric tile s
  | .actpack fabric tile => Sys2Proof.Machine.execActpack fabric tile s
  | .unpack fabric tile => Sys2Proof.Machine.execUnpack fabric tile s
  | .argmax fabric tile => Sys2Proof.Machine.execArgmax fabric tile s
  | .thresh fabric tile => Sys2Proof.Machine.execThresh fabric tile s
  | .classify fabric tile => Sys2Proof.Machine.execClassify fabric tile s
  | .table fabric tile => Sys2Proof.Machine.execTable fabric tile s
  | .read fabric tile => Sys2Proof.Machine.execRead fabric tile s
  | .write fabric tile => Sys2Proof.Machine.execWrite fabric tile s
  | .fifo fabric tile => Sys2Proof.Machine.execFifo fabric tile s
  | .ingress fabric tile => Sys2Proof.Machine.execIngress fabric tile s
  | .egress fabric tile => Sys2Proof.Machine.execEgress fabric tile s
  | .mread fabric tile => Sys2Proof.Machine.execMread fabric tile s
  | .mreadAnswer fabric tile => Sys2Proof.Machine.execMreadAnswer fabric tile s
  | .post fabric tile => Sys2Proof.Machine.execPost fabric tile s
  | .signal fabric tile => Sys2Proof.Machine.execSignal fabric tile s
  | .endHarvest fabric tile => Sys2Proof.Machine.execEndHarvest fabric tile s
  | .steer fabric tile => Sys2Proof.Machine.execSteer fabric tile s
  | .merge fabric tile => Sys2Proof.Machine.execMerge fabric tile s
  | .sluRepeat fabric tile => Sys2Proof.Machine.execSluRepeat fabric tile s
  | .zip fabric tile => Sys2Proof.Machine.execZip fabric tile s
  | .count fabric tile => Sys2Proof.Machine.execCount fabric tile s
  | .rate fabric tile => Sys2Proof.Machine.execRate fabric tile s
  | .gen fabric tile => Sys2Proof.Machine.execGen fabric tile s
  | .harvestQuiesce fabric => Sys2Proof.Machine.execHarvestQuiesce fabric s
  | .ovsHarvestTmo fabric => Sys2Proof.Machine.execOvsHarvestTmo fabric s
  | .reopen a fabric v => Sys2Proof.Machine.execReopen a fabric v s
  | .ovsForce a fabric v => Sys2Proof.Machine.execOvsForce a fabric v s
  | .forcedSwitch fabric => Sys2Proof.Machine.execForcedSwitch fabric s
  | .stale fabric tile port tok => Sys2Proof.Machine.execStale fabric tile port tok s
  | .dozeEnter fabric => Sys2Proof.Machine.execDozeEnter fabric s
  | .dozeWake fabric => Sys2Proof.Machine.execDozeWake fabric s
  | .ovsStall fabric => Sys2Proof.Machine.execOvsStall fabric s
  | .ovsAssign a fabric v => Sys2Proof.Machine.execOvsAssign a fabric v s
  | .ovsEvqRead a fabric => Sys2Proof.Machine.execOvsEvqRead a fabric s
  | .steerDecision mac frame => Sys2Proof.Machine.execSteerDecision mac frame s
  | .verdict fabric rec => Sys2Proof.Machine.execVerdict fabric rec s
  | .replyStage fabric => Sys2Proof.Machine.execReplyStage fabric s
  | .replyRecord fabric tile => Sys2Proof.Machine.execReplyRecord fabric tile s
  | .timeTick => Sys2Proof.Machine.execTimeTick s
  | .timeRdNs a => Sys2Proof.Machine.execTimeRdNs a s
  | .timeRate a v => Sys2Proof.Machine.execTimeRate a v s
  | .timeSlewTicks a v => Sys2Proof.Machine.execTimeSlewTicks a v s
  | .timeStepHi a v => Sys2Proof.Machine.execTimeStepHi a v s
  | .timeReopen a v => Sys2Proof.Machine.execTimeReopen a v s
  | .timeDom a v => Sys2Proof.Machine.execTimeDom a v s
  | .timeTb3Cfg a v => Sys2Proof.Machine.execTimeTb3Cfg a v s
  | .timeTrigOwn a v => Sys2Proof.Machine.execTimeTrigOwn a v s
  | .arm a v => Sys2Proof.Machine.execArm a v s
  | .trigFire trig => Sys2Proof.Machine.execTrigFire trig s
  | .trigWriteAck trig => Sys2Proof.Machine.execTrigWriteAck trig s
  | .capture input => Sys2Proof.Machine.execCapture input s
  | .softCapture a v => Sys2Proof.Machine.execSoftCapture a v s
  | .timeSqW0 a => Sys2Proof.Machine.execTimeSqW0 a s
  | .dieIdle die => Sys2Proof.Machine.execDieIdle die s
  | .dieReqRun a die => Sys2Proof.Machine.execDieReqRun a die s
  | .dieReqNap a die => Sys2Proof.Machine.execDieReqNap a die s
  | .dieReqOff a die => Sys2Proof.Machine.execDieReqOff a die s
  | .dieWake die => Sys2Proof.Machine.execDieWake die s
  | .dieTransitionDone die => Sys2Proof.Machine.execDieTransitionDone die s
  | .bayGate bay => Sys2Proof.Machine.execBayGate bay s
  | .bayResume bay => Sys2Proof.Machine.execBayResume bay s
  | .govSample watts amps scaled => Sys2Proof.Machine.execGovSample watts amps scaled s
  | .overcurrent => Sys2Proof.Machine.execOvercurrent s
  | .thermalWarn sensor temp => Sys2Proof.Machine.execThermalWarn sensor temp s
  | .thermalTrip sensor temp => Sys2Proof.Machine.execThermalTrip sensor temp s
  | .imageLoad a v => Sys2Proof.Machine.execImageLoad a v s
  | .imageVerify palSigOk ownSigOk loadOk => Sys2Proof.Machine.execImageVerify palSigOk ownSigOk loadOk s
  | .tamper sensor => Sys2Proof.Machine.execTamper sensor s
  | .doeMessage fn msg => Sys2Proof.Machine.execDoeMessage fn msg s
  | .getMeasurements fn nonce => Sys2Proof.Machine.execGetMeasurements fn nonce s
  | .ctxOpen n => Sys2Proof.Machine.execCtxOpen n s
  | .ctxSet n items => Sys2Proof.Machine.execCtxSet n items s
  | .ctxLoad n core offset bytes => Sys2Proof.Machine.execCtxLoad n core offset bytes s
  | .ctxSeed n seed => Sys2Proof.Machine.execCtxSeed n seed s
  | .ctxStart n => Sys2Proof.Machine.execCtxStart n s
  | .ctxRelease n => Sys2Proof.Machine.execCtxRelease n s
  | .ctxZeroise ctx => Sys2Proof.Machine.execCtxZeroise ctx s
  | .getEvents fn count => Sys2Proof.Machine.execGetEvents fn count s
  | .keyInstall key => Sys2Proof.Machine.execKeyInstall key s
  | .svnCommit kind => Sys2Proof.Machine.execSvnCommit kind s
  | .jobSet items => Sys2Proof.Machine.execJobSet items s
  | .eventRelay src => Sys2Proof.Machine.execEventRelay src s
  | .ccHartCtx a inst hart v => Sys2Proof.Machine.execCcHartCtx a inst hart v s
  | .ccCtxTagq a ctx saltern v => Sys2Proof.Machine.execCcCtxTagq a ctx saltern v s
  | .bayFence a part => Sys2Proof.Machine.execBayFence a part s
  | .bayUnfence a part => Sys2Proof.Machine.execBayUnfence a part s
  | .bayUnfenceDone bay => Sys2Proof.Machine.execBayUnfenceDone bay s
  | .lmodFence a part => Sys2Proof.Machine.execLmodFence a part s
  | .lmodUnfence a part => Sys2Proof.Machine.execLmodUnfence a part s
  | .linkFence a part => Sys2Proof.Machine.execLinkFence a part s
  | .linkUnfence a part => Sys2Proof.Machine.execLinkUnfence a part s
  | .apply a v => Sys2Proof.Machine.execApply a v s
  | .updateInstanceQuiesced verified => Sys2Proof.Machine.execUpdateInstanceQuiesced verified s
  | .svcQuiesceTmo => Sys2Proof.Machine.execSvcQuiesceTmo s
  | .svcErrlogW0 a => Sys2Proof.Machine.execSvcErrlogW0 a s
  | .meshFail conn => Sys2Proof.Machine.execMeshFail conn s
  | .retrain conn => Sys2Proof.Machine.execRetrain conn s
  | .enable a page v => Sys2Proof.Machine.execEnable a page v s
  | .quiesce a page v => Sys2Proof.Machine.execQuiesce a page v s
  | .quiesced page => Sys2Proof.Machine.execQuiesced page s
  | .blockReset a page v => Sys2Proof.Machine.execBlockReset a page v s
  | .ctlLock a page v => Sys2Proof.Machine.execCtlLock a page v s
  | .errCodeRead a page off => Sys2Proof.Machine.execErrCodeRead a page off s
  | .registerWrite a page off size v => Sys2Proof.Machine.execRegisterWrite a page off size v s
  | .standbyUp => Sys2Proof.Machine.execStandbyUp s
  | .standbyLoss => Sys2Proof.Machine.execStandbyLoss s
  | .mainRailUp => Sys2Proof.Machine.execMainRailUp s
  | .hubPowerOn => Sys2Proof.Machine.execHubPowerOn s
  | .mainRailLoss => Sys2Proof.Machine.execMainRailLoss s
  | .romBoot otpOk trngOk pbkOk => Sys2Proof.Machine.execRomBoot otpOk trngOk pbkOk s
  | .perstAssert => Sys2Proof.Machine.execPerstAssert s
  | .perstDeassert => Sys2Proof.Machine.execPerstDeassert s
  | .warmReset a v => Sys2Proof.Machine.execWarmReset a v s
  | .coldReset a v => Sys2Proof.Machine.execColdReset a v s
  | .kick a v => Sys2Proof.Machine.execKick a v s
  | .bootWdogExpire => Sys2Proof.Machine.execBootWdogExpire s
  | .laserRemove m => Sys2Proof.Machine.execLaserRemove m s
  | .laserInsert m => Sys2Proof.Machine.execLaserInsert m s
  | .laserStable m => Sys2Proof.Machine.execLaserStable m s
  | .bootLbCtl a v => Sys2Proof.Machine.execBootLbCtl a v s
  | .extest => Sys2Proof.Machine.execExtest s
  | .idcode => Sys2Proof.Machine.execIdcode s
  | .samplePreload => Sys2Proof.Machine.execSamplePreload s
  | .clamp => Sys2Proof.Machine.execClamp s
  | .highz => Sys2Proof.Machine.execHighz s
  | .extestPulse => Sys2Proof.Machine.execExtestPulse s
  | .extestTrain => Sys2Proof.Machine.execExtestTrain s
  | .internalScan chain => Sys2Proof.Machine.execInternalScan chain s
  | .memoryBist chain => Sys2Proof.Machine.execMemoryBist chain s
  | .coreDebug chain => Sys2Proof.Machine.execCoreDebug chain s
  | .bypass => Sys2Proof.Machine.execBypass s
  | .thermalThrottleEnd sensor temp => Sys2Proof.Machine.execThermalThrottleEnd sensor temp s
  | .alwaysOnReady => Sys2Proof.Machine.execAlwaysOnReady s
  | .hostLinkUp speed width flit cxl vfs => Sys2Proof.Machine.execHostLinkUp speed width flit cxl vfs s
  | .hostLinkDown => Sys2Proof.Machine.execHostLinkDown s
  | .txAnSwitch mac an pn peers => Sys2Proof.Machine.execTxAnSwitch mac an pn peers s
  | .fenceDone => Sys2Proof.Machine.execFenceDone s
  | .trstAssert => Sys2Proof.Machine.execTrstAssert s
  | .lbLock engine lane => Sys2Proof.Machine.execLbLock engine lane s
  | .lbPass engine lane => Sys2Proof.Machine.execLbPass engine lane s

end Sys2Proof.Machine
end

