-- ==== Sys2Proof/Machine/Issue.lean ====
section
/-! DEFINITION. A hart issues a word of its program (02, R41, R42): what its command-extension words do, read through the decoder. The
rows of the table are these commands already decoded. -/

namespace Sys2Proof.Machine

open Sys2Proof

/-- A register of a hart: x0 reads 0. -/
def hartReg (s : State) (h r : Nat) : Dword := if r = 0 then 0 else tget 0 (s.hart h).x r

/-- A hart issues a word (R41): the command that it spells is carried out, an illegal one traps with no other effect (R42). Words of
other opcodes are no command of the device. -/
def issueWord (h w : Nat) (s : State) : Out :=
  match decodeHart h (hartReg s h) w with
  | .cmd i => exec i s
  | .illegal => hartDo s h fun s => trapHart s h .illegal
  | .other => .next s

end Sys2Proof.Machine
end

