-- ==== Sys2Proof/Safety.lean ====
section
/-! DEFINITION. The terms in which statements speak of a run: a command that answers a next state with a property, and the
invariant that every step keeps. -/

namespace Sys2Proof.Machine

open Sys2Proof

/-- Command `i` completes in state `s`: it answers a next state, and `P` holds of that state. -/
def Yields (i : Instr) (s : State) (P : State → Prop) : Prop := ∃ t, exec i s = .next t ∧ P t

/-- Command `i` is not due in state `s` and changes nothing (log entry 2). -/
def Idles (i : Instr) (s : State) : Prop := exec i s = .next s

/-- What every step keeps: memory is in its canonical form (Memory.wf), the error log holds at most 1,024 records (R471), and
the queue of the SYNC page at most 256 events (R286). -/
def State.Inv (s : State) : Prop :=
  Memory.wf s.mem = true ∧ s.svc.log.length ≤ 1024 ∧ s.syncEvq.length ≤ 256

/-- Hart `h` can issue a command and runs for context `n`. -/
def Issues (s : State) (h n : Nat) : Prop := hartRuns s h = true ∧ hartCtx s h = some n

/-- Only hart `h` differs between `s` and `t`, and it is `x` in `t`. -/
def OnlyHart (s t : State) (h : Nat) (x : Hart) : Prop := t = s.setHart h x

/-- The engine and the queue that rs1 of a push names (R43). -/
def pushEng (rs1 : Dword) : Nat := rs1.toNat % 4096
def pushQueue (rs1 : Dword) : Nat := bits rs1.toNat 12 2

/-- A push of context `n` by hart `h` can reach its queue (R43, R44): no condition of R43 ends it, its grant and a tag are free, and
the pool of its saltern has a tag that is not in use. -/
def PushReady (s : State) (n h : Nat) (rs1 : Dword) : Prop :=
  pushStatus s n h rs1.toNat = 0 ∧ pushRoom s n h rs1.toNat 0 = true ∧
  ∃ i, i < 1024 ∧ tfind s.tags (tagDie h (pushEng rs1) * 1024 + i) = none

/-- `t` is `s` after a push of hart `h` has reached its queue (R43, R50): a tag that was free is assigned to context and hart, rd
holds it, the descriptor stands last in its queue with that tag and the context's number and epoch, the push has crossed the mesh and
wakes the engine's die (R24, R439), and nothing else differs. -/
def Pushed (s t : State) (n h rd : Nat) (rs1 : Dword) (desc : List Byte) : Prop :=
  ∃ tag, tag / 1024 = tagDie h (pushEng rs1) ∧ tfind s.tags tag = none ∧
    t = ({ s.reach (hartEng h / 256) (pushEng rs1 / 256) with
             tags := tput s.tags tag { ctx := n, hart := h, recorded := false }, free := s.free + 1 }.setHart h
          { wrX (s.hart h) rd (BitVec.ofNat 64 tag) with blocked := none }).setQueue (pushEng rs1) (pushQueue rs1)
          (s.queue (pushEng rs1) (pushQueue rs1) ++ [newOp s n h (pushEng rs1) (pushQueue rs1) tag desc])

/-- A ZSYNC of hart `h` for context `n` passes the checks of R255 and reaches the object `key` of its class. -/
def SyncReaches (s : State) (h n : Nat) (rs1 rs2 : Dword) (f : SyncForm) (key : Nat) : Prop :=
  Issues s h n ∧ bits rs1.toNat 16 8 = f.code ∧ syncCheck s n f rs1.toNat rs2.toNat = 0 ∧
  translate s n (rs1.toNat % 16384) = some key ∧ homeOff s (rs1.toNat % 16384) key = false

/-- The device once a ZSYNC of hart `h` has reached the home of object `key`: the route is crossed and the home wakes (R24, R439). -/
def syncHome (s : State) (h : Nat) (rs1 : Dword) (key : Nat) : State :=
  s.reach (hartEng h / 256) (objDie (vidClass (rs1.toNat % 16384)) key)

/-- No waiter is the head of a queue: heads wait on flags only (R52). -/
def NoHeads (ws : List WaitEnt) : Prop := ∀ w ∈ ws, ∀ e q, w.who ≠ .head e q

/-- The forms of the ZSYNC operations (R254). -/
def flagForm (code : Nat) (tmo : Bool) : SyncForm := { code := code, cls := 0, lowBits := 0, tmo := tmo, count := false }
def barForm (code low : Nat) (tmo : Bool) : SyncForm := { code := code, cls := 1, lowBits := low, tmo := tmo, count := false }
def credForm (code low : Nat) (tmo count : Bool) : SyncForm := { code := code, cls := 2, lowBits := low, tmo := tmo, count := count }

/-- Hart `h` has gone on, with `result` and `status` in rd (R254); x0 discards. -/
def SyncAnswers (s t : State) (h rd result status : Nat) : Prop := t.hart h = wrX (s.hart h) rd (syncWord result status)

/-- Hart `h` is held in a ZSYNC wait whose result is for rd. -/
def SyncHeld (s t : State) (h rd : Nat) : Prop := t.hart h = { s.hart h with blocked := some (.sync rd) }

/-- The operation that runs on bay `b`'s pan, neither done nor marked to stop, is `op` with fields `d`, and the pan is at `stage`. -/
def PanIs (s : State) (b : Nat) (op : Op) (d : PanDesc) (stage : Nat) : Prop :=
  panOp s b = some (op, d) ∧ d.op ≠ 0 ∧ (s.pan b).stage = stage

/-- The pan of bay `b` has finished its operation with a status: it stands done, with that status, until its completion. -/
def PanEnds (t : State) (b : Nat) (op : Op) (status : Nat) : Prop :=
  (t.pan b).stage = 9 ∧ ∃ o, t.run (bayEng b) 0 = some o ∧ o.done = true ∧ o.status = BitVec.ofNat 16 status ∧ o.tag = op.tag ∧
    o.hdr = op.hdr ∧ o.ctx = op.ctx

/-- Word `w` at the head of bay `b`'s queue has executed (R175, R204): it has left the queue and is counted, and the word that follows finds
what it left. Memory, harts, queues and Mladaz objects are as before. -/
def WordDone (s t : State) (b : Nat) : Prop :=
  (t.vec b).q = (s.vec b).q.drop 1 ∧ (t.vec b).words = (s.vec b).words + 1 ∧ (t.vec b).stop = (s.vec b).stop ∧
  t.mem = s.mem ∧ t.harts = s.harts ∧ t.queues = s.queues ∧ t.flags = s.flags ∧ t.pans = s.pans

/-- Lane `l` of tile register `r`. -/
def laneOf (v : Vec) (r l : Nat) : Word := (vreg v r).getD l 0

/-- The word has executed and has written `f l` into the selected lanes of tile register `d` and into nothing else of the registers (R176). -/
def WritesLanes (s t : State) (b d m : Nat) (f : Nat → Word) : Prop :=
  WordDone s t b ∧
  (∀ l, l < 1024 → laneOf (t.vec b) d l = if laneSel (s.vec b) m l then f l else laneOf (s.vec b) d l) ∧
  (∀ r, r ≠ d → vreg (t.vec b) r = vreg (s.vec b) r) ∧ (t.vec b).k = (s.vec b).k ∧ (t.vec b).rows = (s.vec b).rows ∧
  (t.vec b).cols = (s.vec b).cols ∧ (t.vec b).slots = (s.vec b).slots ∧ (t.vec b).params = (s.vec b).params ∧
  (t.vec b).carry = (s.vec b).carry

/-- The word has executed and has written all bits of mask register `d`, and nothing else of the registers (R176). -/
def WritesMask (s t : State) (b d : Nat) (f : Nat → Bool) : Prop :=
  WordDone s t b ∧ (∀ l, l < 1024 → (kreg (t.vec b) d).getLsbD l = f l) ∧ (∀ r, r ≠ d → kreg (t.vec b) r = kreg (s.vec b) r) ∧
  (t.vec b).v = (s.vec b).v ∧ (t.vec b).sum = (s.vec b).sum ∧ (t.vec b).carry = (s.vec b).carry

/-- The word at the head has stopped its block with a fault code: it has had no effect on registers and memory, and the words that follow are
discarded (R177). -/
def WordFaults (s t : State) (b code : Nat) : Prop :=
  (t.vec b).stop = BitVec.ofNat 16 code ∧ (t.vec b).q = discardBlock (s.vec b).q ∧ (t.vec b).v = (s.vec b).v ∧ (t.vec b).k = (s.vec b).k ∧
  (t.vec b).sum = (s.vec b).sum ∧ t.mem = s.mem ∧ t.harts = s.harts ∧ t.flags = s.flags

/-! ### Salinometers -/

/-- The answer `a` (C, effective format, cold) has reached what the request is for: an operand of a pan, or the VSTQ of a vector unit. -/
def Delivered (t : State) (r : SalReq) (a : BitVec 16 × Nat × Bool) : Prop :=
  let sc : OpScale := { c := a.1, eff := a.2.1, cold := a.2.2, asked := true, known := true }
  let p := t.pan (engBay r.engine)
  if r.unit = 1 then (t.vec (engBay r.engine)).stqScale = sc
  else if r.operand = 0 then p.a.scale = sc else if r.operand = 1 then p.b.scale = sc else p.d.scale = sc

/-- The corrected scale `c` has reached the saturated crust that a report names. -/
def Corrected (s t : State) (r : SalReq) (c : BitVec 16) : Prop :=
  let p := s.pan (engBay r.engine)
  let q := t.pan (engBay r.engine)
  if r.operand = 0 then q.a.sat = fixCrust p.a.sat r.crust c
  else if r.operand = 1 then q.b.sat = fixCrust p.b.sat r.crust c else q.d.sat = fixCrust p.d.sat r.crust c

/-- The entry that a home serves a request from (R144, R146): its own, brought to the request's step, or a new one where there is room. -/
def servedEntry (s : State) (h : Nat) (r : SalReq) : Option SalEntry :=
  match tfind (s.sal h).entries (salKey r.ctx r.tid.toNat) with
  | some e => some (stepTo s h r.ctx r.tid r.step e).2
  | none => if (s.sal h).entries.length < 16384 then some (newEntry s h r.step) else none

/-- What a home answers (R144, R151): 1.0 in the cold state for a tensor that it does not track. -/
def homeAnswer (s : State) (h : Nat) (r : SalReq) : BitVec 16 × Nat × Bool :=
  match servedEntry s h r with
  | some e => entryAnswer e (reqLoads r) r.fmt
  | none => (0x3F80, r.fmt, true)

/-! ### Memory and DMA -/

/-- Counter `idx` of a page has counted `n` more, stopping at 2^48 − 1 (R141). -/
def Counted (s t : State) (page idx n : Nat) : Prop :=
  tget 0 t.cnts (page * 256 + idx) = min (tget 0 s.cnts (page * 256 + idx) + n) cntMax

/-- `n` bytes from an address lie in hub SRAM. -/
def InHub (a n : Nat) : Prop := ∀ i, i < n → rangeOf (a + i) = .hubSram

/-- The operation of engine `e` has ended with a status and the payload of a DMA record (R62). -/
def DmaEnds (t : State) (e : Nat) (op : Op) (status n : Nat) (crc : Word) : Prop :=
  t.run e 0 = some { op with done := true, status := BitVec.ofNat 16 status, payload := dmaPayload n crc }

/-- Memory of `t` is that of `s` with `n` bytes from `a` replaced by `f`. -/
def Wrote (s t : State) (a n : Nat) (f : Nat → Byte) : Prop :=
  ∀ x, rdByte t.mem x = if a ≤ x ∧ x < a + n then f (x - a) else rdByte s.mem x

/-- The context and the index that MEM_RGN_SEL selects, and the entry that a write of MEM_RGN_ATTR stages (R226). -/
def rgnCtx (s : State) : Nat := (regGet s (memPage 8) 0x90).toNat % 64
def rgnIdx (s : State) : Nat := bits (regGet s (memPage 8) 0x90).toNat 8 6
def stagedRegion (s : State) (v : Word) : Region :=
  let part := fun off => (regGet s (memPage 8) off).toNat
  { valid := bit v.toNat 0, base := BitVec.ofNat 52 (part 0x94 + part 0x98 * 2 ^ 32),
    limit := BitVec.ofNat 52 (part 0x9C + 65535 + part 0xA0 * 2 ^ 32), attr := BitVec.ofNat 6 v.toNat }

/-- The warden makes an access (R489). -/
def Warden (s : State) (a : Acc) : Prop := isWarden s a = true ∧ accLive s a = true

/-! ### Griros -/

/-- A link that stands DOWN with light may leave for CALIBRATE (R297): enabled, not held, not fenced, its engine fed, the node set. -/
def LinkMayRise (s : State) (k : Nat) : Prop :=
  (s.link k).retryWait = false ∧ bit (regGet s (grlPage k) 8).toNat 0 = true ∧ linkHold s k = false ∧ nodeId s ≠ 0xFFFFF ∧
  k ∉ s.svc.links ∧ engineFed s k = true

/-- Link `k` stands DOWN in `t` with a cause (R295). -/
def LinkFell (t : State) (k cause : Nat) : Prop := (t.link k).state = 0 ∧ (t.link k).cause = cause ∧ (t.link k).keyed = false

/-- Link `k` asks its neighbour to replay what follows the last good SEQ (R294): the next flit will, or one that has been sent does. -/
def AsksReplay (t : State) (k : Nat) : Prop :=
  (t.link k).nakDue = true ∨ ∃ f ∈ (t.link k).retryBuf, f.hdr.nak = true ∧ f.hdr.ack = (t.link k).rxSeq - 1

/-- What a link makes of a flit's image whose CRC is right (R288, R298): under the keys of its KEY_PHASE. -/
def opened (s : State) (k : Nat) (image : List Byte) : Option Flit :=
  let l := phaseKeys (s.link k) (bit (ofLE (image.take 16)) 6)
  openFlit l.keyRx l.rxCount image

/-- Message `m` of MTYPE `mt` stands first on its VC of link `k` and belongs to the job in `slot` (R302). -/
def MsgHere (s : State) (k mt : Nat) (m : Msg) (slot : Nat) : Prop :=
  headMsg (s.link k) mt = some m ∧ msgSlot (popMsg s k m) k m = some slot

/-- The job of a link's slot, that slot and its context. -/
def linkCtx (s : State) (slot : Nat) : Nat := (s.jobSlot slot).ctx

/-- The collective of code `code` can begin on engine `e` (R310, R311): its ring is in use, its extents are allowed, its neighbours
are reached, and a sealed source opens to `text` (R241, R455). -/
def CollReady (s : State) (e code : Nat) (op : Op) (d : DmaDesc) (v : CollV) (text : Option (List Byte)) : Prop :=
  dmaOp s e = some (op, d) ∧ d.op = code ∧ collView s op d = some v ∧ collCheck s op v = 0 ∧ collRoute s op.ctx v = 0 ∧
  if v.reads && (sealsObject v.d v.d.src || sealsPages v.d v.d.src) then ∃ bs, openText s op.ctx v.input = .inr bs ∧ text = some bs
  else text = none

/-- The first `n` bytes of a collective's input, from memory or from what a sealed source was opened to. -/
def collInput (s : State) (d : DmaDesc) (text : Option (List Byte)) (n : Nat) : List Byte :=
  match text with
  | some bs => slice bs 0 n
  | none => load s d.src n

/-! ### MACs -/

/-- A frame arrives whole at an open MAC outside NAP, no part of it having been steered, and there is room for it (R330). -/
def FrameArrives (s : State) (m : Nat) : Prop :=
  rxOpen s m = true ∧ (s.mac m).steer = none ∧ fifoRoom s m = true ∧ hubNaps s = false

/-- The MAC is not paired and generates no PFC (R335, R342). -/
def MacAlone (s : State) (m : Nat) : Prop := macPair s m = none ∧ pfcOn s m = none

/-- A buffer is posted on receive ring `r` that a frame of `n` bytes fits; entry and buffer are within the context's rights, and the
ring raises no signal (R327, R329, R330). `e` is the entry's address, `a` the buffer's. -/
def BufferPosted (s : State) (m r n e a : Nat) : Prop :=
  let g := (s.mac m).ring 1 r
  g.en = true ∧ g.hw ≠ g.sw ∧ g.sigEn = false ∧ e = g.entry g.hw.toNat ∧ a = fieldLE (load s e 8) 0 8 % 2 ^ 52 ∧
  n ≤ g.bufsz * 1024 ∧
  extCheck s (macCtx s m) [{ addr := e, len := 16, write := false }, { addr := e, len := 16, write := true }] = 0 ∧
  extCheck s (macCtx s m) [{ addr := a, len := n, write := true }] = 0

/-- A transmit entry of class `c` can be fetched (R331): the port sends, an entry is posted and readable, its class has room, and no
entry before it waits to complete. -/
def EntryFetched (s : State) (m c : Nat) : Prop :=
  let g := (s.mac m).ring 0 c
  c < 8 ∧ txOpen s m = true ∧ macHolds s m = false ∧ g.en = true ∧ inFlight (s.mac m) c < g.posted ∧ classRoom (s.mac m) c 0 = true ∧
  extCheck s (macCtx s m) [{ addr := g.entry (g.hw + BitVec.ofNat 16 (inFlight (s.mac m) c)).toNat, len := 16, write := false }] = 0 ∧
  ∀ f ∈ (s.mac m).staged, f.status = 0

/-- The bytes of the entry that is fetched next. -/
def nextEntry (s : State) (m c : Nat) : List Byte :=
  let g := (s.mac m).ring 0 c
  load s (g.entry (g.hw + BitVec.ofNat 16 (inFlight (s.mac m) c)).toNat) 16

/-- The STATUS of the entry at HWIDX of ring `r` can be written, and the ring raises no signal. -/
def StatusWritable (s : State) (m r : Nat) : Prop :=
  let g := (s.mac m).ring 0 r
  g.sigEn = false ∧ extCheck s (macCtx s m) [{ addr := g.entry g.hw.toNat + 12, len := 4, write := true }] = 0

/-- The entry at HWIDX of ring `r` has completed with a status, and HWIDX has passed it (R327). -/
def EntryDone (s t : State) (m r status : Nat) : Prop :=
  ((t.mac m).ring 0 r).hw = ((s.mac m).ring 0 r).hw + 1 ∧
  t.mem = (netStore s (((s.mac m).ring 0 r).entry ((s.mac m).ring 0 r).hw.toNat + 12) (toLE 4 status)).mem

/-! ### Ouvvos -/

/-- Tile `t` can fire operation `op` of its type on its head token `k`, a data token: no control token stands at its ports b and c, and its
output buffers have room (R351, R353). -/
def TileReady (s : State) (f t ttype op : Nat) (tl : Tile) (k : Token) (rest : List Token) : Prop :=
  armed s f t ttype op = true ∧ (s.fabric f).tile t = tl ∧ tl.a = k :: rest ∧ k.ctrl = false ∧ tl.room 0 = true ∧
  tl.room 1 = true ∧ dropCtrl tl.b = tl.b ∧ dropCtrl tl.c = tl.c

/-- The command is one firing of tile `t`, and `P` holds of what it does. -/
def Fires (i : Instr) (s : State) (f t : Nat) (P : Fire → Prop) : Prop := ∃ r, exec i s = .next (applyFire s f t r) ∧ P r

/-- A sluice can fire: it is configured for `op`, and its output buffers have room. -/
def SluiceReady (s : State) (f t op : Nat) (tl : Tile) : Prop :=
  armed s f t 4 op = true ∧ (s.fabric f).tile t = tl ∧ tl.room 0 = true ∧ tl.room 1 = true

/-- The command is one firing of an IO tile, which makes `s1`; then the tokens travel. -/
def IoFires (i : Instr) (s : State) (f : Nat) (P : State → Prop) : Prop :=
  ∃ s1, exec i s = .next (settleFabric (bump s1 (ovsPage f) 0 1) f) ∧ P s1

/-- An IO tile configured for `op` has token `k` at its head. -/
def IoReady (s : State) (f t op : Nat) (tl : Tile) (k : Token) (rest : List Token) : Prop :=
  armed s f t 3 op = true ∧ (s.fabric f).tile t = tl ∧ tl.a = k :: rest

/-- The operation of fabric `f` has ended with a status. -/
def OvsEnds (t : State) (f : Nat) (op : Op) (status : Nat) : Prop :=
  ∃ o, t.run (fabEng f) 0 = some o ∧ o.done = true ∧ o.status = BitVec.ofNat 16 status ∧ o.tag = op.tag

/-- The operation of fabric `f` waits. -/
def OvsWaits (t : State) (f : Nat) (op : Op) : Prop := t.run (fabEng f) 0 = some { op with phase := 4 }

/-- Operation `op` of code `code` can be carried out on fabric `f`, which is in RUN. -/
def OvsReady (s : State) (f code : Nat) (op : Op) (d : OvsDesc) : Prop :=
  ovsOp s f false = some (op, d) ∧ d.op = code ∧ (s.fabric f).pstate = 0

/-- The fabric has switched to a slot (R376). -/
def Switched (s t : State) (f slot : Nat) : Prop :=
  (t.fabric f).active = some slot ∧ (t.fabric f).epoch = (s.fabric f).epoch + 1 ∧ (t.fabric f).ingress = true ∧
  (t.fabric f).skids = [] ∧ (∀ p ∈ (t.fabric f).tiles, p.2.a = [] ∧ p.2.b = [] ∧ p.2.c = [] ∧ p.2.fault = false) ∧
  (t.fabric f).mems = (s.fabric f).mems

/-- A credit channel of a context takes one more credit: nobody waits, it is not faulted, and its difference is below a ring's size and
its CAPACITY. -/
def ChannelTakes (s : State) (n vid size key : Nat) : Prop :=
  ioChannel s n vid = some key ∧ (s.credit key).faulted = false ∧ (s.credit key).waiters = [] ∧ 0 ≤ creditDiff (s.credit key) ∧
  creditDiff (s.credit key) < size ∧ creditDiff (s.credit key) < (s.credit key).cap ∧ (s.credit key).cap < 2 ^ 31

/-! ### Time and power -/

/-- ERR_CODE of a page holds a code. -/
def ErrIs (t : State) (page code : Nat) : Prop := regField t page 0x1C 0 16 = code

/-- Event `i` stands in EVT_RAW of a page. -/
def Posted (t : State) (page i : Nat) : Prop := bit (regGet t page 0x10).toNat i = true

/-- Comparator `i` is due (R427, R428). -/
def TrigDue (s : State) (i : Nat) : Prop :=
  i < 16 ∧ (s.time.trig i).has 0 = true ∧ ((s.time.trig i).at ≤ tb3Ns s ∨ trigUntimed s (s.time.trig i) = true)

/-- A comparator that advances is beyond `now` for the first time (R427). -/
def NextBeyond (at_ period now next : Nat) : Prop :=
  ∃ k, 0 < k ∧ next = at_ + k * period ∧ now < next ∧ (k = 1 ∨ at_ + (k - 1) * period ≤ now)

/-- `t` has the dies of `s`, but for die `d`, which is `x`. -/
def OnlyDie (s t : State) (d : Nat) (x : DiePower) : Prop := t.die d = x ∧ ∀ i, i ≠ d → t.die i = s.die i

/-! ### The vault and the mailbox -/

/-- The warden firmware serves the mailbox, and the oldest message of function `fn` has this code; `rest` are the others. -/
def Served (s : State) (fn code : Nat) (rest : List (Nat × Nat)) : Prop :=
  mbxServed s = true ∧ mbxHead s fn = some code ∧ (takeFirst (fun (m : Nat × Nat) => m.1 == fn) s.host.mbx).map (·.2) = some rest

/-- The message has been taken, and the response of function `fn` is `r` (R500, R501). -/
def Replied (t : State) (fn : Nat) (rest : List (Nat × Nat)) (r : Resp) : Prop := t.host.mbx = rest ∧ tfind t.host.resp fn = some r

/-- A response without a body (R502). -/
def plainResp (code status dcode index : Nat) : Resp := { code := code, status := status, dcode := BitVec.ofNat 16 dcode, index := index }

/-- An image passes the checks of its header, its extent and its digest (R456, R458). -/
def ImageWhole (s : State) : Prop := hdrBad s.sec.img = false ∧ sha384 (imgBody s.sec.img) = hdrDigest s.sec.img

/-- No key of a context, a link or the owner remains (R449, R463, R465). -/
def Zeroised (t : State) : Prop :=
  (∀ n, (t.ctx n).memKey = none ∧ (t.ctx n).sealKey = none ∧ (t.ctx n).seed = none) ∧ (∀ m, (t.mac m).cak = none) ∧ t.sec.otk = [] ∧
  t.sec.policy = none ∧ ∀ k, k < 12 → (t.link k).keyed = false

/-! ### Resets and test access -/

/-- What every device reset leaves (R514, R521): contexts FREE without keys, harts and engines idle, salterns OFF and the hub in RUN, links
DOWN, fabrics and MACs unassigned, no image running, no policy, no session, SRAM of zeros. -/
def DeviceReset (t : State) : Prop :=
  (∀ n, t.ctx n = {}) ∧ (∀ h, t.hart h = {}) ∧ t.queues = [] ∧ t.running = [] ∧ t.tags = [] ∧ t.owner = [] ∧
  (∀ d, d < 8 → (t.die d).state = 3 ∧ (t.die d).target = none) ∧ (t.die 8).state = 0 ∧
  (∀ k, (t.link k).state = 0 ∧ (t.link k).keyed = false) ∧ (∀ f, t.fabric f = {}) ∧ (∀ m, (t.mac m).up = false) ∧
  t.flags = [] ∧ t.barriers = [] ∧ t.credits = [] ∧ t.jobs = [] ∧ t.sec.running = [] ∧ t.sec.staged = none ∧ t.sec.policy = none ∧
  t.host.sessions = [] ∧ t.host.mbx = [] ∧
  ∀ a, 0x180_0000_0000 ≤ a → a < hostBase → rdByte t.mem a = 0

/-- The always-on domain is as it was: the four bases and the steering of TB3 (R415, R512, R514). -/
def TimeKept (s t : State) : Prop :=
  t.time.tb = s.time.tb ∧ t.time.running = s.time.running ∧ t.time.stepped = s.time.stepped ∧ t.time.active = s.time.active

/-- The test access port holds an instruction. -/
def TapHolds (t : State) (code : Nat) : Prop := t.boot.tapIr = BitVec.ofNat 8 code

end Sys2Proof.Machine
end

