-- ==== Sys2Proof/Certificates/Slice0/Obligations.lean ====
section
/-! DEFINITION. The statements of the model, for the provers. -/

open Sys2Proof Sys2Proof.Machine

/-! ### The queue of commands -/


/-- A step with command `c` at the front of the queue is `exec` of `c` with the queue's rest. -/
def Obligations.StepRunsTheFrontCommand : Prop :=
  ∀ (c : Instr) (rest : List Instr) (s : State), s.pending = c :: rest → step s = exec c { s with pending := rest }

/-- ZSTG writes a doubleword of the staging buffer, and traps without effect where imm[11:3] or rd is not 0 (R41, R42). ZPUSH, ZTPUSH and
ZPUSHM, and the retry of a blocked push, enter the descriptor in its queue under a free tag (R41, R43, R44, R50). Without an entry or a
tag, ZPUSH and ZPUSHM hold the hart and ZTPUSH returns REFUSED with TAG 0; nothing is pushed (R43, R44). A push that R43 ends at once,
without SIG_EN, writes a record of KIND 0x4 with its status at the tail of the hart's ring, and enters no queue (R43, R58 to R60). A word of
custom-0 or custom-1 whose funct3 and funct7 name no command traps and does nothing else (R41, R42). -/
def Obligations.StagingAndPushes : Prop :=
  (∀ (s : State) (h n w : Nat), Issues s h n →
    let f3 := wordField w 12 3
    let f7 := wordField w 25 7
    let x := fun (lo : Nat) => hartReg s h (wordField w lo 5)
    (w % 128 = 0x0B → (f3 = 1 ∧ 3 ≤ f7) ∨ (f3 = 2 ∧ 2 ≤ f7) ∨ ((f3 = 3 ∨ f3 = 4) ∧ 1 ≤ f7) ∨ 5 ≤ f3 →
      issueWord h w s = .next (s.setHart h { s.hart h with trap := some .illegal })) ∧
    (w % 128 = 0x2B → (f3 = 0 ∧ 3 ≤ f7) ∨ (f3 = 1 ∧ 1 ≤ f7) ∨ 2 ≤ f3 →
      issueWord h w s = .next (s.setHart h { s.hart h with trap := some .illegal })) ∧
    (w % 128 = 0x0B → f3 = 0 → issueWord h w s = exec (.zstg h (wordField w 7 5) (x 15) (BitVec.ofNat 12 (wordField w 20 12))) s) ∧
    (w % 128 = 0x0B → f3 = 1 → f7 = 0 → issueWord h w s = exec (.zpush h (wordField w 7 5) (x 15)) s) ∧
    (w % 128 = 0x0B → f3 = 1 → f7 = 1 → issueWord h w s = exec (.ztpush h (wordField w 7 5) (x 15)) s) ∧
    (w % 128 = 0x0B → f3 = 1 → f7 = 2 → issueWord h w s = exec (.zpushm h (wordField w 7 5) (x 15) (x 20)) s)) ∧
  (∀ (s : State) (h n rd : Nat) (rs1 : Dword) (imm : BitVec 12), Issues s h n →
    (rd = 0 ∧ imm.toNat < 8 → exec (.zstg h rd rs1 imm) s =
      .next (s.setHart h { s.hart h with staging := tset 0 (s.hart h).staging imm.toNat rs1 })) ∧
    (rd ≠ 0 ∨ 8 ≤ imm.toNat → exec (.zstg h rd rs1 imm) s = .next (s.setHart h { s.hart h with trap := some .illegal }))) ∧
  (∀ (s : State) (h n rd : Nat) (rs1 rs2 : Dword) (desc : List Byte), PushReady s n h rs1 →
    (Issues s h n → Yields (.zpush h rd rs1) s fun t => Pushed s t n h rd rs1 (stagingBytes (s.hart h))) ∧
    (Issues s h n → Yields (.ztpush h rd rs1) s fun t => Pushed s t n h rd rs1 (stagingBytes (s.hart h))) ∧
    (Issues s h n → rs2.toNat % 64 = 0 → rs2.toNat ≤ 0xBFC0 →
      Yields (.zpushm h rd rs1 rs2) s fun t => Pushed s t n h rd rs1 (s.raw (coreMemAddr (hartCore h) rs2.toNat) 64)) ∧
    (hartCtx s h = some n → (s.hart h).blocked = some (.push rd rs1 desc) → (s.hart h).stopped = false →
      Yields (.pushUnblock h) s fun t => Pushed s t n h rd rs1 desc)) ∧
  (∀ (s : State) (h n rd : Nat) (rs1 rs2 : Dword), Issues s h n → pushRoom s n h rs1.toNat (pushStatus s n h rs1.toNat) = false →
    exec (.zpush h rd rs1) s =
      .next (s.setHart h { s.hart h with blocked := some (.push rd rs1 (stagingBytes (s.hart h))) }) ∧
    exec (.ztpush h rd rs1) s = .next (s.setHart h (wrX (s.hart h) rd (BitVec.ofNat 64 (2 ^ 63)))) ∧
    (rs2.toNat % 64 = 0 ∧ rs2.toNat ≤ 0xBFC0 → exec (.zpushm h rd rs1 rs2) s =
      .next (s.setHart h { s.hart h with blocked := some (.push rd rs1 (s.raw (coreMemAddr (hartCore h) rs2.toNat) 64)) })) ∧
    (rs2.toNat % 64 ≠ 0 ∨ 0xBFC0 < rs2.toNat → exec (.zpushm h rd rs1 rs2) s =
      .next (s.setHart h { s.hart h with trap := some .illegal }))) ∧
  (∀ (s : State) (h n rd : Nat) (rs1 : Dword), Issues s h n →
    pushStatus s n h rs1.toNat ≠ 0 → pushRoom s n h rs1.toNat (pushStatus s n h rs1.toNat) = true →
    (∃ i, i < 1024 ∧ tfind s.tags (tagDie h (pushEng rs1) * 1024 + i) = none) →
    bit (fieldLE (stagingBytes (s.hart h)) 0 8) 31 = false →
    Yields (.zpush h rd rs1) s fun t => ∃ tag, tfind s.tags tag = none ∧
      t.queues = s.queues ∧
      (t.hart h).ring = (s.hart h).ring ++ [tag] ∧ (t.hart h).tail = (s.hart h).tail + 1 ∧
      (t.hart h).x = (wrX (s.hart h) rd (BitVec.ofNat 64 tag)).x ∧
      t.raw (ringAddr h (s.hart h).tail.toNat) 32 =
        recordBytes (newOp s n h (pushEng rs1) (pushQueue rs1) tag (stagingBytes (s.hart h))) (pushStatus s n h rs1.toNat)
          (stamp s).toNat (b2n (s.hart h).tailPhase * 2 ^ 15))

/-- ZVEC appends its word to the open block of the bay, opening one where none is open, and ZVEND closes the block with its trailer under
a free tag (R41, R47); an rd of ZVEC that is not x0, or an operand that names no bay of the context, traps (R42). -/
def Obligations.VectorBlockPushes : Prop :=
  ∀ (s : State) (h n rd b : Nat) (rs1 rs2 : Dword), Issues s h n →
    (vecBay s n rs1 = some b → vecRefuses s n b = 0 → ((s.vec b).owner = none ∨ (s.vec b).owner = some h) →
      ((s.vec b).stop = 0 → vecWords (s.vec b) < 512 → enabled s (pageOf 11 b) = true →
        exec (.zvec h 0 rs1 rs2) s = .next
          (((s.setVec b { s.vec b with owner := some h, q := (s.vec b).q ++ [.word rs2] }).reach (hartEng h / 256) (b / 32)).setHart h
            { s.hart h with blocked := none })) ∧
      (tagFree s n h (tagDie h (pushEng rs1)) = true →
        (∃ i, i < 1024 ∧ tfind s.tags (tagDie h (pushEng rs1) * 1024 + i) = none) →
        Yields (.zvend h rd rs1 rs2) s fun t => ∃ tag op, tfind s.tags tag = none ∧
          (t.hart h).x = (wrX (s.hart h) rd (BitVec.ofNat 64 tag)).x ∧
          t.vec b = { s.vec b with owner := none, q := (s.vec b).q ++ [.close op] } ∧ op.tag = tag ∧ op.ctx = n ∧ op.hart = h ∧
          op.body = toLE 8 rs2.toNat)) ∧
    (rd ≠ 0 ∨ vecBay s n rs1 = none → exec (.zvec h rd rs1 rs2) s = .next (s.setHart h { s.hart h with trap := some .illegal })) ∧
    (vecBay s n rs1 = none → exec (.zvend h rd rs1 rs2) s = .next (s.setHart h { s.hart h with trap := some .illegal }))

/-- ZSUM returns an item of the latest completed block of the context on the bay, and 0 where there is none (R68). ZCWAIT and ZCNEXT
return the ring index and the status of a record that is in the ring, and hold the hart otherwise (R41). ZCACK consumes the records at the
head: their tags are free, the head advances, and the expected phase flips as it passes index 255 (R57, R58); a count of 0, above 256 or
above the records in the ring traps (R42). -/
def Obligations.RecordsAndSummaries : Prop :=
  (∀ (s : State) (h n rd b : Nat) (rs1 rs2 : Dword) (m : Summary), Issues s h n →
    (engKind (pushEng rs1) = .bay → engBay (pushEng rs1) = b → s.bayCtx b = some n →
      ((s.vec b).last = some m → exec (.zsum h rd rs1 rs2) s =
        .next (s.setHart h (wrX (s.hart h) rd (BitVec.ofNat 64 (summaryItem m (rs2.toNat % 8)))))) ∧
      ((s.vec b).last = none → exec (.zsum h rd rs1 rs2) s = .next (s.setHart h (wrX (s.hart h) rd 0)))) ∧
    (engKind (pushEng rs1) ≠ .bay ∨ s.bayCtx (engBay (pushEng rs1)) ≠ some n →
      exec (.zsum h rd rs1 rs2) s = .next (s.setHart h (wrX (s.hart h) rd 0)))) ∧
  (∀ (s : State) (h n rd i : Nat) (rs1 : Dword), Issues s h n →
    (ringIndex (s.hart h) (rs1.toNat % 8192) = some i →
      exec (.zcwait h rd rs1) s = .next (s.setHart h (wrX (s.hart h) rd (recordWord s h i)))) ∧
    (ringIndex (s.hart h) (rs1.toNat % 8192) = none →
      exec (.zcwait h rd rs1) s = .next (s.setHart h { s.hart h with blocked := some (.cwait rd (rs1.toNat % 8192)) })) ∧
    ((s.hart h).ring ≠ [] →
      exec (.zcnext h rd) s = .next (s.setHart h (wrX (s.hart h) rd (recordWord s h (s.hart h).head.toNat)))) ∧
    ((s.hart h).ring = [] → exec (.zcnext h rd) s = .next (s.setHart h { s.hart h with blocked := some (.cnext rd) }))) ∧
  (∀ (s : State) (h n k : Nat) (rs1 : Dword), Issues s h n → rs1.toNat % 512 = k →
    (1 ≤ k → k ≤ 256 → k ≤ (s.hart h).ring.length → Yields (.zcack h rs1) s fun t =>
      t.hart h = { s.hart h with
        ring := (s.hart h).ring.drop k, head := (s.hart h).head + BitVec.ofNat 8 k,
        phase := if 256 ≤ (s.hart h).head.toNat + k then !(s.hart h).phase else (s.hart h).phase } ∧
      (∀ tag, tfind t.tags tag = if tag ∈ (s.hart h).ring.take k then none else tfind s.tags tag) ∧
      (∀ h', h' ≠ h → t.hart h' = s.hart h') ∧ t = { s with harts := t.harts, tags := t.tags }) ∧
    (k = 0 ∨ 256 < k ∨ (s.hart h).ring.length < k →
      exec (.zcack h rs1) s = .next (s.setHart h { s.hart h with trap := some .illegal })))

/-- zctx reads the context, ABORTED and the epoch (R40, R65). ZEACK returns the epoch at once outside ABORTED; in ABORTED it requests the
acknowledgement and holds the hart (R66). The epoch
increment: an acknowledged context in ABORTED with nothing queued or running returns to RUN with the next epoch, and every object that its
table maps is reset, GEN and CAPACITY excepted (R66, R280). -/
def Obligations.EpochAcknowledgement : Prop :=
  (∀ (s : State) (h n : Nat) (v : Dword), hartCtx s h = some n → n < 64 → csrRead s h 0xCC0 = some v →
    bits v.toNat 0 6 = n ∧ (bit v.toNat 6 = true ↔ (s.ctx n).st = .aborted) ∧ bits v.toNat 16 16 = (s.ctx n).epoch.toNat) ∧
  (∀ (s : State) (h n rd : Nat), Issues s h n →
    ((s.ctx n).st ≠ .aborted →
      exec (.zeack h rd) s = .next (s.setHart h (wrX (s.hart h) rd (BitVec.ofNat 64 (s.ctx n).epoch.toNat)))) ∧
    ((s.ctx n).st = .aborted →
      exec (.zeack h rd) s =
        .next ((s.setCtx n { s.ctx n with ackPending := true }).setHart h { s.hart h with blocked := some (.eack rd) }))) ∧
  (∀ (s : State) (n : Nat), (s.ctx n).st = .aborted → (s.ctx n).ackPending = true → ctxIdle s n = true → s.dead = false →
    Yields (.epochIncrement n) s fun t =>
      (t.ctx n).st = .run ∧ (t.ctx n).epoch = (s.ctx n).epoch + 1 ∧ (t.ctx n).ackPending = false ∧
      (∀ n', n' ≠ n → t.ctx n' = s.ctx n') ∧
      (∀ p ∈ (s.ctx n).map, bit p.2.toNat 0 = true →
        (p.1 / 4096 = 0 → (t.flag (entryObj 0 p.2)).set = false ∧ (t.flag (entryObj 0 p.2)).coalesce = 0) ∧
        (p.1 / 4096 = 1 → (t.barrier (entryObj 1 p.2)).arr = [] ∧ (t.barrier (entryObj 1 p.2)).lap = [] ∧
          (t.barrier (entryObj 1 p.2)).gen = (s.barrier (entryObj 1 p.2)).gen) ∧
        (p.1 / 4096 = 2 → (t.credit (entryObj 2 p.2)).p = 0 ∧ (t.credit (entryObj 2 p.2)).c = 0 ∧
          (t.credit (entryObj 2 p.2)).faulted = false ∧
          (t.credit (entryObj 2 p.2)).cap = (s.credit (entryObj 2 p.2)).cap)) ∧
      t.mem = s.mem ∧ t.regs = s.regs ∧ t.queues = s.queues)

/-- A ZSYNC that fails the checks of R255 returns the first status in their order with RESULT 0, and touches no object; a name that maps
nothing raises the fault of R9. One that passes them, to an object whose home is OFF, returns ENGINE_FENCED with RESULT 0 (R437). -/
def Obligations.ZsyncRefusals : Prop :=
  ∀ (s : State) (h n rd : Nat) (rs1 rs2 : Dword), Issues s h n →
    let refused (i : Instr) (f : SyncForm) : Prop :=
      ((bits rs1.toNat 16 8 = f.code ∨ bits rs1.toNat 16 8 ∉ syncCodes) → syncCheck s n f rs1.toNat rs2.toNat ≠ 0 →
        exec i s = .next ((if syncCheck s n f rs1.toNat rs2.toNat = cSyncUnmapped then nameFault s n (rs1.toNat % 16384) else s).setHart h
          (wrX (s.hart h) rd (syncWord 0 (syncCheck s n f rs1.toNat rs2.toNat))))) ∧
      (∀ key, bits rs1.toNat 16 8 = f.code → syncCheck s n f rs1.toNat rs2.toNat = 0 → translate s n (rs1.toNat % 16384) = some key →
        homeOff s (rs1.toNat % 16384) key = true →
        exec i s = .next (s.setHart h (wrX (s.hart h) rd (syncWord 0 cEngineFenced))))
    refused (.fset h rd rs1 rs2) (flagForm 0x00 false) ∧ refused (.fclr h rd rs1 rs2) (flagForm 0x01 false) ∧
    refused (.ftest h rd rs1 rs2) (flagForm 0x02 false) ∧ refused (.ftestc h rd rs1 rs2) (flagForm 0x03 false) ∧
    refused (.fwait h rd rs1 rs2) (flagForm 0x04 true) ∧ refused (.fwaitc h rd rs1 rs2) (flagForm 0x05 true) ∧
    refused (.bconf h rd rs1 rs2) (barForm 0x10 16 false) ∧ refused (.barr h rd rs1 rs2) (barForm 0x11 0 false) ∧
    refused (.bwait h rd rs1 rs2) (barForm 0x12 16 true) ∧ refused (.barrw h rd rs1 rs2) (barForm 0x13 0 true) ∧
    refused (.bstat h rd rs1 rs2) (barForm 0x14 0 false) ∧ refused (.cconf h rd rs1 rs2) (credForm 0x20 30 false false) ∧
    refused (.cprod h rd rs1 rs2) (credForm 0x21 31 false true) ∧ refused (.ccons h rd rs1 rs2) (credForm 0x22 31 false true) ∧
    refused (.cwait h rd rs1 rs2) (credForm 0x23 31 true true) ∧ refused (.cwaitc h rd rs1 rs2) (credForm 0x24 31 true true) ∧
    refused (.cread h rd rs1 rs2) (credForm 0x25 0 false false)

/-- FSET, FCLR, FTEST and FTESTC: the flag after them, and SET before them as RESULT (R254, R258, R259). The set of a clear flag is here
of one that nobody waits on; WaitsEnd has the waiters. FWAIT and FWAITC on a set flag return at once, FWAITC clearing it, with
EPOCH_MISMATCH where the set carries an epoch mark (R307); on a clear one the hart is held and waits last in the order of arrival (R254,
R258, R259). In an aborted context they return ABORTED_EPOCH at once (R65). -/
def Obligations.FlagOperationsAndWaits : Prop :=
  (∀ (s : State) (h n rd key : Nat) (rs1 rs2 : Dword),
    (SyncReaches s h n rs1 rs2 (flagForm 0x00 false) key →
      ((s.flag key).set = false → (s.flag key).waiters = [] → Yields (.fset h rd rs1 rs2) s fun t =>
        (t.flag key).set = true ∧ (t.flag key).coalesce = (s.flag key).coalesce ∧ SyncAnswers s t h rd 0 0) ∧
      ((s.flag key).set = true → Yields (.fset h rd rs1 rs2) s fun t =>
        (t.flag key).set = true ∧ SyncAnswers s t h rd 1 0 ∧ (t.flag key).waiters = (s.flag key).waiters ∧
        (t.flag key).coalesce = if (s.flag key).coalesce = 0xFFFF then 0xFFFF else (s.flag key).coalesce + 1)) ∧
    (SyncReaches s h n rs1 rs2 (flagForm 0x01 false) key → Yields (.fclr h rd rs1 rs2) s fun t =>
      (t.flag key).set = false ∧ (t.flag key).coalesce = (s.flag key).coalesce ∧
      SyncAnswers s t h rd (b2n (s.flag key).set) 0) ∧
    (SyncReaches s h n rs1 rs2 (flagForm 0x02 false) key → exec (.ftest h rd rs1 rs2) s =
      .next ((syncHome s h rs1 key).setHart h (wrX (s.hart h) rd (syncWord (b2n (s.flag key).set) 0)))) ∧
    (SyncReaches s h n rs1 rs2 (flagForm 0x03 false) key → Yields (.ftestc h rd rs1 rs2) s fun t =>
      (t.flag key).set = false ∧ SyncAnswers s t h rd (b2n (s.flag key).set) 0)) ∧
  (∀ (s : State) (h n rd key : Nat) (rs1 rs2 : Dword), (s.ctx n).st = .aborted →
    (SyncReaches s h n rs1 rs2 (flagForm 0x04 true) key → exec (.fwait h rd rs1 rs2) s =
      .next ((syncHome s h rs1 key).setHart h (wrX (s.hart h) rd (syncWord 0 cAbortedEpoch)))) ∧
    (SyncReaches s h n rs1 rs2 (flagForm 0x05 true) key → exec (.fwaitc h rd rs1 rs2) s =
      .next ((syncHome s h rs1 key).setHart h (wrX (s.hart h) rd (syncWord 0 cAbortedEpoch))))) ∧
  (∀ (s : State) (h n rd key : Nat) (rs1 rs2 : Dword), (s.ctx n).st = .run →
    let st := if (s.flag key).mark = true then cEpochMismatch else 0
    (SyncReaches s h n rs1 rs2 (flagForm 0x04 true) key →
      ((s.flag key).set = true → exec (.fwait h rd rs1 rs2) s =
        .next ((syncHome s h rs1 key).setHart h (wrX (s.hart h) rd (syncWord 1 st)))) ∧
      ((s.flag key).set = false → Yields (.fwait h rd rs1 rs2) s fun t => SyncHeld s t h rd ∧ ∃ w,
        (t.flag key).waiters = (s.flag key).waiters ++ [w] ∧ w.who = .hart h ∧ w.ctx = n ∧ w.clears = false)) ∧
    (SyncReaches s h n rs1 rs2 (flagForm 0x05 true) key →
      ((s.flag key).set = true → Yields (.fwaitc h rd rs1 rs2) s fun t =>
        (t.flag key).set = false ∧ SyncAnswers s t h rd 1 st) ∧
      ((s.flag key).set = false → Yields (.fwaitc h rd rs1 rs2) s fun t => SyncHeld s t h rd ∧ ∃ w,
        (t.flag key).waiters = (s.flag key).waiters ++ [w] ∧ w.who = .hart h ∧ w.ctx = n ∧ w.clears = true)))

/-- A set of a clear flag releases every WAIT_SET waiter and the oldest WAIT_SET_CLR waiter, which clears the flag; the other clearing
waiters stay queued in their order (R259). A wait that has a timeout ends with SYNC_TIMEOUT and is counted: of a hart, of a vector unit, whose
block stops, of a pan, whose operation is to stop, and of a queue's head, which completes (R256, R277). The deadlock detector: a quiet
report of a die joins the round, any other starts it afresh; a context in RUN that has been quiet for WINDOW rounds is stopped, with
DEADLOCK posted when it is closed and STALL when it is open; where its policy says so, every wait of a closed one ends (R278, R279).
Lending starts for a die and context whose unfenced bays there are all idle or waiting (R282). -/
def Obligations.WaitsEnd : Prop :=
  (∀ (s : State) (key n : Nat) (src : Src), (s.flag key).set = false →
    let ws := (s.flag key).waiters
    let f := ((flagSet s key n src).1).flag key
    (ws.find? (·.clears) = none → f.set = true ∧ f.waiters = []) ∧
    (∀ w, ws.find? (·.clears) = some w → f.set = false ∧ f.waiters = (ws.filter (·.clears)).drop 1)) ∧
  (∀ (s : State) (h rd : Nat) (x : WaitEnt), (allWaits s).find? (fun x => x.who == .hart h && !x.noTmo) = some x →
    (s.hart h).blocked = some (.sync rd) → Yields (.waitTimeout (.hart h)) s fun t =>
      t.hart h = { wrX (s.hart h) rd (syncWord 0 cSyncTimeout) with blocked := none } ∧ t.mem = s.mem ∧
      (tget 0 s.cnts (syncPage * 256) + 1 < cntMax →
        tget 0 t.cnts (syncPage * 256) = tget 0 s.cnts (syncPage * 256) + 1)) ∧
  (∀ (s : State) (w : Waiter) (x : WaitEnt), (allWaits s).find? (fun x => x.who == w && !x.noTmo) = some x →
    (∀ b, w = .vec b → (s.vec b).stop = 0 → Yields (.waitTimeout w) s fun t =>
      (t.vec b).stop = BitVec.ofNat 16 cSyncTimeout ∧ (t.vec b).held = false ∧ (t.vec b).q = discardBlock (s.vec b).q) ∧
    (∀ b i op, w = .pan b i → s.run (bayEng b) 0 = some op → op.stop = 0 → Yields (.waitTimeout w) s fun t =>
      t.run (bayEng b) 0 = some { op with stop := BitVec.ofNat 16 cSyncTimeout }) ∧
    (∀ e q op rest, w = .head e q → s.queue e q = op :: rest → bit op.hdr.toNat 31 = false →
      (∀ p ∈ s.credits, ∀ y ∈ p.2.waiters, y.who ≠ .head e q) → Yields (.waitTimeout w) s fun t =>
      t.queue e q = rest ∧ (t.hart op.hart).ring = (s.hart op.hart).ring ++ [op.tag])) ∧
  (∀ (s : State) (d n : Nat), d < 9 → n < 64 →
    (dieQuiet s d n = true → d * 64 + n ∉ s.touched → d ∉ (s.ctx n).dlQuiet → (s.ctx n).dlQuiet.length < 8 →
      Yields (.dlDieReport d n) s fun t => (t.ctx n).dlQuiet = (s.ctx n).dlQuiet ++ [d] ∧ (t.ctx n).dlRun = (s.ctx n).dlRun) ∧
    (dieQuiet s d n = true → d * 64 + n ∉ s.touched → d ∉ (s.ctx n).dlQuiet → (s.ctx n).dlQuiet.length = 8 →
      Yields (.dlDieReport d n) s fun t => (t.ctx n).dlQuiet = [] ∧ (t.ctx n).dlRun = (s.ctx n).dlRun + 1) ∧
    (dieQuiet s d n = false ∨ d * 64 + n ∈ s.touched →
      Yields (.dlDieReport d n) s fun t => (t.ctx n).dlQuiet = [] ∧ (t.ctx n).dlRun = 0 ∧ (t.ctx n).stopped = false) ∧
    ((s.ctx n).st = .run → (s.ctx n).stopped = false → (s.ctx n).dlWindow.toNat ≤ (s.ctx n).dlRun → s.syncEvq.length < 256 →
      ((s.ctx n).dlPolicy = false ∨ ctxClosed s n = false → Yields (.deadlock n) s fun t => (t.ctx n).stopped = true ∧
        ∃ e, t.syncEvq = s.syncEvq ++ [e] ∧ e.ctx = n ∧ e.code = if ctxClosed s n then 1 else 2) ∧
      ((s.ctx n).dlPolicy = true → ctxClosed s n = true → Yields (.deadlock n) s fun t =>
        (∃ e ∈ t.syncEvq, e.ctx = n ∧ e.code = 1) ∧
        ∀ k, (∀ w ∈ (t.flag k).waiters, w.ctx ≠ n) ∧ (∀ w ∈ (t.barrier k).waiters, w.ctx ≠ n) ∧
          ∀ w ∈ (t.credit k).waiters, w.ctx ≠ n))) ∧
  (∀ (s : State) (d n : Nat), d < 8 → n < 64 → d * 64 + n ∉ s.lends →
    (∃ b, b / 32 = d ∧ s.bayCtx b = some n ∧ b ∉ s.svc.bays) →
    (∀ b, b / 32 = d → s.bayCtx b = some n → b ∉ s.svc.bays → bayIdle s b = true) →
    exec (.pwrLendStart d n) s = .next { s with lends := s.lends ++ [d * 64 + n] })

/-- BCONF takes a valid block as the barrier's configuration with GEN at GEN_INIT and no arrivals, and refuses any other block with
SYNC_CONF_BAD (R261, R262); BSTAT reads GEN and the arrivals (R254). An arrival by BARR or BARRW is recorded for GEN, or one lap ahead, or
refused (R263, R264); BARRW then waits for the generation that it arrived for (R267). BWAIT for generation g returns at once when GEN − g,
read as a signed 16-bit number, is at least 1, and waits otherwise (R267). -/
def Obligations.Barriers : Prop :=
  (∀ (s : State) (h n rd key g : Nat) (rs1 rs2 : Dword) (c : BarConf),
    (SyncReaches s h n rs1 rs2 (barForm 0x10 16 false) key → NoHeads (s.barrier key).waiters →
      (rs2.toNat % 65536 % 64 = 0 → rs2.toNat % 65536 ≤ 0xBF00 →
        (parseBarConf s n (coreRead s (hartCore h) (rs2.toNat % 65536) 256) = some (g, c) →
          Yields (.bconf h rd rs1 rs2) s fun t => (t.barrier key).conf = c ∧ (t.barrier key).gen = BitVec.ofNat 16 g ∧
            (t.barrier key).arr = [] ∧ (t.barrier key).lap = [] ∧ (t.barrier key).waiters = [] ∧ SyncAnswers s t h rd g 0) ∧
        (parseBarConf s n (coreRead s (hartCore h) (rs2.toNat % 65536) 256) = none →
          exec (.bconf h rd rs1 rs2) s = .next ((syncHome s h rs1 key).setHart h (wrX (s.hart h) rd (syncWord 0 cConfBad))))) ∧
      (rs2.toNat % 65536 % 64 ≠ 0 ∨ 0xBF00 < rs2.toNat % 65536 →
        exec (.bconf h rd rs1 rs2) s = .next ((syncHome s h rs1 key).setHart h (wrX (s.hart h) rd (syncWord 0 cConfBad))))) ∧
    (SyncReaches s h n rs1 rs2 (barForm 0x14 0 false) key → exec (.bstat h rd rs1 rs2) s =
      .next ((syncHome s h rs1 key).setHart h (wrX (s.hart h) rd
        (syncWord ((s.barrier key).gen.toNat + (s.barrier key).arr.length * 65536) 0))))) ∧
  (∀ (s : State) (h n rd key : Nat) (rs1 rs2 : Dword), (s.ctx n).st = .run →
    let b := s.barrier key
    let p := participant (hartEng h)
    (SyncReaches s h n rs1 rs2 (barForm 0x11 0 false) key →
      (isParticipant b.conf p = true → p ∉ b.arr → b.arr.length + 1 < expected b.conf → Yields (.barr h rd rs1 rs2) s fun t =>
        (t.barrier key).arr = b.arr ++ [p] ∧ (t.barrier key).gen = b.gen ∧ SyncAnswers s t h rd b.gen.toNat 0) ∧
      (isParticipant b.conf p = true → p ∉ b.arr → b.arr.length + 1 = expected b.conf →
        (b.lap.length ≠ expected b.conf → Yields (.barr h rd rs1 rs2) s fun t =>
          (t.barrier key).arr = b.lap ∧ (t.barrier key).gen = b.gen + 1 ∧ SyncAnswers s t h rd b.gen.toNat 0) ∧
        (b.lap.length = expected b.conf → Yields (.barr h rd rs1 rs2) s fun t =>
          (t.barrier key).arr = [] ∧ (t.barrier key).gen = b.gen + 2 ∧ SyncAnswers s t h rd b.gen.toNat 0)) ∧
      (isParticipant b.conf p = true → p ∈ b.arr → p ∉ b.lap → Yields (.barr h rd rs1 rs2) s fun t =>
        (t.barrier key).arr = b.arr ∧ (t.barrier key).lap = b.lap ++ [p] ∧ SyncAnswers s t h rd (b.gen + 1).toNat 0) ∧
      (isParticipant b.conf p = true → p ∈ b.arr → p ∈ b.lap → Yields (.barr h rd rs1 rs2) s fun t =>
        t.barrier key = b ∧ SyncAnswers s t h rd 0 cBarrierLap) ∧
      (isParticipant b.conf p = false → exec (.barr h rd rs1 rs2) s =
        .next ((syncHome s h rs1 key).setHart h (wrX (s.hart h) rd (syncWord 0 cNotParticipant))))) ∧
    (SyncReaches s h n rs1 rs2 (barForm 0x13 0 true) key → isParticipant b.conf p = true → p ∉ b.arr →
      b.arr.length + 1 < expected b.conf → Yields (.barrw h rd rs1 rs2) s fun t => SyncHeld s t h rd ∧
        (t.barrier key).arr = b.arr ++ [p] ∧ ∃ w, (t.barrier key).waiters = b.waiters ++ [w] ∧ w.who = .hart h ∧
        w.arg = b.gen.toNat)) ∧
  (∀ (s : State) (h n rd key : Nat) (rs1 rs2 : Dword), (s.ctx n).st = .run →
    SyncReaches s h n rs1 rs2 (barForm 0x12 16 true) key →
    (1 ≤ genDiff (s.barrier key).gen (rs2.toNat % 65536) → exec (.bwait h rd rs1 rs2) s =
      .next ((syncHome s h rs1 key).setHart h (wrX (s.hart h) rd (syncWord (s.barrier key).gen.toNat 0)))) ∧
    (genDiff (s.barrier key).gen (rs2.toNat % 65536) < 1 → Yields (.bwait h rd rs1 rs2) s fun t => SyncHeld s t h rd ∧ ∃ w,
      (t.barrier key).waiters = (s.barrier key).waiters ++ [w] ∧ w.who = .hart h ∧ w.arg = rs2.toNat % 65536))

/-- CCONF sets CAPACITY and empties the channel; a CAPACITY of 0 changes nothing (R268). CREAD returns the difference (R254). CPROD and
CCONS within 0 to CAPACITY move P or C by n modulo 2^32 and return the difference after; a produce first serves the CWAITC waiters that
the difference covers, in order (R268 to R270). A produce or a consume that would
leave the range 0 to CAPACITY is not applied: the channel is FAULTED, P and C stay, and the status says which bound it breaks (R269). On a
FAULTED channel nothing changes. CWAIT and CWAITC return at once when the difference covers n, CWAITC consuming n unless an earlier CWAITC
waits; else the hart is held, last in the order of arrival (R270). -/
def Obligations.CreditChannels : Prop :=
  (∀ (s : State) (h n rd key : Nat) (rs1 rs2 : Dword), (s.credit key).faulted = false →
    (SyncReaches s h n rs1 rs2 (credForm 0x20 30 false false) key → NoHeads (s.credit key).waiters →
      (rs2.toNat % 2 ^ 30 ≠ 0 → Yields (.cconf h rd rs1 rs2) s fun t => (t.credit key).cap = rs2.toNat % 2 ^ 30 ∧
        (t.credit key).p = 0 ∧ (t.credit key).c = 0 ∧ (t.credit key).faulted = false ∧ (t.credit key).waiters = [] ∧
        SyncAnswers s t h rd 0 0) ∧
      (rs2.toNat % 2 ^ 30 = 0 →
        exec (.cconf h rd rs1 rs2) s = .next ((syncHome s h rs1 key).setHart h (wrX (s.hart h) rd (syncWord 0 cConfBad))))) ∧
    (SyncReaches s h n rs1 rs2 (credForm 0x25 0 false false) key → exec (.cread h rd rs1 rs2) s =
      .next ((syncHome s h rs1 key).setHart h (wrX (s.hart h) rd (syncWord (creditDiff (s.credit key)).toNat 0))))) ∧
  (∀ (s : State) (h n rd key k : Nat) (rs1 rs2 : Dword), rs2.toNat % 2 ^ 31 = k →
    (s.credit key).faulted = false →
    let c := s.credit key
    (SyncReaches s h n rs1 rs2 (credForm 0x21 31 false true) key →
      let c' := { c with p := c.p + BitVec.ofNat 32 k }
      0 ≤ creditDiff c' → creditDiff c' ≤ c.cap →
      let served := (creditServe (c.waiters.filter (·.clears)) { c' with last := lastSig s (hartSrc h 0x21) }).1
      Yields (.cprod h rd rs1 rs2) s fun t =>
        (t.credit key).p = c'.p ∧ (t.credit key).c = served.c ∧ SyncAnswers s t h rd (creditDiff served).toNat 0) ∧
    (SyncReaches s h n rs1 rs2 (credForm 0x22 31 false true) key →
      let c' := { c with c := c.c + BitVec.ofNat 32 k }
      0 ≤ creditDiff c' → creditDiff c' ≤ c.cap → Yields (.ccons h rd rs1 rs2) s fun t =>
        (t.credit key).c = c'.c ∧ (t.credit key).p = c.p ∧ SyncAnswers s t h rd (creditDiff c').toNat 0)) ∧
  (∀ (s : State) (key n vid k : Nat) (src : Src) (produce : Bool),
    let c := s.credit key
    let c' := if produce then { c with p := c.p + BitVec.ofNat 32 k } else { c with c := c.c + BitVec.ofNat 32 k }
    let r := creditOp s key n vid produce k src
    (c.faulted = false → creditDiff c' < 0 ∨ (c.cap : Int) < creditDiff c' →
      r.2.1 = (if creditDiff c' < 0 then cCreditUnder else cCreditOver) ∧ (r.1.credit key).faulted = true ∧
      (r.1.credit key).p = c.p ∧ (r.1.credit key).c = c.c ∧ (r.1.credit key).waiters = []) ∧
    (c.faulted = true → r.1 = s ∧ r.2.1 = cCreditFaulted)) ∧
  (∀ (s : State) (h n rd key k : Nat) (rs1 rs2 : Dword), rs2.toNat % 2 ^ 31 = k → (s.ctx n).st = .run →
    (s.credit key).faulted = false →
    let c := s.credit key
    (SyncReaches s h n rs1 rs2 (credForm 0x23 31 true true) key →
      ((k : Int) ≤ creditDiff c → exec (.cwait h rd rs1 rs2) s =
        .next ((syncHome s h rs1 key).setHart h (wrX (s.hart h) rd (syncWord (creditDiff c).toNat 0)))) ∧
      (creditDiff c < (k : Int) → Yields (.cwait h rd rs1 rs2) s fun t => SyncHeld s t h rd ∧ ∃ w,
        (t.credit key).waiters = c.waiters ++ [w] ∧ w.who = .hart h ∧ w.arg = k ∧ w.clears = false)) ∧
    (SyncReaches s h n rs1 rs2 (credForm 0x24 31 true true) key →
      ((k : Int) ≤ creditDiff c → creditDiff c ≤ (c.cap : Int) → (∀ w ∈ c.waiters, w.clears = false) →
        Yields (.cwaitc h rd rs1 rs2) s fun t => (t.credit key).c = c.c + BitVec.ofNat 32 k ∧ (t.credit key).p = c.p ∧
          SyncAnswers s t h rd (creditDiff { c with c := c.c + BitVec.ofNat 32 k }).toNat 0) ∧
      (creditDiff c < (k : Int) ∨ (∃ w ∈ c.waiters, w.clears = true) → Yields (.cwaitc h rd rs1 rs2) s fun t =>
        SyncHeld s t h rd ∧ ∃ w, (t.credit key).waiters = c.waiters ++ [w] ∧ w.who = .hart h ∧ w.arg = k ∧ w.clears = true)))

/-- A warden write of a translation entry: an entry that breaks no rule of R252 is stored, and its object, newly mapped, is as R251 has
it; any other leaves the table as it is and writes SYNC_MAP_BAD into ERR_CODE. SNAP captures the fields of an object, which no capture
changes; CTX is the accessor's own for a context, and the written one for the warden; a name that maps nothing reads 0 (R283, R284). A
warden read of SYNC_EVQ_LO removes the head event, returns its INFO and captures its other fields (R286). -/
def Obligations.SyncRegisters : Prop :=
  (∀ (s : State) (a : Acc) (v : Word) (n cls idx : Nat), isWarden s a = true → accLive s a = true →
    cls < 3 → bits (regGet s syncPage 0x40).toNat 8 2 = cls → (regGet s syncPage 0x40).toNat % 64 = n →
    bits (regGet s syncPage 0x40).toNat 12 12 = idx →
    (mapBad s n (cls * 4096 + idx) v = false → Yields (.syncMapWrite a v) s fun t =>
      tget 0 (t.ctx n).map (cls * 4096 + idx) = v ∧
      (bit v.toNat 0 = true → bit (tget 0 (s.ctx n).map (cls * 4096 + idx)).toNat 0 = false →
        (cls = 0 → t.flag (entryObj 0 v) = {}) ∧ (cls = 1 → t.barrier (entryObj 1 v) = {}) ∧
        (cls = 2 → t.credit (entryObj 2 v) = {}))) ∧
    (mapBad s n (cls * 4096 + idx) v = true → Yields (.syncMapWrite a v) s fun t =>
      t.ctxs = s.ctxs ∧ (regGet t syncPage 0x1C).toNat % 65536 = cMapBad)) ∧
  (∀ (s : State) (a : Acc) (v : Word) (n : Nat), accLive s a = true → accCtx s a = some n → bit v.toNat 31 = true →
    let vid := bits v.toNat 8 14
    let ctx := if isWarden s a = true then v.toNat % 64 else n
    (∀ key, translate s ctx vid = some key → Yields (.snap a v) s fun t =>
      let o := objView s (vidClass vid) key
      regGet t syncPage 0x58 = BitVec.ofNat 32 o.1 ∧ regGet t syncPage 0x5C = BitVec.ofNat 32 o.2.1 ∧
      regGet t syncPage 0x60 = BitVec.ofNat 32 o.2.2.1 ∧
      regGet t syncPage 0x64 = BitVec.ofNat 32 (o.2.2.2.1.length % 1024 + 2 ^ 31) ∧
      regGet t syncPage 0x6C = o.2.2.2.2.stamp ∧
      t.flags = s.flags ∧ t.barriers = s.barriers ∧ t.credits = s.credits) ∧
    (translate s ctx vid = none → Yields (.snap a v) s fun t =>
      regGet t syncPage 0x58 = 0 ∧ regGet t syncPage 0x64 = 0 ∧ regGet t syncPage 0x6C = 0 ∧
      t.flags = s.flags ∧ t.barriers = s.barriers ∧ t.credits = s.credits)) ∧
  (∀ (s : State) (a : Acc) (e : PageEvent) (rest : List PageEvent), isWarden s a = true → accLive s a = true →
    (s.syncEvq = e :: rest → Yields (.syncEvqRead a) s fun t => t.syncEvq = rest ∧ tget 0 t.readVal (accKey a) = e.info ∧
      regGet t syncPage 0xB4 = BitVec.ofNat 32 (e.ctx + e.code * 256 + 2 ^ 31)) ∧
    (s.syncEvq = [] → Yields (.syncEvqRead a) s fun t => t.syncEvq = [] ∧ tget 0 t.readVal (accKey a) = 0 ∧
      regGet t syncPage 0xB4 = 0))

/-- The head of a queue: a descriptor that passes its checks waits for its fence, then for its flag, or is ready; one that fails them, or
names what its context does not map, leaves the queue at once with its record (R51, R52). A ready head starts at its queue's turn on
an idle engine: it leaves its queue and runs (R44, R48, R52). -/
def Obligations.DescriptorHeads : Prop :=
  (∀ (s : State) (e q : Nat) (op : Op) (rest : List Op), engineServes s e = true → s.queue e q = op :: rest →
    let named := bit op.hdr.toNat 30 = true → (translate s op.ctx (bits op.hdr.toNat 32 14)).isSome = true
    let signals := bit op.hdr.toNat 31 = true → (translate s op.ctx (bits op.hdr.toNat 48 14)).isSome = true
    let passes := op.phase = 0 ∧ headerOk51 op.hdr = true ∧ engineCheck s op = 0 ∧ named ∧ signals
    let fenced := bit op.hdr.toNat 28 = true ∧ fenceHolds s e q = true
    (passes → fenced → exec (.descHead e q) s = .next (s.setQueue e q ({ op with phase := 1 } :: rest))) ∧
    ((passes ∧ ¬ fenced) ∨ (op.phase = 1 ∧ fenceHolds s e q = false) →
      (bit op.hdr.toNat 30 = false → exec (.descHead e q) s = .next (s.setQueue e q ({ op with phase := 2 } :: rest))) ∧
      (bit op.hdr.toNat 30 = true → waitStatus s op.ctx = 0 → ∀ key,
        translate s op.ctx (bits op.hdr.toNat 32 14) = some key → homeOff s (bits op.hdr.toNat 32 14) key = false →
        ((s.flag key).set = false → Yields (.descHead e q) s fun t => t.queue e q = { op with phase := 3 } :: rest ∧ ∃ w,
          (t.flag key).waiters = (s.flag key).waiters ++ [w] ∧ w.who = .head e q) ∧
        ((s.flag key).set = true → Yields (.descHead e q) s fun t =>
          t.queue e q = { op with phase := 2, mark := op.mark || (s.flag key).mark } :: rest ∧
          (t.flag key).set = decide (bits op.hdr.toNat 46 2 ≠ 1)))) ∧
    (op.phase = 0 → headerOk51 op.hdr = false ∨ engineCheck s op ≠ 0 ∨ ¬ named ∨ ¬ signals →
      (bit op.hdr.toNat 31 = false →
        Yields (.descHead e q) s fun t => t.queue e q = rest ∧ (t.hart op.hart).ring = (s.hart op.hart).ring ++ [op.tag]) ∧
      Yields (.descHead e q) s fun t => op.tag ∈ (t.hart op.hart).ring)) ∧
  (∀ (s : State) (e q : Nat) (op : Op) (rest : List Op), engineServes s e = true → s.run e 0 = none → s.queue e q = op :: rest →
    op.phase = 2 → q < queueCount e → turnOf s e q = true → fabricDozes s e = false →
    Yields (.descStart e q) s fun t => t.queue e q = rest ∧ tget 0 t.rr e = (q + 1) % queueCount e ∧
      (∃ o, t.run e 0 = some o ∧ o.tag = op.tag ∧ o.hdr = op.hdr ∧ o.body = op.body ∧ o.kind = engineKind e) ∧
      (engKind e ≠ .bay → t.mem = s.mem ∧ t.harts = s.harts ∧ t.credits = s.credits))

/-- A finished operation completes: the engine is free, its record stands last in the ring of the hart that pushed it, with
its status, unless CREC_ERR_ONLY suppresses the record of a success, whose tag is then free; its signal, here of a flag that nobody waits
on, is raised after the record (R53, R57, R58). A block completes with its trailer, and its summary is the bay's latest (R68, R203). An
operation that is marked to stop completes at its next boundary with its code; the words that are left of a stopped block are discarded
(R36, R65, R133, R177). -/
def Obligations.OperationEnds : Prop :=
  (∀ (s : State) (e key : Nat) (op : Op), s.run e 0 = some op → op.done = true → op.stop = 0 → op.mark = false → op.status = 0 →
    bit op.hdr.toNat 29 = false → bit op.hdr.toNat 31 = true → sigWell op.hdr = true → bits op.hdr.toNat 62 2 = 0 →
    translate s op.ctx (bits op.hdr.toNat 48 14) = some key → homeOff s (bits op.hdr.toNat 48 14) key = false →
    (s.flag key).set = false → (s.flag key).waiters = [] →
    Yields (.opComplete e 0) s fun t => t.run e 0 = none ∧ (t.flag key).set = true ∧
      (t.hart op.hart).ring = (s.hart op.hart).ring ++ [op.tag]) ∧
  (∀ (s : State) (e : Nat) (op : Op),
    (s.run e 0 = some op → op.done = true → op.stop = 0 → op.mark = false → bit op.hdr.toNat 31 = false →
      Yields (.opComplete e 0) s fun t => t.run e 0 = none ∧ t.queues = s.queues ∧ t.flags = s.flags ∧
        (bit op.hdr.toNat 29 = true ∧ op.status = 0 → tfind t.tags op.tag = none ∧ t.harts = s.harts) ∧
        (bit op.hdr.toNat 29 = false ∨ op.status ≠ 0 → (t.hart op.hart).ring = (s.hart op.hart).ring ++ [op.tag] ∧
          (t.hart op.hart).tail = (s.hart op.hart).tail + 1)) ∧
    (∀ rest, engKind e = .bay → (s.vec (engBay e)).q = .close op :: rest → op.mark = false →
      bit op.hdr.toNat 31 = false → bit op.hdr.toNat 29 = false →
      Yields (.opComplete e 1) s fun t => (t.vec (engBay e)).q = rest ∧ (t.vec (engBay e)).last = some (s.vec (engBay e)).sum ∧
        (t.vec (engBay e)).sum = {} ∧ (t.hart op.hart).ring = (s.hart op.hart).ring ++ [op.tag])) ∧
  (∀ (s : State) (e : Nat) (op : Op),
    (s.run e 0 = some op → op.done = false → op.stop ≠ 0 → bit op.hdr.toNat 31 = false →
      Yields (.opBoundaryStop e 0) s fun t => t.run e 0 = none ∧ t.queues = s.queues ∧
        (t.hart op.hart).ring = (s.hart op.hart).ring ++ [op.tag]) ∧
    (engKind e = .bay → (s.vec (engBay e)).stop ≠ 0 → (s.vec (engBay e)).q ≠ [] →
      Yields (.opBoundaryStop e 1) s fun t => (t.vec (engBay e)).q = discardBlock (s.vec (engBay e)).q ∧
        (t.vec (engBay e)).held = false ∧ t.mem = s.mem ∧ t.harts = s.harts))

/-- The events that open a tile: the slots of a streamed operand are filled, the checkpoint is taken and the scales are asked for, and the
running tile accumulates the terms of its flakes onto the checkpoint (R111, R118, R120, R126). -/
def Obligations.PanOpensAndRunsATile : Prop :=
  ∀ (s : State) (b : Nat) (op : Op) (d : PanDesc),
    (PanIs s b op d 1 → (d.aStream = true ∨ d.bStream = true) → (s.pan b).a.waits = false → (s.pan b).b.waits = false →
      exec (.panSlotReady b) s = .next (s.setPan b { s.pan b with ready := true })) ∧
    (PanIs s b op d 1 → ((d.aStream = false ∧ d.bStream = false) ∨ (s.pan b).ready = true) →
      Yields (.panTileStart b) s fun t => (t.pan b).stage = 2 ∧ (t.pan b).ckAcc = (s.pan b).acc ∧
        (t.pan b).ckBit = (s.pan b).bit ∧ (t.pan b).a.scale.asked = (loadFmt d.aFmt).isSome ∧
        (t.pan b).b.scale.asked = (loadFmt d.bFmt).isSome ∧ t.mem = s.mem ∧ t.running = s.running) ∧
    (PanIs s b op d 2 → scalesKnown (s.pan b) = true → d.evict = false →
      (d.op = 1 → Yields (.pmm b) s fun t => (t.pan b).stage = 3 ∧ (t.pan b).acc = accumulate (s.pan b).ckAcc
        (useOperand s op d (s.pan b) false).strips (useOperand s op d (s.pan b) true).strips ∧ t = { s with pans := t.pans }) ∧
      (d.op = 2 → Yields (.pmmGather b) s fun t => (t.pan b).stage = 3 ∧ (t.pan b).acc = accumulate (s.pan b).ckAcc
        (useOperand s op d (s.pan b) false).strips (useOperand s op d (s.pan b) true).strips ∧ t = { s with pans := t.pans })) ∧
    (PanIs s b op d 2 → scalesKnown (s.pan b) = true → d.evict = true →
      let ua := useOperand s op d (s.pan b) false
      let ub := useOperand s op d (s.pan b) true
      let evicted (t : State) : Prop := (t.pan b).stage = 3 ∧ (t.pan b).a.sat = [] ∧ (t.pan b).b.sat = [] ∧
        (t.pan b).acc = accumulate (s.pan b).ckAcc ua.strips ub.strips ∧
        (t.pan b).lateRun.isSome = (usesShadow d ua (decide (2048 < ua.outliers.length)) || usesShadow d ub false) ∧
        (d.aStream = false → d.bStream = false → t.queues = s.queues ∧ t.harts = s.harts)
      (d.op = 1 → Yields (.pmm b) s evicted) ∧ (d.op = 2 → Yields (.pmmGather b) s evicted))

/-- The end of a tile: with an event the tile is to be replayed, and the replay starts from the checkpoint; with a late fall-back the rerun
from the shadow takes the place of the first run; without either the next tile, or after the last one the output, follows. Outliers are
added to the bittern accumulator first (R125 to R128, R130). How a pan operation ends: a PNOP without arithmetic; a block written as BF16
or FP16, or quantised when no flake saturates, or converted again from the held accumulators with its corrected scales, which a saturated
flake asks for; a scale that no salinometer gives in time; and a write into a granule that the pan guards, which writes nothing to D
(R105, R129, R131, R230). -/
def Obligations.PanTilesAndOperationsEnd : Prop :=
  (∀ (s : State) (b : Nat) (op : Op) (d : PanDesc),
    (PanIs s b op d 3 → ((s.pan b).capMiss = true ∨ (s.pan b).a.sat ≠ [] ∨ (s.pan b).b.sat ≠ []) →
      Yields (.panTileEnd b) s fun t => (t.pan b).stage = 4 ∧ (t.pan b).ckAcc = (s.pan b).ckAcc ∧ (t.pan b).outliers = [] ∧
        t.mem = s.mem) ∧
    (∀ r, PanIs s b op d 3 → (s.pan b).capMiss = false → (s.pan b).a.sat = [] → (s.pan b).b.sat = [] → (s.pan b).lateRun = some r →
      Yields (.panTileEnd b) s fun t => (t.pan b).stage = 5 ∧ (t.pan b).acc = r.acc ∧ (t.pan b).bit = (s.pan b).ckBit ∧
        (t.pan b).lates = (s.pan b).lates + 1 ∧ (t.pan b).lateRun = none ∧ t.mem = s.mem) ∧
    (PanIs s b op d 5 ∨ (PanIs s b op d 3 ∧ (s.pan b).capMiss = false ∧ (s.pan b).a.sat = [] ∧ (s.pan b).b.sat = [] ∧
        (s.pan b).lateRun = none) →
      ((s.pan b).outliers = [] →
        ((s.pan b).tile + 1 < d.tiles → Yields (.panTileEnd b) s fun t => (t.pan b).stage = 1 ∧
          (t.pan b).tile = (s.pan b).tile + 1 ∧ (t.pan b).acc = (s.pan b).acc ∧
          (d.aStream = false → d.bStream = false → t.mem = s.mem)) ∧
        (d.tiles ≤ (s.pan b).tile + 1 → Yields (.panTileEnd b) s fun t => (t.pan b).stage = 6 ∧
          (t.pan b).acc = (s.pan b).acc ∧ (t.pan b).d.scale.asked = decide (2 ≤ d.dFmt) ∧
          (d.aStream = false → d.bStream = false → t.mem = s.mem))) ∧
      Yields (.bitternWork b) s fun t => (t.pan b).outliers = [] ∧ (t.pan b).acc = (s.pan b).acc ∧
        (t.pan b).bit.length = (s.pan b).bit.length ∧ t.mem = s.mem) ∧
    (PanIs s b op d 4 → crustsKnown (s.pan b).a.sat = true → crustsKnown (s.pan b).b.sat = true →
      Yields (.panReplay b) s fun t => (t.pan b).stage = 5 ∧ (t.pan b).replays = (s.pan b).replays + 1 ∧
        (t.pan b).acc = accumulate (s.pan b).ckAcc (reuseOperand s op d (s.pan b) false).strips
          (reuseOperand s op d (s.pan b) true).strips ∧ (t.pan b).bit = (s.pan b).ckBit ∧ t.mem = s.mem)) ∧
  (∀ (s : State) (b : Nat) (op : Op) (d : PanDesc),
    (panOp s b = some (op, d) → d.op = 0 → Yields (.pnop b) s fun t => PanEnds t b op 0 ∧ t.mem = s.mem) ∧
    (PanIs s b op d 6 → ((s.pan b).d.scale.asked = false ∨ (s.pan b).d.scale.known = true) →
      let vals := outVals s op d (s.pan b)
      let c := outScale d (s.pan b).d.scale (dFlakes s op d vals)
      let l := convertD d c [] (dFlakes s op d vals)
      let sat := if (outFmt d.dFmt).2.1 = true then satOut l else []
      (d.dFmt < 2 → Yields (.panOutput b) s fun t => PanEnds t b op 0 ∧ t.mem = (writeDense s op d vals).1.mem) ∧
      (2 ≤ d.dFmt → sat = [] → Yields (.panOutput b) s fun t => PanEnds t b op 0 ∧ t.mem = (writeQuant s op d l).mem) ∧
      (2 ≤ d.dFmt → sat ≠ [] → Yields (.panOutput b) s fun t => (t.pan b).stage = 8 ∧ (t.pan b).outs = vals ∧
        (t.pan b).d.sat = sat ∧ (t.pan b).d.scale.c = c ∧ t.running = s.running ∧ t.mem = s.mem)) ∧
    (PanIs s b op d 8 → crustsKnown (s.pan b).d.sat = true → Yields (.outReconverted b) s fun t => PanEnds t b op 0 ∧
      (t.pan b).reconv = true ∧ t.mem = (writeQuant s op d (convertD d (s.pan b).d.scale.c (s.pan b).d.sat
        (dFlakes s op d (s.pan b).outs))).mem) ∧
    (panOp s b = some (op, d) → panAsks (s.pan b) = true →
      Yields (.panSalTimeout b) s fun t => PanEnds t b op 0x2001 ∧ t.mem = s.mem) ∧
    (panRun s b = some (op, d) → (s.pan b).guardHit = true → (s.pan b).stage ≠ 9 →
      Yields (.memResidency b) s fun t => PanEnds t b op 0x5003 ∧ t.mem = s.mem))

/-- What a salinometer answers: a request of its own die at once, from the home entry, which a later step closes first and an unknown
tensor allocates, or from its cached copy; another die's request by an answer that SAL_FETCH_DONE delivers; a correction with the
smallest scale that covers the magnitude; an observation joins its home entry, after the step it closes, and one of an untracked tensor is
dropped (R144 to R147, R150 to R152). -/
def Obligations.SalinometerAnswers : Prop :=
  (∀ (s : State) (h d : Nat) (r : SalReq) (rest : List SalReq), salServes s h = true → nextRequest s h = some (d, r, rest) →
    (∀ c, salHome r.tid ≠ h → cached s h r = some c → Yields (.salScaleRequest h) s fun t => (t.sal h).reqs = rest ∧
      (t.sal h).entries = (s.sal h).entries ∧ Delivered t r (copyAnswer c (reqLoads r) r.fmt)) ∧
    (salHome r.tid = h → d = h → Yields (.salScaleRequest h) s fun t => (t.sal h).reqs = rest ∧
      tfind (t.sal h).entries (salKey r.ctx r.tid.toNat) = servedEntry s h r ∧ Delivered t r (homeAnswer s h r)) ∧
    (salHome r.tid = h → d ≠ h → Yields (.salScaleRequest h) s fun t =>
      tfind (t.sal h).entries (salKey r.ctx r.tid.toNat) = servedEntry s h r ∧
      ∃ y ∈ (t.sal d).reqs, y.answer = some (homeAnswer s h r) ∧ y.tid = r.tid ∧ y.engine = r.engine ∧ y.unit = r.unit ∧
        y.operand = r.operand)) ∧
  (∀ (s : State) (d : Nat),
    (∀ r rest a, salServes s d = true → takeFirst (fun r : SalReq => r.answer.isSome) (s.sal d).reqs = some (r, rest) →
      r.answer = some a → Yields (.salFetchDone d) s fun t => (t.sal d).reqs = rest ∧ Delivered t r a) ∧
    (∀ o rest, (s.sal d).obs = o :: rest →
      (∀ e, tfind (s.sal d).entries (salKey o.ctx o.tid.toNat) = some e → Yields (.salObservation d) s fun t => (t.sal d).obs = rest ∧
        tfind (t.sal d).entries (salKey o.ctx o.tid.toNat) =
          some (addObs (if o.statOnly = true then e else (stepTo s d o.ctx o.tid o.step e).2) o)) ∧
      (tfind (s.sal d).entries (salKey o.ctx o.tid.toNat) = none → Yields (.salObservation d) s fun t => (t.sal d).obs = rest ∧
        (t.sal d).entries = (s.sal d).entries)) ∧
    (∀ r rest, salServes s d = true → (s.sal d).corr = r :: rest → Yields (.salCorrection d) s fun t => (t.sal d).corr = rest ∧
      Corrected s t r (correctScale (effFmt r.fmt) r.base (f32 r.amax))))

/-- Closing a step (R147): the largest pending amax becomes the newest value of a history of at most HIST_LEN values, the pending
observations are cleared, and a step without an observation leaves history and runs as they are where nothing is staged. -/
def Obligations.ClosingAStep : Prop :=
  ∀ (e : SalEntry) (next : Word),
    let c := (closeStep e next).1
    c.step = next ∧ c.pend = false ∧ c.pendN = 0 ∧ c.pendZ = 0 ∧ c.staged = none ∧ c.invalidate = false ∧ c.clearRung = false ∧
    (e.pend = false → e.staged = none → e.invalidate = false → e.clearRung = false →
      c.hist = e.hist ∧ c.silentRun = e.silentRun ∧ c.satRun = e.satRun ∧ c.headroom = e.headroom ∧ c.rung = e.rung) ∧
    (e.pend = true → e.staged = none → e.invalidate = false → e.clearRung = false →
      c.hist = (bf16Ceil (f32 e.pendAmax) :: e.hist).take e.histLen ∧ c.histLen = e.histLen) ∧
    (e.invalidate = true → c.hist = []) ∧ (e.clearRung = true → c.rung = 0 ∧ c.silentRun = 0 ∧ c.satRun = 0) ∧
    (e.headroom ≤ 7 → e.staged = none → e.headroom ≤ c.headroom ∧ c.headroom ≤ 7)

/-- The commands of SAL_CMD act on the home entry of the context and the selected tensor, and on nothing else (R162, R163). Exports and
imports (R164, R165, R167): a transfer starts with the records it moves, fails with SAL_XFER_ADDR on an address that is not on a 64-byte
boundary or that the context may not reach and with SAL_IMPORT_HEADER on a bad header, and ends with XFER_DONE and its flag; a warden read
takes the head of the event queue (R161). A command on an entry that is not there clears FOUND and changes nothing. -/
def Obligations.SalinometerCommandsAndTransfers : Prop :=
  (∀ (s : State) (a : Acc) (d n k : Nat) (v : Word) (e : SalEntry), d < 8 → accLive s a = true →
    salCtx s a (bits v.toNat 0 6) = some n → (s.sal d).xfer = none → salHome (regGet s (salPage d) 0x4C) = d →
    k = salKey n (regGet s (salPage d) 0x4C).toNat → tfind (s.sal d).entries k = some e →
    (bits v.toNat 8 3 = 1 → Yields (.lookup a d v) s fun t => (t.sal d).window = some k ∧ (t.sal d).entries = (s.sal d).entries ∧
      winEntry t d = some (k, e) ∧ winWord0 t d = recWord8 e ∧ winWord1 t d = recWordC e ∧ regField t (salPage d) 0x50 16 1 = 1) ∧
    (bits v.toNat 8 3 = 2 → Yields (.salStage a d v) s fun t =>
      tfind (t.sal d).entries k = some { e with staged := some (winStaged s d) }) ∧
    (bits v.toNat 8 3 = 3 → Yields (.invalidate a d v) s fun t => tfind (t.sal d).entries k = some { e with invalidate := true }) ∧
    (bits v.toNat 8 3 = 4 → Yields (.clearRung a d v) s fun t => tfind (t.sal d).entries k = some { e with clearRung := true }) ∧
    (bits v.toNat 8 3 = 5 → Yields (.salFree a d v) s fun t => tfind (t.sal d).entries k = none ∧
      ∀ j, j ≠ k → tfind (t.sal d).entries j = tfind (s.sal d).entries j)) ∧
  (∀ (s : State) (a : Acc) (d n : Nat) (v : Word), d < 8 → accLive s a = true → salCtx s a (bits v.toNat 0 6) = some n →
    (s.sal d).xfer = none → (salHome (regGet s (salPage d) 0x4C) ≠ d ∨
      tfind (s.sal d).entries (salKey n (regGet s (salPage d) 0x4C).toNat) = none) →
    let absent (i : Instr) : Prop := Yields i s fun t => (t.sal d) = (s.sal d) ∧ regField t (salPage d) 0x50 16 1 = 0
    (bits v.toNat 8 3 = 1 → absent (.lookup a d v)) ∧ (bits v.toNat 8 3 = 2 → absent (.salStage a d v)) ∧
    (bits v.toNat 8 3 = 3 → absent (.invalidate a d v)) ∧ (bits v.toNat 8 3 = 4 → absent (.clearRung a d v)) ∧
    (bits v.toNat 8 3 = 5 → absent (.salFree a d v))) ∧
  (∀ (s : State) (a : Acc) (d n addr : Nat) (v : Word), d < 8 → accLive s a = true →
    salCtx s a (regField s (salPage d) 0x50 0 6) = some n → bit v.toNat 16 = true →
    addr = (regGet s (salPage d) 0xA8).toNat + (regGet s (salPage d) 0xAC).toNat * 2 ^ 32 →
    let s1 := plainWrite s (salPage d) 0xB0 v
    let failed (t : State) (code : Nat) : Prop := (t.sal d).xfer = some (n, false) ∧ (t.sal d).entries = (s.sal d).entries ∧
      (regGet t (salPage d) 0x1C).toNat % 65536 = code ∧ t.mem = s.mem
    ((s.sal d).xfer = none → bit v.toNat 0 = false →
      let len := 64 + 64 * (entriesOf s d n).length
      let bad := addr % 64 ≠ 0 ∨ extCheck s1 n [{ addr := addr, len := len, write := true }] ≠ 0
      (¬ bad → let s2 := closeAll s1 d n
        Yields (.salExport a d v) s fun t => (t.sal d).xfer = some (n, true) ∧ (t.sal d).entries = (s2.sal d).entries ∧
          t.mem = (netStore (s2.crossMem d addr len) addr (blockHeader d (entriesOf s2 d n).length ++
            (entriesOf s2 d n).flatMap fun x => recordOf (x.1 % 2 ^ 32) x.2)).mem) ∧
      (bad → Yields (.salExport a d v) s fun t => failed t cSalXferAddr)) ∧
    ((s.sal d).xfer = none → bit v.toNat 0 = true →
      let h := load s1 addr 64
      let noHeader := addr % 64 ≠ 0 ∨ extCheck s1 n [{ addr := addr, len := 64, write := false }] ≠ 0
      let good := fieldLE h 0 2 = 1 ∧ bits (fieldLE h 0 4) 16 4 = d ∧ fieldLE h 4 4 ≤ 16384 ∧
        crc32c (h.take 60) = BitVec.ofNat 32 (fieldLE h 0x3C 4)
      let noRecords := extCheck s1 n [{ addr := addr, len := 64 + 64 * fieldLE h 4 4, write := false }] ≠ 0
      (noHeader → Yields (.salImport a d v) s fun t => failed t cSalXferAddr) ∧
      (¬ noHeader → ¬ good → Yields (.salImport a d v) s fun t => failed t cSalImportHeader) ∧
      (¬ noHeader → good → noRecords → Yields (.salImport a d v) s fun t => failed t cSalXferAddr) ∧
      (¬ noHeader → good → ¬ noRecords → Yields (.salImport a d v) s fun t => (t.sal d).xfer = some (n, true) ∧ (t.sal d).entries =
        (importAll d n ((List.range (fieldLE h 4 4)).map fun i => load s1 (addr + 64 + 64 * i) 64)
          ((s.sal d).entries.filter fun e => !(e.1 / 2 ^ 32 == n)) 0 []).1)) ∧
    (∀ ok, (s.sal d).xfer = some (n, ok) →
      ((s.sal d).xferSig = none → Yields (.xferDone d) s fun t => (t.sal d).xfer = none ∧
        regField t (salPage d) 0xB4 0 2 = if ok then 2 else 3) ∧
      (∀ vid key, (s.sal d).xferSig = some vid → vidClass vid = 0 → translate s n vid = some key → homeOff s vid key = false →
        (s.flag key).set = false → (s.flag key).waiters = [] → Yields (.xferDone d) s fun t => (t.sal d).xfer = none ∧
        (t.flag key).set = true)) ∧
    (isWarden s a = true → ∀ e rest, (s.sal d).evq = e :: rest → Yields (.salEvqRead a d) s fun t => (t.sal d).evq = rest ∧
      tget 0 t.readVal (accKey a) = e.info))

/-- The words that set up a unit: VNOP, VSHAPE, VSETX, and VSUMM, which replaces the value items of the block summary (R170, R178, R191,
R201). The words that write mask registers: every bit of the destination is written (R176, R183, R184). -/
def Obligations.VectorControlAndMaskWords : Prop :=
  (∀ (s : State) (b w : Nat), vecHead s b = some w →
    let v := s.vec b
    (wOpc w = 0x00 → formV w false false false false 0 = true → Yields (.vnop b) s fun t => WordDone s t b ∧
      (t.vec b).v = v.v ∧ (t.vec b).k = v.k ∧ (t.vec b).sum = v.sum) ∧
    (wOpc w = 0x01 → formV w false false false false 10 = true → Yields (.vshape b) s fun t => WordDone s t b ∧
      (t.vec b).rows = bits (wImm w) 0 5 + 1 ∧ (t.vec b).cols = bits (wImm w) 5 5 + 1 ∧ (t.vec b).v = v.v ∧ (t.vec b).k = v.k) ∧
    (wOpc w = 0x02 → formX w = true → wField w ≤ 12 → Yields (.vsetx b) s fun t => WordDone s t b ∧
      slotF (t.vec b) (wSlotX w) (wField w) = wImm w ∧ (t.vec b).v = v.v ∧
      (∀ i f, i * 32 + f ≠ wSlotX w * 32 + wField w → slotF (t.vec b) i f = slotF v i f)) ∧
    (wOpc w = 0x05 → formV w false true false false 0 = true → Yields (.vsumm b) s fun t => WordDone s t b ∧
      (t.vec b).sum.valid = true ∧ (t.vec b).sum.sflags = v.sum.sflags ∧ (t.vec b).v = v.v ∧
      (t.vec b).sum.sum = (reduceFull v 0 (wMask w) (vreg v (wVs1 w))).getD 0 ∧
      (t.vec b).sum.nonzero = (List.range 1024).countP
        (fun l => laneSel v (wMask w) l && !(f32 (laneOf v (wVs1 w) l)).isZero))) ∧
  (∀ (s : State) (b w : Nat), vecHead s b = some w → maskDst w = true →
    let v := s.vec b
    (wOpc w = 0x40 → formV w true true true false 4 = true → wImm w ≤ 11 → Yields (.vcmp b) s fun t =>
      WritesMask s t b (wVd w) fun l => laneSel v (wMask w) l && vcmpCond (wImm w) (laneOf v (wVs1 w) l) (laneOf v (wVs2 w) l)) ∧
    (wOpc w = 0x41 → formV w true true true false 3 = true → wVs1 w ≤ 7 → wVs2 w ≤ 7 → wMask w = 0 → wImm w ≤ 6 →
      Yields (.vmop b) s fun t => WritesMask s t b (wVd w) fun l =>
        (vmopBits (wImm w) (kreg v (wVs1 w)) (kreg v (wVs2 w))).getLsbD l) ∧
    (wOpc w = 0x42 → formV w true false false false 9 = true → wMask w = 0 → Yields (.vmtri b) s fun t =>
      WritesMask s t b (wVd w) fun l =>
        let i : Int := (l / 32 : Nat)
        let j : Int := (l % 32 : Nat)
        if bit (wImm w) 8 then decide (i + signed 8 (bits (wImm w) 0 8) ≤ j) else decide (j ≤ i + signed 8 (bits (wImm w) 0 8))) ∧
    (wOpc w = 0x43 → formV w true true false false 0 = true → wMask w = 0 → Yields (.vmfrom b) s fun t =>
      WritesMask s t b (wVd w) fun l => laneOf v (wVs1 w) l != 0))

/-- Floating-point words write one rounding of the exact result into the selected lanes, under PREC (R171, R176, R179, R181). Copies and
integer words write 32-bit results into the selected lanes, VSEL into every active lane, and set no flag of the summary (R176, R178, R180,
R202). -/
def Obligations.VectorArithmeticWords : Prop :=
  (∀ (s : State) (b w : Nat), vecHead s b = some w →
    let v := s.vec b
    let p := wPrec w
    let x := fun l => srcVal p (laneOf v (wVs1 w) l)
    let y := fun l => srcVal p (laneOf v (wVs2 w) l)
    let z := fun l => srcVal p (laneOf v (wVs3 w) l)
    let writes (i : Instr) (opc : Nat) (ok : Bool) (f : Nat → Word) : Prop :=
      wOpc w = opc → ok = true → Yields i s fun t => WritesLanes s t b (wVd w) (wMask w) f
    let two := formV w true true true false 0
    let one := formV w true true false false 0
    writes (.vadd b) 0x10 two (fun l => resWord p ((x l).add (y l))) ∧
    writes (.vsub b) 0x11 two (fun l => resWord p ((x l).add (y l).neg)) ∧
    writes (.vmul b) 0x12 two (fun l => resWord p ((x l).mul (y l))) ∧
    writes (.vfma b) 0x13 (formV w true true true true 0) (fun l => resWord p (((x l).mul (y l)).add (z l))) ∧
    writes (.vmax b) 0x14 two (fun l => resWord p (maxVal (x l) (y l))) ∧
    writes (.vmin b) 0x15 two (fun l => resWord p (minVal (x l) (y l))) ∧
    writes (.vabs b) 0x16 one (fun l => resWord p (x l).abs) ∧
    writes (.vneg b) 0x17 one (fun l => resWord p (x l).neg) ∧
    writes (.vsfn b) 0x20 (formV w true true false false 4 && decide (wImm w ≤ 12)) (fun l =>
      if p then sfnF (wImm w) (instVersion s 4 b) (laneOf v (wVs1 w) l) else sfnB (wImm w) (instVersion s 4 b) (laneOf v (wVs1 w) l))) ∧
  (∀ (s : State) (b w : Nat), vecHead s b = some w →
    let v := s.vec b
    let x := fun l => laneOf v (wVs1 w) l
    let y := fun l => laneOf v (wVs2 w) l
    let writes (i : Instr) (opc : Nat) (ok : Bool) (m : Nat) (f : Nat → Word) : Prop :=
      wOpc w = opc → ok = true → Yields i s fun t => WritesLanes s t b (wVd w) m f ∧ (t.vec b).sum = v.sum
    let two := formV w true true true false 0
    let m := wMask w
    writes (.vsel b) 0x18 two 0 (fun l => if laneSel v m l then x l else y l) ∧
    writes (.vmovi b) 0x19 (formV w true false false false 32) m (fun _ => BitVec.ofNat 32 (wImm w)) ∧
    writes (.vmov b) 0x1A (formV w true true false false 0) m x ∧
    writes (.viadd b) 0x30 two m (fun l => x l + y l) ∧
    writes (.visub b) 0x31 two m (fun l => x l - y l) ∧
    writes (.vimul b) 0x32 two m (fun l => x l * y l) ∧
    writes (.viand b) 0x33 two m (fun l => x l &&& y l) ∧
    writes (.vior b) 0x34 two m (fun l => x l ||| y l) ∧
    writes (.vixor b) 0x35 two m (fun l => x l ^^^ y l) ∧
    writes (.vishl b) 0x36 (formV w true true false false 5) m (fun l => x l <<< wImm w) ∧
    writes (.vishr b) 0x37 (formV w true true false false 5) m (fun l => x l >>> wImm w) ∧
    writes (.viota b) 0x38 (formV w true false false false 32) m (fun l => BitVec.ofNat 32 (l + wImm w)) ∧
    writes (.vi2f b) 0x39 (formV w true true false false 0) m (fun l => toF32 (Val.ofInt (signed 32 (x l).toNat))) ∧
    writes (.vf2i b) 0x3A (formV w true true false false 0) m (fun l => f2i (x l)))

/-- Permutations: a selected lane takes the lane that the word names, and +0 where that lies outside the shape, which sets PERM_OOR; VROTC
never does (R185). Reductions write lane (i, 0) of each active row, lane (0, j) of each active column, or lane (0, 0), by the fixed tree;
a scan writes the selected lanes and leaves the running value of each line in the carry; a softmax writes every active lane; the optimizer
updates w, m and v in place (R186 to R190, R200). -/
def Obligations.VectorPermutationsReductionsAndUpdates : Prop :=
  (∀ (s : State) (b w : Nat), vecHead s b = some w →
    let v := s.vec b
    let x := fun l => laneOf v (wVs1 w) l
    let y := fun l => (laneOf v (wVs2 w) l).toNat
    let m := wMask w
    let writes (i : Instr) (opc : Nat) (ok : Bool) (src : Nat → Option Nat) : Prop :=
      wOpc w = opc → ok = true → Yields i s fun t =>
        WritesLanes s t b (wVd w) m (fun l => match src l with | some k => x k | none => 0) ∧
        (t.vec b).sum.sflags = (if ∃ l < 1024, laneSel v m l = true ∧ src l = none then v.sum.sflags ||| 2 else v.sum.sflags)
    let two := formV w true true true false 0
    let idx := formV w true true false false 5
    writes (.vpermr b) 0x50 two (fun l => if y l < v.cols then some (l / 32 * 32 + y l) else none) ∧
    writes (.vpermc b) 0x51 two (fun l => if y l < v.rows then some (y l * 32 + l % 32) else none) ∧
    writes (.vtrans b) 0x52 (formV w true true false false 0)
      (fun l => if laneActive v (l % 32 * 32 + l / 32) then some (l % 32 * 32 + l / 32) else none) ∧
    writes (.vrotc b) 0x53 idx (fun l => some (l / 32 * 32 + (l % 32 + wImm w) % v.cols)) ∧
    writes (.vbcr b) 0x54 idx (fun l => if wImm w < v.rows then some (wImm w * 32 + l % 32) else none) ∧
    writes (.vbcc b) 0x55 idx (fun l => if wImm w < v.cols then some (l / 32 * 32 + wImm w) else none)) ∧
  (∀ (s : State) (b w : Nat), vecHead s b = some w →
    let v := s.vec b
    let d := wVd w
    let m := wMask w
    let x := vreg v (wVs1 w)
    let rest (t : State) (p : Nat → Prop) : Prop := WordDone s t b ∧ (t.vec b).k = v.k ∧
      (∀ l, l < 1024 → ¬ p l → laneOf (t.vec b) d l = laneOf v d l)
    (wOpc w = 0x60 → redLegal w = true → v.rows ≤ 32 → Yields (.vredr b) s fun t =>
      rest t (fun l => l % 32 = 0 ∧ l / 32 < v.rows) ∧ ∀ i < v.rows, laneOf (t.vec b) d (i * 32) =
        (reduceLanes v (wImm w) m x (rowLanes i)).getD (redEmpty (wImm w))) ∧
    (wOpc w = 0x61 → redLegal w = true → v.cols ≤ 32 → Yields (.vredc b) s fun t =>
      rest t (fun l => l < v.cols) ∧ ∀ j < v.cols, laneOf (t.vec b) d j =
        (reduceLanes v (wImm w) m x (colLanes j)).getD (redEmpty (wImm w))) ∧
    (wOpc w = 0x62 → redLegal w = true → Yields (.vredf b) s fun t =>
      rest t (fun l => l = 0) ∧ laneOf (t.vec b) d 0 = (reduceFull v (wImm w) m x).getD (redEmpty (wImm w))) ∧
    (wOpc w = 0x70 → formV w true true true false 4 = true → bits (wImm w) 0 2 ≠ 3 → v.rows ≤ 32 → v.cols ≤ 32 →
      let lines := if bit (wImm w) 2 then v.cols else v.rows
      let run := fun i => scanRun v (bits (wImm w) 0 2) m x (vreg v (wVs2 w))
        (if bit (wImm w) 3 then tget 0 v.carry i else if bits (wImm w) 0 2 = 1 then 0xFF800000 else 0)
        (if bit (wImm w) 2 then (colLanes i).take v.rows else (rowLanes i).take v.cols)
      Yields (.vscan b) s fun t => rest t (fun l => laneSel v m l = true) ∧
        (∀ i < lines, tget 0 (t.vec b).carry i = (run i).2 ∧ ∀ p ∈ (run i).1, laneOf (t.vec b) d p.1 = p.2) ∧
        (∀ i, lines ≤ i → tget 0 (t.vec b).carry i = tget 0 v.carry i)) ∧
    (wOpc w = 0x80 → formV w true true true false 1 = true → (bit (wImm w) 0 = true → wVs2 w ≠ d) → v.rows ≤ 32 → v.cols ≤ 32 →
      let row := fun i => smxRow (instVersion s 4 b) (wPrec w) ((List.range v.cols).map fun j =>
        if laneSel v m (i * 32 + j) then some (x.getD (i * 32 + j) 0) else none)
      Yields (.vsmx b) s fun t =>
        rest t (fun l => laneActive v l = true) ∧ (∀ i < v.rows, ∀ j < v.cols, laneOf (t.vec b) d (i * 32 + j) = (row i).out.getD j 0) ∧
        (bit (wImm w) 0 = true → ∀ i < v.rows, laneOf (t.vec b) (wVs2 w) (i * 32) = (row i).m ∧
          laneOf (t.vec b) (wVs2 w) (i * 32 + 1) = (row i).s)) ∧
    (wOpc w = 0x90 → formV w true true true true 1 = true → d ≠ wVs1 w → d ≠ wVs2 w → wVs1 w ≠ wVs2 w →
      Yields (.vadam b) s fun t => WordDone s t b ∧ ∀ l < 1024,
        let new := adamLane (fun i => tget 0 v.params ((if bit (wImm w) 0 then 32 else 0) + i)) (laneOf v d l) (laneOf v (wVs1 w) l)
          (laneOf v (wVs2 w) l) (laneOf v (wVs3 w) l)
        laneOf (t.vec b) d l = (if laneSel v m l then new.1 else laneOf v d l) ∧
        laneOf (t.vec b) (wVs1 w) l = (if laneSel v m l then new.2.1 else laneOf v (wVs1 w) l) ∧
        laneOf (t.vec b) (wVs2 w) l = (if laneSel v m l then new.2.2 else laneOf v (wVs2 w) l)))

/-- Loads and stores of the slice: VLD and VLDQ write the selected lanes with the values stored, +0 outside the piece; VST writes the
selected lanes of the piece and nothing else (R193, R194). VSTQ asks its salinometer for the crust's scale and holds the unit; the answer
lets it write the crust and makes one observation; without an answer in time the block stops with VEC_SAL_TIMEOUT and memory is as before
(R143, R195). -/
def Obligations.VectorLoadsAndStores : Prop :=
  (∀ (s : State) (b w : Nat), vecHead s b = some w →
    let v := s.vec b
    let sl := slotOf v (wSlotM w)
    let rd := sliceByte s b
    (wOpc w = 0xA0 → formM w false = true → slotDense sl false = true → denseFault v sl w = none → Yields (.vld b) s fun t =>
      WritesLanes s t b (wVd w) (wMask w) fun l => match denseAt sl w l with
        | none => 0
        | some a => match denseNum sl.fmt with
          | some f => toF32 (decodeFmt f ((rd a).toNat + 256 * (rd (a + 1)).toNat))
          | none => BitVec.ofNat 32 ((rd a).toNat + 256 * (rd (a + 1)).toNat)) ∧
    (wOpc w = 0xA1 → formM w false = true → slotDense sl true = true → denseFault v sl w = none → Yields (.vst b) s fun t =>
      (t.vec b).v = v.v ∧ (t.vec b).q = v.q.drop 1 ∧
      (∀ a, (∀ l < 1024, laneSel v (wMask w) l = true → ∀ o, denseAt sl w l = some o → a ≠ bayAddr b o ∧ a ≠ bayAddr b o + 1) →
        rdByte t.mem a = rdByte s.mem a) ∧
      (∀ l < 1024, laneSel v (wMask w) l = true → ∀ o, denseAt sl w l = some o →
        ofLE (t.raw (bayAddr b o) 2) = (match denseNum sl.fmt with
          | some f => code f (rndOf sl.rnd) (slotBits s b sl (tileElem w l).1 (tileElem w l).2) (f32 (laneOf v (wVd w) l))
          | none => (laneOf v (wVd w) l).toNat) % 65536)) ∧
    (wOpc w = 0xA2 → formM w false = true → slotQuant sl false = true →
      (∀ l < 1024, laneSel v (wMask w) l = true → (tileElem w l).1 < (slotPlanes sl).prows → (tileElem w l).2 < (slotPlanes sl).pcols →
        planesIn (slotPlanes sl) (tileElem w l).1 (tileElem w l).2 = true) →
      Yields (.vldq b) s fun t => WritesLanes s t b (wVd w) (wMask w) fun l =>
        if (tileElem w l).1 < (slotPlanes sl).prows ∧ (tileElem w l).2 < (slotPlanes sl).pcols
        then toF32 (readQVal rd (slotPlanes sl) (tileElem w l).1 (tileElem w l).2) else 0)) ∧
  (∀ (s : State) (b w : Nat),
    let v := s.vec b
    let sl := slotOf v (wSlotM w)
    (vecHead s b = some w → wOpc w = 0xA3 → formM w false = true → wVd w ≤ 16 → slotQuant sl true = true →
      crustIn (slotPlanes sl) (128 * wTr w) (128 * wTc w) = true → w < 2 ^ 64 → Yields (.vstq b) s fun t =>
        (t.vec b).stq = some (BitVec.ofNat 64 w) ∧ (t.vec b).stqScale.known = false ∧ t.mem = s.mem ∧
        ∃ r, (t.sal (bayEng b / 256)).reqs = (s.sal (bayEng b / 256)).reqs ++ [r] ∧ r.engine = bayEng b ∧ r.unit = 1 ∧
          r.tid = sl.tid ∧ r.step = sl.step ∧ r.ctx = (s.bayCtx b).getD 0) ∧
    (v.stq = some (BitVec.ofNat 64 w) → v.stqScale.known = true → v.stop = 0 → Yields (.vstqScaleAnswer b) s fun t =>
      (t.vec b).stq = none ∧ (t.vec b).q = v.q.drop 1 ∧ (t.vec b).words = v.words + 1 ∧ (t.vec b).v = v.v ∧
      (∃ o, (t.sal (salHome sl.tid)).obs = (s.sal (salHome sl.tid)).obs ++ [o] ∧ o.tid = sl.tid ∧ o.step = sl.step ∧
        o.cold = v.stqScale.cold) ∧ t.harts = s.harts ∧ t.queues = s.queues) ∧
    (v.stq.isSome = true → v.stqScale.known = false → v.stop = 0 → Yields (.vecSalTimeout b) s fun t =>
      (t.vec b).stop = 0x4004 ∧ (t.vec b).stq = none ∧ (t.vec b).q = discardBlock v.q ∧ t.mem = s.mem))

/-- VWAIT on a set flag goes on, clearing it under WAIT_SET_CLR, and on a clear one holds the unit; VSIG applies its signal (R197, R198).
A word with a bit in a field that it does not use, a register out of range or a reserved opcode stops its block with VEC_ILLEGAL and has
no effect (R173, R177). -/
def Obligations.VectorWaitsSignalsAndIllegalWords : Prop :=
  (∀ (s : State) (b w n key : Nat), vecHead s b = some w → s.bayCtx b = some n →
    formV w false false false false 16 = true →
    let vid := bits (wImm w) 0 14
    let mode := bits (wImm w) 14 2
    vidClass vid = 0 → translate s n vid = some key → homeOff s vid key = false →
    (wOpc w = 0x03 → mode < 2 → (s.flag key).set = true → Yields (.vwait b) s fun t =>
      (t.vec b).q = (s.vec b).q.drop 1 ∧ (t.flag key).set = decide (mode = 0)) ∧
    (wOpc w = 0x03 → mode < 2 → (s.flag key).set = false → Yields (.vwait b) s fun t =>
      (t.vec b).held = true ∧ (t.vec b).q = (s.vec b).q ∧ ∃ e, (t.flag key).waiters = (s.flag key).waiters ++ [e] ∧
        e.who = .vec b ∧ e.clears = decide (mode = 1)) ∧
    (wOpc w = 0x04 → mode = 0 → (s.flag key).set = false → (s.flag key).waiters = [] → Yields (.vsig b) s fun t =>
      (t.vec b).q = (s.vec b).q.drop 1 ∧ (t.flag key).set = true ∧ (t.flag key).last.source = BitVec.ofNat 20 (bayEng b))) ∧
  (∀ (s : State) (b w : Nat), vecHead s b = some w →
    let illegal (i : Instr) (opc : Nat) (ok : Bool) : Prop :=
      wOpc w = opc → ok = false → Yields i s fun t => WordFaults s t b 0x4001
    let two := formV w true true true false 0
    let one := formV w true true false false 0
    let idx := formV w true true false false 5
    let imm := formV w true false false false 32
    (reservedOpc (wOpc w) = true → Yields (.vnop b) s fun t => WordFaults s t b 0x4001) ∧
    illegal (.vnop b) 0x00 (formV w false false false false 0) ∧
    illegal (.vshape b) 0x01 (formV w false false false false 10) ∧
    illegal (.vsetx b) 0x02 (formX w && decide (wField w ≤ 12)) ∧
    illegal (.vwait b) 0x03 (formV w false false false false 16 && decide (bits (wImm w) 14 2 < 2)) ∧
    illegal (.vsig b) 0x04 (formV w false false false false 16 && decide (bits (wImm w) 14 2 ≠ 3)) ∧
    illegal (.vsumm b) 0x05 (formV w false true false false 0) ∧
    illegal (.vsetp b) 0x06 (formX w && decide (wSlotX w ≤ 1) && decide (wField w ≤ 8)) ∧
    illegal (.vadd b) 0x10 two ∧ illegal (.vsub b) 0x11 two ∧ illegal (.vmul b) 0x12 two ∧
    illegal (.vfma b) 0x13 (formV w true true true true 0) ∧
    illegal (.vmax b) 0x14 two ∧ illegal (.vmin b) 0x15 two ∧ illegal (.vabs b) 0x16 one ∧ illegal (.vneg b) 0x17 one ∧
    illegal (.vsel b) 0x18 two ∧ illegal (.vmovi b) 0x19 imm ∧ illegal (.vmov b) 0x1A one ∧
    illegal (.vsfn b) 0x20 (formV w true true false false 4 && decide (wImm w ≤ 12)) ∧
    illegal (.viadd b) 0x30 two ∧ illegal (.visub b) 0x31 two ∧ illegal (.vimul b) 0x32 two ∧ illegal (.viand b) 0x33 two ∧
    illegal (.vior b) 0x34 two ∧ illegal (.vixor b) 0x35 two ∧ illegal (.vishl b) 0x36 idx ∧ illegal (.vishr b) 0x37 idx ∧
    illegal (.viota b) 0x38 imm ∧ illegal (.vi2f b) 0x39 one ∧ illegal (.vf2i b) 0x3A one ∧
    illegal (.vcmp b) 0x40 (formV w true true true false 4 && maskDst w && decide (wImm w ≤ 11)) ∧
    illegal (.vmop b) 0x41 (formV w true true true false 3 && maskDst w && decide (wVs1 w ≤ 7) && decide (wVs2 w ≤ 7) &&
      wMask w == 0 && decide (wImm w ≤ 6)) ∧
    illegal (.vmtri b) 0x42 (formV w true false false false 9 && maskDst w && wMask w == 0) ∧
    illegal (.vmfrom b) 0x43 (one && maskDst w && wMask w == 0) ∧
    illegal (.vpermr b) 0x50 two ∧ illegal (.vpermc b) 0x51 two ∧ illegal (.vtrans b) 0x52 one ∧ illegal (.vrotc b) 0x53 idx ∧
    illegal (.vbcr b) 0x54 idx ∧ illegal (.vbcc b) 0x55 idx ∧
    illegal (.vredr b) 0x60 (redLegal w) ∧ illegal (.vredc b) 0x61 (redLegal w) ∧ illegal (.vredf b) 0x62 (redLegal w) ∧
    illegal (.vscan b) 0x70 (formV w true true true false 4 && decide (bits (wImm w) 0 2 ≠ 3)) ∧
    illegal (.vsmx b) 0x80 (formV w true true true false 1) ∧
    illegal (.vadam b) 0x90 (formV w true true true true 1) ∧
    illegal (.vld b) 0xA0 (formM w false) ∧ illegal (.vst b) 0xA1 (formM w false) ∧ illegal (.vldq b) 0xA2 (formM w false) ∧
    illegal (.vstq b) 0xA3 (formM w false && decide (wVd w ≤ 16)) ∧
    illegal (.vmld b) 0xA4 (formM w true && decide (bits w 8 3 ≠ 0)) ∧ illegal (.vmst b) 0xA5 (formM w true))

/-- VSETP writes VALUE into field FIELD of parameter set SET, 0 or 1, and no other field; FIELD 9 to 31 raises VEC_ILLEGAL (R199). -/
def Obligations.ParameterWrites : Prop :=
  ∀ (s : State) (b w : Nat), vecHead s b = some w → wOpc w = 0x06 → formX w = true → wSlotX w ≤ 1 →
    let v := s.vec b
    let field := wSlotX w * 32 + wField w
    (wField w ≤ 8 → Yields (.vsetp b) s fun t => WordDone s t b ∧ (t.vec b).v = v.v ∧ (t.vec b).k = v.k ∧
      tget 0 (t.vec b).params field = BitVec.ofNat 32 (wImm w) ∧ ∀ j, j ≠ field → tget 0 (t.vec b).params j = tget 0 v.params j) ∧
    (9 ≤ wField w → Yields (.vsetp b) s fun t => WordFaults s t b 0x4001 ∧ (t.vec b).params = v.params)

/-- VMLD and VMST move a mask register from or to the 128 bytes at BASE + 128 × IDX of the slot, whatever the slot's FMT: mask bit l
stands in bit l mod 8 of byte l div 8; an area beyond the slice raises VEC_ADDR (R196). A slot whose bases are misaligned or whose piece
does not lie in the declared tensor raises VEC_BADSLOT (R192). -/
def Obligations.MaskMoves : Prop :=
  ∀ (s : State) (b w : Nat), vecHead s b = some w → formM w true = true →
    let v := s.vec b
    let m := bits w 8 3
    let area := slotF v (wSlotM w) 0 + 128 * wImm w
    let good := slotPlace (slotOf v (wSlotM w)) = true
    (wOpc w = 0xA4 → m ≠ 0 →
      (good → area + 128 ≤ sliceBytes → Yields (.vmld b) s fun t =>
        WritesMask s t b m fun l => bit (rdByte s.mem (bayAddr b (area + l / 8))).toNat (l % 8)) ∧
      (good → sliceBytes < area + 128 → Yields (.vmld b) s fun t => WordFaults s t b 0x4002) ∧
      (¬ good → Yields (.vmld b) s fun t => WordFaults s t b 0x4003)) ∧
    (wOpc w = 0xA5 →
      (good → area + 128 ≤ sliceBytes → Yields (.vmst b) s fun t => (t.vec b).v = v.v ∧ (t.vec b).k = v.k ∧
        (t.vec b).q = v.q.drop 1 ∧
        (∀ l, l < 1024 → bit (rdByte t.mem (bayAddr b (area + l / 8))).toNat (l % 8) = (kreg v m).getLsbD l) ∧
        ∀ a, a < bayAddr b area ∨ bayAddr b area + 128 ≤ a → rdByte t.mem a = rdByte s.mem a) ∧
      (good → sliceBytes < area + 128 → Yields (.vmst b) s fun t => WordFaults s t b 0x4002) ∧
      (¬ good → Yields (.vmst b) s fun t => WordFaults s t b 0x4003))

/-- DNOP moves nothing; DMOVE and DFILL end with the status of the first check that fails and move nothing, and otherwise write their
destination: one row of bytes in hub SRAM arrives byte for byte, whatever lay in the way, and a fill repeats its pattern (R224, R227,
R242, R245). An operation on a neighbour that no link reaches ends with the status of its route (R301). `s0` is the state once the
traffic has crossed the mesh (R24). -/
def Obligations.DmaOperations : Prop :=
  ∀ (s : State) (e : Nat) (op : Op) (d : DmaDesc), dmaOp s e = some (op, d) →
    let s0 := crossSides s e op.ctx d
    (d.op = 0 → (d.rsigEn = false → Yields (.dnop e) s fun t => DmaEnds t e op 0 0 0 ∧ t.mem = s.mem) ∧
      (d.rsigEn = true → d.remote = 0 → Yields (.dnop e) s fun t => DmaEnds t e op 0x7001 0 0 ∧ t.mem = s.mem) ∧
      (d.rsigEn = true → d.remote ≠ 0 → ∀ st, route s op.ctx d.node = .inl st →
        Yields (.dnop e) s fun t => DmaEnds t e op st 0 0 ∧ t.mem = s.mem)) ∧
    (d.op = 1 → startCheck s op d ≠ 0 → ∀ ecc i g,
      Yields (.dmove e ecc i g) s fun t => DmaEnds t e op (startCheck s op d) 0 0 ∧ t.mem = s.mem) ∧
    (d.op = 2 → startCheck s op d ≠ 0 →
      Yields (.dfill e) s fun t => DmaEnds t e op (startCheck s op d) 0 0 ∧ t.mem = s.mem) ∧
    (d.op = 1 → startCheck s op d = 0 → d.remote = 1 → ∀ st, route s0 op.ctx d.node = .inl st → ∀ i g,
      Yields (.dmove e .clean i g) s fun t => DmaEnds t e op st 0 0 ∧ t.mem = s.mem) ∧
    (d.rsigEn = false → d.op = 1 → startCheck s op d = 0 → d.remote = 0 → d.crypt = 0 →
      (let m := moveData (loadByte s0) d (srcSide d) (outSide d) (ctxSeed s0 op.ctx)
       ∀ i, Yields (.dmove e .clean i none) s fun t => DmaEnds t e op 0 (segBytes m.segs).length (crc32c (segBytes m.segs)) ∧
         t.mem = (writeLocal (countMoved s0 e m) op.ctx d m.segs).mem) ∧
      (d.sfmt = 0 → d.dfmt = 0 → d.rows = 1 → InHub d.src d.cols → InHub d.dst d.cols → ∀ i,
        Yields (.dmove e .clean i none) s fun t => Wrote s t d.dst d.cols (fun k => rdByte s.mem (d.src + k)) ∧
          DmaEnds t e op 0 d.cols (crc32c (s.raw d.src d.cols)) ∧ t.harts = s.harts ∧ t.flags = s.flags ∧ t.queues = s.queues)) ∧
    (d.rsigEn = false → d.op = 2 → startCheck s op d = 0 → d.remote = 0 → d.crypt = 0 → d.dfmt = 0 → d.rows = 1 → InHub d.dst d.cols →
      let fill := fun k => BitVec.ofNat 8 (d.tid.toNat / 2 ^ (8 * (k % 4)))
      Yields (.dfill e) s fun t => Wrote s t d.dst d.cols fill ∧ DmaEnds t e op 0 d.cols (crc32c ((List.range d.cols).map fill)) ∧
        t.harts = s.harts ∧ t.flags = s.flags ∧ t.queues = s.queues)

/-- MEM_RGN_SEL loads the staging registers with the entry in force; a write of MEM_RGN_ATTR applies the staged entry as one change, valid
or not, or is refused with MEM_RGN_BAD and changes no entry; only the warden does any of it (R226). Fencing a stack:
FENCE written 1 stops new requests, the end of those in flight sets FENCED, FENCE written 0 retrains, and the training zeroes and releases
the stack or leaves it FENCED with TRAIN_FAIL; FENCE is ignored while TRAINING is 1 (R247, R248). -/
def Obligations.RegionsAndStackFences : Prop :=
  (∀ (s : State) (a : Acc) (v : Word),
    (Warden s a →
      (let r := regionEntry s (v.toNat % 64) (bits v.toNat 8 6)
       Yields (.memRgnSel a v) s fun t => regGet t (memPage 8) 0x94 = BitVec.ofNat 32 r.base.toNat ∧
         regGet t (memPage 8) 0x98 = BitVec.ofNat 32 (r.base.toNat / 2 ^ 32) ∧
         regGet t (memPage 8) 0x9C = BitVec.ofNat 32 (r.limit.toNat % 2 ^ 32 / 65536 * 65536) ∧
         regGet t (memPage 8) 0xA0 = BitVec.ofNat 32 (r.limit.toNat / 2 ^ 32) ∧
         regGet t (memPage 8) 0xA4 = BitVec.ofNat 32 (r.attr.toNat / 2 * 2 + b2n r.valid) ∧ t.ctxs = s.ctxs ∧ t.mem = s.mem) ∧
      ((bit v.toNat 0 = false ∨ regionBad s (rgnCtx s) (stagedRegion s v) = false) → Yields (.memRgnAttr a v) s fun t =>
        tfind (t.ctx (rgnCtx s)).region (rgnIdx s) = some (stagedRegion s v) ∧
        (∀ i, i ≠ rgnIdx s → tfind (t.ctx (rgnCtx s)).region i = tfind (s.ctx (rgnCtx s)).region i) ∧
        (∀ n, n ≠ rgnCtx s → t.ctx n = s.ctx n) ∧ t.mem = s.mem) ∧
      (bit v.toNat 0 = true → regionBad s (rgnCtx s) (stagedRegion s v) = true → Yields (.memRgnAttr a v) s fun t =>
        t.ctxs = s.ctxs ∧ regField t (memPage 8) 0x1C 0 16 = 0x500A ∧ t.mem = s.mem)) ∧
    (isWarden s a = false → Yields (.memRgnSel a v) s (fun t => t.ctxs = s.ctxs ∧ t.mem = s.mem) ∧
      Yields (.memRgnAttr a v) s (fun t => t.ctxs = s.ctxs ∧ t.mem = s.mem))) ∧
  (∀ (s : State) (a : Acc) (k : Nat), k < 16 →
    (Warden s a → (s.stack k).training = false →
      exec (.stackFence a k) s = .next (s.setStack k { s.stack k with fenceReq := true }) ∧
      exec (.stackUnfence a k) s =
        .next (s.setStack k { s.stack k with fenceReq := false, training := (s.stack k).fenced })) ∧
    (Warden s a → (s.stack k).training = true →
      exec (.stackFence a k) s = .next s ∧ exec (.stackUnfence a k) s = .next s) ∧
    ((s.stack k).fenceReq = true → (s.stack k).fenced = false → stackOwners s k = [] →
      Yields (.stackFenced k) s fun t => t.stack k = { s.stack k with fenced := true } ∧ t.svc.log = s.svc.log ∧ t.ctxs = s.ctxs ∧
        t.mem = s.mem) ∧
    ((s.stack k).training = true →
      Yields (.stackTrainDone k true) s (fun t =>
        t.stack k = { s.stack k with training := false, fenced := false, trainFail := false } ∧
        (∀ x, rdByte t.mem x = if k * stackBytes ≤ x ∧ x < (k + 1) * stackBytes then 0 else rdByte s.mem x)) ∧
      exec (.stackTrainDone k false) s =
        .next (s.setStack k { s.stack k with training := false, fenced := true, trainFail := true })))

/-- The patrols walk their stores granule by granule and count what they correct; an uncorrectable error in a granule that no entry covers
writes only a record, with CTX 0 and ABORTS 0; a forced refresh changes nothing (R232 to R234, R236). BAR2: a host read returns the stored
bytes, ciphertext where a key applies, and zeros beyond the stacks; a host write lands only where HOSTW regions cover it and is otherwise
discarded and counted (R239, R498). -/
def Obligations.StoresAndPatrols : Prop :=
  (∀ (s : State) (k : Nat) (raced : Bool),
    (k < 16 → (s.stack k).fenced = false → (s.stack k).fenceReq = false → (s.stack k).training = false →
      exec (.scrubStack k .clean raced) s =
        .next (s.setStack k { s.stack k with scrub := ((s.stack k).scrub + 1) % (stackBytes / 64) }) ∧
      (∀ a, a = k * stackBytes + (s.stack k).scrub * 64 → rangeOf a = .stack k →
        Yields (.scrubStack k .corrected raced) s (fun t => t.mem = s.mem ∧ Counted s t (memPage (k / 2)) (k % 2 * 2) 1) ∧
        (entryOwner s a = none → s.svc.log.length < 1024 → ∀ n, n < 256 →
          Yields (.scrubStack k (.uncorrectable n) raced) s fun t => t.ctxs = s.ctxs ∧ t.svc.log = s.svc.log ++
            [{ words := errWords s 0x5007 0 false false 0xFFF (s.ctx 0).epoch.toNat a n }]))) ∧
    (k < 256 → k ∉ s.svc.bays →
      exec (.scrubSram k .clean raced) s =
        .next { s with sramScrub := tset 0 s.sramScrub k ((tget 0 s.sramScrub k + 1) % 49152) } ∧
      (∀ o, rangeOf (bayAddr k (tget 0 s.sramScrub k * 64)) = .slice k o →
        Yields (.scrubSram k .corrected raced) s fun t => t.mem = s.mem ∧ Counted s t (memPage (k / 32)) 4 1)) ∧
    (∀ bank, exec (.forcedRefresh k bank) s = .next s)) ∧
  (∀ (s : State) (o len : Nat) (bytes : List Byte), 0 < len → bytes ≠ [] →
    (bar2Addr s o + len ≤ 0x180_0000_0000 → (∀ x ∈ blocks (bar2Addr s o) len, fencedAt s x = false) →
      Yields (.hostBar2Read o len) s fun t => t.mem = s.mem ∧
        t.host = { s.host with lastRead := (List.range len).map fun i => storedByte s (bar2Addr s o + i) }) ∧
    (0x180_0000_0000 < bar2Addr s o + len → Yields (.hostBar2Read o len) s fun t =>
      t.host = { s.host with lastRead := List.replicate len 0 } ∧ Counted s t (pageOf 1 0) 2 1) ∧
    (bar2Addr s o + bytes.length ≤ 0x180_0000_0000 →
      ((∀ x ∈ blocks (bar2Addr s o) bytes.length, hostWritable s x = true ∧ fencedAt s x = false) →
        (∀ i, i < bytes.length → keyAt s (bar2Addr s o + i) = 0 ∧ tget 0 s.memTag ((bar2Addr s o + i) / 64) = 0) →
        Yields (.hostBar2Write o bytes) s fun t => Wrote s t (bar2Addr s o) bytes.length fun i => bytes.getD i 0) ∧
      ((∃ x ∈ blocks (bar2Addr s o) bytes.length, hostWritable s x = false) →
        Yields (.hostBar2Write o bytes) s fun t => t.mem = s.mem ∧ Counted s t (memPage 8) 6 1)))

/-- Bring-up of a link: light, calibration, training, KEYX, AGREE, each with the state that it leads to, and what a failure leads to
(R295, R297, R298, R300). -/
def Obligations.LinkBringUp : Prop :=
  ∀ (s : State) (k peer : Nat), k < 12 →
    ((s.link k).state = 0 → LinkMayRise s k →
      (k ∉ s.boot.engCal → Yields (.lightPresent k) s fun t => t.link k = { s.link k with light := true, state := 1 }) ∧
      (k ∈ s.boot.engCal → Yields (.lightPresent k) s fun t =>
        t.link k = { s.link k with light := true, state := 2, spent := [], freed := [] } ∧ k ∉ t.boot.engCal)) ∧
    ((s.link k).state = 0 → linkHold s k = true →
      Yields (.lightPresent k) s fun t => t.link k = { s.link k with light := true }) ∧
    ((s.link k).state = 1 → exec (.calibrateDone k) s =
      .next (s.setLink k { s.link k with state := 2, calibrated := true, spent := [], freed := [] })) ∧
    (∀ e, 12 ≤ e → e < 16 → engineFed s e = true → e ∉ s.boot.engCal →
      Yields (.calibrateDone e) s fun t => t.boot.engCal = s.boot.engCal ++ [e] ∧ t.links = s.links) ∧
    ((s.link k).state = 2 →
      Yields (.trainDone k) s (fun t => (t.link k).state = 3 ∧ (t.link k).lanes = 0xFF ∧ (t.link k).nonce.isSome = true) ∧
      Yields (.trainTimeout k) s (fun t => LinkFell t k 2 ∧ (t.link k).retryWait = true)) ∧
    ((s.link k).state = 0 → (s.link k).retryWait = true →
      Yields (.trainRetry k) s fun t => (t.link k).retryWait = false) ∧
    ((s.link k).state = 3 →
      (∀ nonce, policyMissing s = false → Yields (.keyx k peer nonce true true true) s fun t =>
        (t.link k).state = 4 ∧ (t.link k).keyed = true ∧ (t.link k).peer = BitVec.ofNat 20 peer ∧
        ((t.link k).keyTx, (t.link k).keyRx) = (some (sideKeys s k peer nonce).1, some (sideKeys s k peer nonce).2)) ∧
      (∀ nonce chain policy last, chain = false ∨ policy = false ∨ policyMissing s = true →
        Yields (.keyx k peer nonce chain policy last) s fun t => LinkFell t k 3 ∧ linkHold t k = true) ∧
      Yields (.keyxTimeout k) s (fun t => LinkFell t k 3 ∧ linkHold t k = true)) ∧
    (∀ peer : Digest, (s.link k).state = 4 ∨ (s.link k).state = 5 ∨ (s.link k).state = 6 →
      (peer.d = (ownDigest s k).d → Yields (.agree k peer) s fun t =>
        (t.link k).state = 6 ∧ (t.link k).diff = 0 ∧ (t.link k).mismatch = false ∧ Posted t (grlPage k) 0) ∧
      (peer.d ≠ (ownDigest s k).d → Yields (.agree k peer) s fun t =>
        (t.link k).state = 5 ∧ (t.link k).diff = digestDiff (ownDigest s k) peer ∧ (t.link k).mismatch = true ∧
        Posted t (grlPage k) 2)) ∧
    ((s.link k).state ≠ 0 → Yields (.lightLoss k) s fun t => LinkFell t k 1 ∧ (t.link k).light = false)

/-- Flits: one that fails its CRC, or arrives out of order, is discarded and asks for a replay; one that fails its tag takes the link DOWN
with AUTH_FAIL; a protocol error takes it DOWN; one in order is accepted. A replay counts what it repeats, and the retry limit takes the
link DOWN (R293 to R295). The registers of a link: REKEY starts a rekeying, as 2^48 flits under one key do; REAGREE and a new binding take
an UP link to AGREE; HOLD takes the link DOWN; recalibration runs on one half of the lanes after the other and returns to all eight, or
stays on the good half (R297, R298, R300, R317, R318). -/
def Obligations.LinkFlitsAndRegisters : Prop :=
  (∀ (s : State) (k : Nat) (image : List Byte), 3 ≤ (s.link k).state →
    (flitCrcOk image = false → Yields (.flitReceive k image) s fun t => AsksReplay t k ∧ (t.link k).rxSeq = (s.link k).rxSeq ∧
      (t.link k).state = (s.link k).state ∧ (t.link k).rxMsgs = (s.link k).rxMsgs ∧ Counted s t (grlPage k) 4 1 ∧ t.mem = s.mem) ∧
    (flitCrcOk image = true →
      (opened s k image = none → Yields (.flitReceive k image) s fun t => LinkFell t k 5 ∧ Counted s t (grlPage k) 6 1) ∧
      (∀ f, opened s k image = some f →
        (f.seq ≠ (s.link k).rxSeq → Yields (.flitReceive k image) s fun t => AsksReplay t k ∧ (t.link k).rxSeq = (s.link k).rxSeq ∧
          (t.link k).state = (s.link k).state ∧ (t.link k).rxMsgs = (s.link k).rxMsgs ∧ t.mem = s.mem) ∧
        (f.seq = (s.link k).rxSeq →
          (4 ≤ f.ftype.toNat ∨ f.reservedBits = true ∨ tget 0 (s.link k).spent f.crVc.toNat < f.crCount.toNat →
            Yields (.flitReceive k image) s fun t => LinkFell t k 6) ∧
          (f.ftype = 0 → f.reservedBits = false → f.crCount.toNat ≤ tget 0 (s.link k).spent f.crVc.toNat → f.nak = false →
            Yields (.flitReceive k image) s fun t => (t.link k).rxSeq = (s.link k).rxSeq + 1 ∧
              (t.link k).state = (s.link k).state ∧ (t.link k).rxMsgs = (s.link k).rxMsgs ∧ Counted s t (grlPage k) 1 1 ∧
              t.mem = s.mem)))) ∧
    ((s.link k).retryBuf ≠ [] →
      ((s.link k).replays + 1 < retryLimit s k → Yields (.flitReplayTimeout k) s fun t =>
        (t.link k).replays = (s.link k).replays + 1 ∧ (t.link k).state = (s.link k).state ∧
        (t.link k).retryBuf.map (·.hdr.seq) = (s.link k).retryBuf.map (·.hdr.seq) ∧
        Counted s t (grlPage k) 0 (s.link k).retryBuf.length ∧ Counted s t (grlPage k) 5 (s.link k).retryBuf.length) ∧
      (retryLimit s k ≤ (s.link k).replays + 1 → Yields (.flitReplayTimeout k) s fun t => LinkFell t k 4))) ∧
  (∀ (s : State) (a : Acc) (k : Nat) (v : Word), k < 12 →
    (Warden s a → (s.link k).state = 6 →
      ((s.link k).rekeying = false → v.toNat % 16 = 8 →
        Yields (.rekey a k v) s fun t => (t.link k).rekeying = true ∧ (t.link k).state = 6) ∧
      (v.toNat % 16 = 2 → Yields (.reagree a k v) s fun t => (t.link k).state = 4) ∧
      ((s.link k).lanes = 0xFF → v.toNat % 16 = 4 → Yields (.recalNow a k v) s fun t =>
        (t.link k).state = 7 ∧ (t.link k).half = true ∧ (t.link k).lanes = 0xF0) ∧
      (v.toNat % 16 = 1 → Yields (.hold a k v) s fun t => LinkFell t k 7) ∧
      Yields (.grlBind a k v) s (fun t => (t.link k).state = 4)) ∧
    (isWarden s a = false → ∀ i ∈ [Instr.rekey a k v, .reagree a k v, .recalNow a k v, .hold a k v, .grlBind a k v],
      Yields i s fun t => t.links = s.links) ∧
    ((s.link k).state = 6 → (s.link k).rekeying = false → 2 ^ 48 ≤ (s.link k).txCount ∨ 2 ^ 48 ≤ (s.link k).rxCount →
      Yields (.flitCountRekey k) s fun t => (t.link k).rekeying = true) ∧
    (regField s (grlPage k) 0x48 16 16 = 0 ∨ (s.link k).peer.toNat < nodeId s → exec (.recalPeriod k false) s = .next s) ∧
    (∀ byPeer, byPeer = true ∨ (regField s (grlPage k) 0x48 16 16 ≠ 0 ∧ nodeId s ≤ (s.link k).peer.toNat) →
      (s.link k).state = 6 → (s.link k).lanes = 0xFF →
      exec (.recalPeriod k byPeer) s = .next (s.setLink k { s.link k with state := 7, half := true, recalHalf := 1, lanes := 0xF0 })) ∧
    ((s.link k).state = 7 →
      ((s.link k).recalHalf = 1 → exec (.recalHalfDone k true) s =
        .next (s.setLink k { s.link k with recalHalf := 2, lanes := 0x0F })) ∧
      ((s.link k).agreeIn = none →
        ((s.link k).recalHalf = 2 → (s.link k).agreeDue = false → Yields (.recalHalfDone k true) s fun t =>
          t.link k = { s.link k with state := 6, half := false, recalHalf := 0, lanes := 0xFF }) ∧
        ((s.link k).agreeDue = false → Yields (.recalHalfDone k false) s fun t => (t.link k).state = 6 ∧ (t.link k).degraded = true ∧
          (t.link k).lanes = if (s.link k).recalHalf = 1 then 0xF0 else 0x0F) ∧
        ((s.link k).agreeDue = true → (s.link k).recalHalf = 2 → Yields (.recalHalfDone k true) s fun t => (t.link k).state = 4))))

/-- Messages of a job: a message without data brings an extent of its transfer, which is checked against the rights of the job's context
before any data is accepted; a write lands where it says and nowhere else, a read is answered on VC 2 in messages of at most 16 KiB, and
what belongs to a refused transfer is discarded; a read's data joins the transfer; a signal is applied to the object that its identifier
names; a message whose job tag matches no slot of the link is discarded (R290, R301, R302, R274). -/
def Obligations.MessagesOfAJob : Prop :=
  ∀ (s : State) (k slot : Nat) (m : Msg),
    let known := fun (t : State) => rxXfer t (s.link k).peer.toNat slot m
    (MsgHere s k 1 m slot →
      (m.len = 0 → Yields (.grlWrite k) s fun t => t.mem = s.mem ∧ t.flags = s.flags ∧ (known t).refused =
        ((known s).refused || extCheck s (linkCtx s slot) [{ addr := m.addr, len := m.xferBytes, write := true }] != 0)) ∧
      (m.len ≠ 0 → m.data.length = m.len →
        (m.sigEn = false → (known s).refused = false → extCheck s (linkCtx s slot) [{ addr := m.addr, len := m.len, write := true }] = 0 →
          InHub m.addr m.len →
          Yields (.grlWrite k) s fun t => Wrote s t m.addr m.len (fun i => m.data.getD i 0) ∧ t.flags = s.flags) ∧
        ((known s).refused = true ∨ extCheck s (linkCtx s slot) [{ addr := m.addr, len := m.len, write := true }] ≠ 0 →
          Yields (.grlWrite k) s fun t => t.mem = s.mem ∧ t.flags = s.flags ∧ t.links = (popMsg s k m).links))) ∧
    (MsgHere s k 2 m slot → m.len ≠ 0 →
      ((known s).refused = false → extCheck s (linkCtx s slot) [{ addr := m.addr, len := m.len, write := false }] = 0 →
        exec (.readReq k) s = .next ((cut m.addr m.len).foldl (fun t c => sendMsg t k
          { vc := 2, mtype := 3, jobTag := (s.jobSlot slot).tag, epoch := (s.ctx (linkCtx s slot)).epoch, addr := c.1,
            len := c.2, xfer := m.xfer, xferBytes := m.xferBytes, data := load t c.1 c.2 } none)
          ((countRx (popMsg s k m) (known s) m).1.crossMem 8 m.addr m.len))) ∧
      ((known s).refused = true ∨ extCheck s (linkCtx s slot) [{ addr := m.addr, len := m.len, write := false }] ≠ 0 →
        Yields (.readReq k) s fun t => t.mem = s.mem ∧ t.links = (popMsg s k m).links)) ∧
    (MsgHere s k 3 m slot → ∀ x, s.txXfers = [x] → x.read = true → x.slot = slot → x.xfer = m.xfer →
      (∃ w ∈ x.want, ¬(w.1 = m.addr ∧ w.2.1 = m.len)) → Yields (.readData k) s fun t =>
        t.txXfers = [{ x with want := x.want.filter fun w => !(w.1 == m.addr && w.2.1 == m.len), parts := tput x.parts m.addr m.data }] ∧
        t.mem = s.mem) ∧
    (MsgHere s k 4 m slot → ∀ key, translate s (linkCtx s slot) m.sigId = some key → mapRemote s (linkCtx s slot) m.sigId = true →
      homeOff s m.sigId key = false → m.sigMode = 0 → vidClass m.sigId = 0 → (s.flag key).set = false → (s.flag key).waiters = [] →
      Yields (.grlSignal k) s fun t => (t.flag key).set = true ∧ (t.flag key).mark = ((s.flag key).mark || m.mark) ∧ t.mem = s.mem) ∧
    (headMsg (s.link k) 4 = some m → msgSlot (popMsg s k m) k m = none →
      Yields (.grlSignal k) s fun t => t.flags = s.flags ∧ t.barriers = s.barriers ∧ t.credits = s.credits ∧ Counted s t syncPage 2 1)

/-- Jobs: GRL_NODE_ID is written only while every link is DOWN; a ring entry is written whole or refused with GRL_NO_ROUTE; ADMIT runs
AGREE on the links of the slot; TIME_OK follows the measurements and TIME_REARM; a notice aborts the epoch that it names and no other
(R300, R303 to R305, R319, R320). -/
def Obligations.JobsOfGriros : Prop :=
  ∀ (s : State) (a : Acc) (v : Word) (k : Nat),
    (Warden s a →
      ((∀ i, i < 12 → (s.link i).state = 0) → Yields (.grlNodeId a v) s fun t => nodeId t = v.toNat % 2 ^ 20) ∧
      ((∃ i, i < 12 ∧ (s.link i).state ≠ 0) → exec (.grlNodeId a v) s = .next s) ∧
      (∀ slot, regField s jobPage 0x44 0 6 = slot → slot ≠ 63 →
        (regField s jobPage 0x44 6 2 = 2 →
          (let low20 := fun (w : Word) => BitVec.ofNat 20 w.toNat
           let r : RingEnt :=
             { size := low20 (regGet s jobPage 0x48), pos := low20 (regGet s jobPage 0x4C), prev := low20 (regGet s jobPage 0x50), next := low20 v }
           (2 ≤ r.size.toNat → r.pos.toNat < r.size.toNat → r.prev ≠ 0xFFFFF → r.next ≠ 0xFFFFF → Yields (.grlJobW3 a v) s fun t =>
             tfind (t.jobSlot slot).rings (regField s jobPage 0x44 8 4) = some r) ∧
           (r.size = 0 → Yields (.grlJobW3 a v) s fun t => tfind (t.jobSlot slot).rings (regField s jobPage 0x44 8 4) = none) ∧
           (r.size ≠ 0 → r.size = 1 ∨ r.size.toNat ≤ r.pos.toNat ∨ r.prev = 0xFFFFF ∨ r.next = 0xFFFFF → Yields (.grlJobW3 a v) s fun t =>
             t.jobs = s.jobs ∧ regField t jobPage 0x1C 0 16 = 0x7001))) ∧
        (v.toNat % 4 = 2 → Yields (.jobAdmit a v) s fun t => (t.jobSlot slot).waitUp = some (jobLinks s slot) ∧
          ∀ i, i < 12 → linkSlot s i = some slot → (s.link i).state = 6 → (t.link i).state = 4) ∧
        (v.toNat % 4 = 1 → Yields (.timeRearm a v) s fun t =>
          (t.jobSlot slot).rearm = !(s.jobSlot slot).timeOk ∧ (t.jobSlot slot).timeOk = (s.jobSlot slot).timeOk))) ∧
    ((s.link k).state = 6 ∨ (s.link k).state = 7 → exec (.timeExchange k) s =
      .next (sendMgmt (s.setLink k { s.link k with t1 := some (grlStamp s) }) k 8 (stampBytes (grlStamp s)))) ∧
    ((s.link k).state ≠ 6 → (s.link k).state ≠ 7 → exec (.timeExchange k) s = .next s) ∧
    (∀ t2 t3 : Int, (s.link k).state = 6 ∨ (s.link k).state = 7 →
      exec (.time k false t2 t3) s = .next (sendMgmt s k 8 (stampBytes (grlStamp s) ++ stampBytes (grlStamp s))) ∧
      ∀ t1 slot, (s.link k).t1 = some t1 → linkSlot s k = some slot → (s.jobSlot slot).valid = true →
        let ofs := ((stampOf t2 - t1) - (grlStamp s - stampOf t3)) / 2
        Yields (.time k true t2 t3) s fun t => (t.link k).offset = BitVec.ofInt 32 ofs ∧
          (t.link k).rtt = BitVec.ofInt 32 ((grlStamp s - t1) - (stampOf t3 - stampOf t2)) ∧
          ((s.jobSlot slot).bound.toNat < ofs.natAbs → (t.jobSlot slot).timeOk = false) ∧
          (ofs.natAbs ≤ (s.jobSlot slot).bound.toNat →
            ((s.jobSlot slot).rearm = false → t.jobs = s.jobs) ∧
            ((s.jobSlot slot).rearm = true → (∀ i ∈ jobLinks s slot, i = k ∨ i ∈ (s.jobSlot slot).fresh) →
              (t.jobSlot slot).timeOk = true ∧ (t.jobSlot slot).rearm = false))) ∧
    (∀ node tag epoch slot, linkSlot s k = some slot →
      ((s.ctx (linkCtx s slot)).st ≠ .run ∨ (s.ctx (linkCtx s slot)).epoch ≠ epoch →
        exec (.abortNotice k node tag epoch) s = .next s) ∧
      ((s.jobSlot slot).valid = true → (s.jobSlot slot).abortProp = true → 4 ≤ (s.link k).state →
        (s.ctx (linkCtx s slot)).st = .run → (s.ctx (linkCtx s slot)).epoch = epoch →
        Yields (.abortNotice k node tag epoch) s fun t => (t.ctx (linkCtx s slot)).st = .aborted ∧
          (t.ctx (linkCtx s slot)).epoch = epoch))

/-- Collectives: one that begins sends its first chunk and waits for its neighbour's data, an all-gather and the root of a broadcast write
their own part at once, or keep it until the end where the output is sealed; without a ring or a neighbour it ends with GRL_NO_ROUTE, and
with the status of the first check that fails; other parameters end it with GRL_COLL_MISMATCH, and the wait for a neighbour with
SYNC_TIMEOUT, with the bytes that it had written (R62, R310 to R315). -/
def Obligations.Collectives : Prop :=
  ∀ (s : State) (e : Nat) (op : Op) (d : DmaDesc) (v : CollV),
    let waits (t : State) (phase : Nat) : Prop := ∃ c ∈ t.colls, c.engine = e ∧ c.slot = v.slot ∧ c.ring = d.node ∧ c.phase = phase ∧ c.hop = 1
    let ends (t : State) (e : Nat) (op : Op) (status : Nat) (bs : List Byte) : Prop :=
      DmaEnds t e op status bs.length (if bs.isEmpty then 0 else crc32c bs)
    (∀ text, 2 ≤ v.size →
      (CollReady s e 0x10 op d v text → (v.chunk ((v.pos + 2 * v.size - 2) % v.size)).2 ≠ 0 →
        Yields (.credscat e) s fun t => waits t 0 ∧ t.mem = s.mem) ∧
      (CollReady s e 0x12 op d v text → (v.chunk ((v.pos + 2 * v.size - 2) % v.size)).2 ≠ 0 →
        Yields (.callred e) s fun t => waits t 0 ∧ t.mem = s.mem) ∧
      (CollReady s e 0x11 op d v text → (v.chunk ((v.pos + v.size - 1) % v.size)).2 ≠ 0 →
        Yields (.callgath e) s fun t => waits t 1 ∧ t.mem = if v.seals then s.mem else
          (netStore s (d.dst + (v.chunk v.pos).1 * v.es) (collInput s d text ((v.chunk v.pos).2 * v.es))).mem)) ∧
    (∀ text, CollReady s e 0x13 op d v text →
      (v.pos = 0 → v.seals = false → let bs := collInput s d text (d.cols * v.es)
        Yields (.cbcast e) s fun t => t.mem = (netStore s d.dst bs).mem ∧ DmaEnds t e { op with phase := 4 } 0 bs.length (crc32c bs)) ∧
      (v.pos ≠ 0 → Yields (.cbcast e) s fun t => waits t 2 ∧ t.mem = s.mem)) ∧
    (dmaOp s e = some (op, d) → ∀ p ∈ [(0x10, Instr.credscat e), (0x11, .callgath e), (0x12, .callred e), (0x13, .cbcast e)], d.op = p.1 →
      (collView s op d = none → Yields p.2 s fun t => DmaEnds t e op 0x7001 0 0 ∧ t.mem = s.mem) ∧
      (collView s op d = some v →
        (collCheck s op v ≠ 0 → Yields p.2 s fun t => DmaEnds t e op (collCheck s op v) 0 0 ∧ t.mem = s.mem) ∧
        (collCheck s op v = 0 → collRoute s op.ctx v ≠ 0 →
          Yields p.2 s fun t => DmaEnds t e op (collRoute s op.ctx v) 0 0 ∧ t.mem = s.mem))) ∧
    (∀ c k slot m, MsgHere s k 5 m slot → s.colls = [c] → c.slot = slot → c.ring = m.addr / 2 ^ 48 → s.run c.engine 0 = some op →
      op.done = false → m.xferBytes ≠ (collCrc (dmaDesc op.body)).toNat →
      Yields (.collData k) s fun t => t.colls = [] ∧ ends t c.engine op 0x7006 (collWritten s c) ∧ t.mem = s.mem) ∧
    (∀ c, s.colls.find? (fun x => x.engine == e) = some c → s.run e 0 = some op → op.done = false → (s.ctx op.ctx).tmo ≠ 0 →
      Yields (.collTimeout e) s fun t => ends t e op 0x6003 (collWritten s c) ∧ (∀ c ∈ t.colls, c.engine ≠ e) ∧ t.mem = s.mem)

/-- Reception: a frame that fails a check is dropped under its cause; PAUSE sets the timers of the classes where it is enabled; in HASH mode
a frame that the filter accepts is written to the next buffer of the default ring, with its entry, and any other is dropped; in SLOTS mode
a frame of a RING slot goes to the slot's ring; a verified frame moves the PN that its SA expects; a request's frame goes to no ring, and
what its checks found is noted (R330, R333, R336 to R339, R341, R393, R398). -/
def Obligations.MacReceives : Prop :=
  ∀ (s : State) (m : Nat) (f : Frame),
    let d := frameData f
    let et := etherType d
    let same (t : State) : Prop := t.mem = s.mem ∧ ∀ i, t.mac i = s.mac i
    let entry := fun (t : State) (r e a : Nat) (bits : Nat) => ((t.mac m).ring 1 r).hw = ((s.mac m).ring 1 r).hw + 1 ∧
      t.mem = (netStore (netStore s a d) (e + 8) (toLE 4 (d.length + bits) ++ toLE 4 (stampAt (rxTimes s f)).toNat)).mem
    (FrameArrives s m → steerDecide s m f = (s, arrive s m f) →
      (∀ c, rxFail s m f = some c → Yields (.rxFrame m f) s fun t => Counted s t (macPage m) c 1 ∧ same t) ∧
      (rxFail s m f = none → portTag s m f = none →
        (et.1 = 0x8808 → ofBE (slice d et.2 2) = 1 →
          (macCfgBit s m 4 = true → Yields (.rxFrame m f) s fun t => t.mem = s.mem ∧
            ∀ c, c < 8 → tget 0 (t.mac m).timers c = ofBE (slice d (et.2 + 2) 2)) ∧
          (macCfgBit s m 4 = false → Yields (.rxFrame m f) s fun t => Counted s t (macPage m) 16 1 ∧ same t)) ∧
        (et.1 ≠ 0x8808 → MacAlone s m → ptpEvent d = none →
          (macCfgBit s m 2 = false →
            (hashAccepts s m d = false → Yields (.rxFrame m f) s fun t => Counted s t (macPage m) 8 1 ∧ same t) ∧
            (hashAccepts s m d = true → (s.mac m).held = [] → ∀ r e a,
              r = regField s (macPage m) 0x48 13 3 → BufferPosted s m r d.length e a → Yields (.rxFrame m f) s fun t => entry t r e a 0)) ∧
          (macCfgBit s m 2 = true → ∀ k, matchSlot (s.mac m) d = some k → slotAction (s.mac m) k = 0 → (s.mac m).held = [] → ∀ r e a,
            r = slotRing (s.mac m) k → BufferPosted s m r d.length e a →
            Yields (.rxFrame m f) s fun t => entry t r e a (k * 2 ^ 16 + 2 ^ 21) ∧ Counted s t (macPage m) (32 + k) 1))) ∧
      (rxFail s m f = none → macCfgBit s m 2 = false → hashAccepts s m (clearBytes s m f) = false →
        (etherType (clearBytes s m f)).1 ≠ 0x8808 → ptpEvent (clearBytes s m f) = none →
        ∀ g i c sci pn k, portTag s m f = some g → tagSc (s.mac m) g = some (i, c) → frameSa s m g = some (sci, pn, k) →
        Yields (.rxFrame m f) s fun t => Counted s t (macPage m) 20 1 ∧ t.mem = s.mem ∧ ∃ c', tfind (t.mac m).rxSc i = some c' ∧
          tget 0 c'.pn g.an = max (tget 0 c.pn g.an) (pn + 1))) ∧
    (∀ a i r, rxOpen s m = true → (s.mac m).steer = some a → a.full = false → a.offered = true → a.recd = some i →
      tfind (s.fabric (m / 4)).recs i = some r →
      (∀ c, rxFail s m f = some c → Yields (.rxFrame m f) s fun t => Counted s t (macPage m) c 1 ∧ (t.mac m).steer = none ∧
        tfind (t.fabric (m / 4)).recs i = some { r with ended := some (failReason c) } ∧ t.mem = s.mem) ∧
      (rxFail s m f = none → portTag s m f = none → et.1 ≠ 0x8808 → a.hash = false → a.action = 1 → a.slot.isSome = true →
        macPair s m = none → Yields (.rxFrame m f) s fun t => (t.mac m).steer = none ∧ (t.mac m).held = (s.mac m).held ∧
          tfind (t.fabric (m / 4)).recs i = some { r with ended := some 0 } ∧ t.mem = s.mem)) ∧
    (rxOpen s m = true → (s.mac m).steer = none → fifoRoom s m = false →
      Yields (.rxFrame m f) s fun t => Counted s t (macPage m) 5 1 ∧ same t) ∧
    (∀ c pfc, m < 16 → c < 8 → Yields (.pauseTimerExpire m c pfc) s fun t => tget 0 (t.mac m).timers (b2n pfc * 8 + c) = 0 ∧
      ∀ i, i ≠ b2n pfc * 8 + c → tget 0 (t.mac m).timers i = tget 0 (s.mac m).timers i) ∧
    (∀ hi lo, pfcOn s m = some (hi, lo) → macUsed s m = true → (s.mac m).xoff = true →
      (lo < fifoBytes (s.mac m) → Yields (.pfcRepeat m) s fun t =>
        (t.mac m).pfcPend = (s.mac m).pfcPend ++ [regField s (macPage m) 0x78 16 16]) ∧
      (fifoBytes (s.mac m) ≤ lo → exec (.pfcRepeat m) s = .next s)) ∧
    (∀ h e a, (s.mac m).held = [h] → h.nap = true → h.offer = none → h.slot = none → h.sec = false → (s.die 8).state = 0 →
      MacAlone s m → h.dest < 8 → BufferPosted s m h.dest h.bytes.length e a → Yields (.napFrameDeliver m) s fun t =>
        (t.mac m).held = [] ∧
        t.mem = (netStore (netStore s a h.bytes) (e + 8) (toLE 4 h.bytes.length ++ toLE 4 h.stamp.toNat)).mem)

/-- Transmission: an entry is staged whole, or ends with its code and nothing is sent; at a frame boundary a PFC frame goes first, then
the express class, then the rest of a cut frame, then the highest class; an express frame cuts a preemptable one at a point that R332
allows; the entry of a frame that has been sent completes; an AN switch installs the SA (R327, R328, R331, R332, R340, R341). -/
def Obligations.MacSends : Prop :=
  ∀ (s : State) (m c : Nat), MacAlone s m → (s.mac m).back = [] →
    (EntryFetched s m c →
      (∀ bs, txCheck s m (nextEntry s m c) = (0, bs) → classRoom (s.mac m) c bs.length = true →
        Yields (.txStage m c) s fun t => t.mem = s.mem ∧ ∃ f,
          (t.mac m).staged = (s.mac m).staged ++ [f] ∧ f.bytes = bs ∧ f.cls = c ∧ f.src = 0) ∧
      (∀ code, txCheck s m (nextEntry s m c) = (code, []) → 0 < code → code < 65536 → inFlight (s.mac m) c = 0 → StatusWritable s m c →
        Yields (.txStage m c) s fun t => (t.mac m).staged = (s.mac m).staged ∧ EntryDone s t m c code)) ∧
    (txOpen s m = true → (s.mac m).cur = none →
      (∀ q rest, (s.mac m).pfcPend = q :: rest → Yields (.txFrameStart m) s fun t => (t.mac m).pfcPend = rest ∧
        (∃ f, (t.mac m).cur = some f ∧ f.bytes = pfcFrame s m q ∧ f.wire = wireBytes s m f) ∧ Counted s t (macPage m) 18 1) ∧
      ((s.mac m).pfcPend = [] →
        (∀ f, (eligible s m 7 = some f ∨ (eligible s m 7 = none ∧ (s.mac m).cut = none ∧
            [6, 5, 4, 3, 2, 1, 0].findSome? (fun c => eligible s m c) = some f)) →
          f.src = 0 → f.ts = false → ptpEvent f.bytes = none → f.reply = none → (∀ g ∈ (s.mac m).staged, g.status = 0) →
          Yields (.txFrameStart m) s fun t => (t.mac m).cur = some { f with wire := wireBytes s m f } ∧
            (t.mac m).staged = (s.mac m).staged.erase f ∧ (t.mac m).txPn = (s.mac m).txPn + b2n f.prot ∧ t.mem = s.mem) ∧
        (∀ f, eligible s m 7 = none → (s.mac m).cut = some f →
          exec (.txFrameStart m) s = .next (s.setMac m { s.mac m with cut := none, cur := some f })))) ∧
    (∀ f, (s.mac m).cur = some f →
      (∀ sent, cutPoint f (regField s (macPage m) 0x48 9 2) sent = none → exec (.txPreemptions m sent) s = .next s) ∧
      (∀ sent n, cutPoint f (regField s (macPage m) 0x48 9 2) sent = some n → txOpen s m = true → f.cls < 7 → (s.mac m).cut = none →
        preemptActive s m = true → (eligible s m 7).isSome = true → Yields (.txPreemptions m sent) s fun t =>
          (t.mac m).cur = none ∧ (t.mac m).cut = some { f with sent := f.sent + n } ∧ Counted s t (macPage m) 13 1) ∧
      (f.src = 0 → f.entry = ((s.mac m).ring 0 f.cls).hw.toNat → (s.mac m).cut = none → (∀ g ∈ (s.mac m).staged, g.status = 0) →
        StatusWritable s m f.cls → Yields (.txFrameDone m) s fun t => (t.mac m).cur = none ∧ EntryDone s t m f.cls f.status.toNat ∧
          Counted s t (macPage m) 10 1 ∧ Counted s t (macPage m) 11 f.wire.length)) ∧
    (macUsed s m = true → (s.mac m).up = true → macCfgBit s m 7 = true →
      Yields (.preemptVerify m true) s (fun t => (t.mac m).preempt = true) ∧
      Yields (.preemptVerify m false) s (fun t => (t.mac m).preempt = false ∧ Posted t (macPage m) 4)) ∧
    (∀ an pn peers, m < 16 → an < 4 → Yields (.txAnSwitch m an pn peers) s fun t => (t.mac m).txAn = some an ∧ (t.mac m).txPn = pn ∧
      ((s.mac m).rxSc = [] → ∀ p, peers = [p] → ∃ sc, tfind (t.mac m).rxSc 0 = some sc ∧ sc.sci = p ∧ tget 0 sc.pn an = 1))

/-- Links and registers of a MAC: a link that goes down completes what is staged with MAC_LINK_DOWN and clears the timers; the mode is
written only while the group is idle; a ring is enabled, and its SWIDX advanced, within the rules; a slot is enabled only under its check
(R321, R327, R338, R343). -/
def Obligations.MacLinksAndRegisters : Prop :=
  ∀ (s : State) (a : Acc) (m : Nat) (v : Word), m < 16 → macPair s m = none →
    (macUsed s m = true → (s.mac m).up = false → engineFed s (12 + m / 4) = true →
      (12 + m / 4 ∈ s.boot.engCal → Yields (.macLinkUp m) s fun t => t.mac m = { s.mac m with up := true }) ∧
      (12 + m / 4 ∉ s.boot.engCal → exec (.macLinkUp m) s = .next s)) ∧
    ((s.mac m).up = true → (s.mac m).steer = none → (s.mac m).cur = none → (s.mac m).cut = none → (s.mac m).back = [] →
      macCfgBit s m 11 = true →
      ((s.mac m).staged = [] → Yields (.macLinkDown m) s fun t => (t.mac m).up = false ∧ (t.mac m).timers = [] ∧ t.mem = s.mem) ∧
      (∀ f, (s.mac m).staged = [f] → f.src = 0 → f.status = 0 → f.entry = ((s.mac m).ring 0 f.cls).hw.toNat → StatusWritable s m f.cls →
        Yields (.macLinkDown m) s fun t => (t.mac m).up = false ∧ (t.mac m).staged = [] ∧ EntryDone s t m f.cls 0x8003)) ∧
    (Warden s a →
      (m % 4 = 0 →
        (v.toNat % 4 = 3 ∨ (∃ p, p < 4 ∧ (macCfgBit s (m + p) 0 = true ∨ macCfgBit s (m + p) 1 = true)) →
          Yields (.macGrpCfg a m v) s fun t => regGet t (macPage m) 0x40 = regGet s (macPage m) 0x40 ∧
            regField t (macPage m) 0x1C 0 16 = 0x8001) ∧
        (v.toNat % 16 ≤ 2 → (∀ p, p < 4 → macCfgBit s (m + p) 0 = false ∧ macCfgBit s (m + p) 1 = false ∧ (s.mac (m + p)).up = false) →
          Yields (.macGrpCfg a m v) s fun t => regGet t (macPage m) 0x40 = BitVec.ofNat 32 (v.toNat % 16) ∧ t.mem = s.mem)) ∧
      (macUsed s m = true → ∀ dir r, ringSel s m = (dir, r) →
        let g := (s.mac m).ring dir r
        (v.toNat % 2 = 1 → bit v.toNat 10 = false → g.en = false → Yields (.macRingCfg a m v) s fun t =>
          ((t.mac m).ring dir r).en = true ∧ ((t.mac m).ring dir r).sw = 0 ∧ ((t.mac m).ring dir r).hw = 0 ∧
          ((t.mac m).ring dir r).base = g.base) ∧
        (v.toNat % 2 = 1 → bit v.toNat 10 = true → translate s (macCtx s m) (bits v.toNat 12 14) = none → g.en = false →
          Yields (.macRingCfg a m v) s fun t => t.macs = s.macs ∧ regField t (macPage m) 0x1C 0 16 = 0x8006) ∧
        ((BitVec.ofNat 16 v.toNat - g.hw).toNat ≤ g.size → g.posted ≤ (BitVec.ofNat 16 v.toNat - g.hw).toNat → (s.mac m).up = true →
          Yields (.macRingSwidx a m v) s fun t => (t.mac m).ring dir r = { g with sw := BitVec.ofNat 16 v.toNat } ∧ t.mem = s.mem) ∧
        (g.size < (BitVec.ofNat 16 v.toNat - g.hw).toNat ∨ (BitVec.ofNat 16 v.toNat - g.hw).toNat < g.posted →
          Yields (.macRingSwidx a m v) s fun t => t.macs = s.macs ∧ regField t (macPage m) 0x1C 0 16 = 0x8006)) ∧
      (macUsed s m = true → ∀ k, k = regField s (macPage m) 0x98 0 5 →
        (regField s (macPage m) 0x98 8 6 = 36 →
          (bit v.toNat 0 = true → slotRefused (s.mac m) k (v.toNat % 256) = true → Yields (.macSlotData a m v) s fun t =>
            t.macs = s.macs ∧ regField t (macPage m) 0x1C 0 16 = 0x8002) ∧
          (slotRefused (s.mac m) k (v.toNat % 256) = false ∨ bit v.toNat 0 = false → Yields (.macSlotData a m v) s fun t =>
            slotCtl (t.mac m) k = v.toNat % 256 ∧ t.mem = s.mem)) ∧
        (regField s (macPage m) 0x98 8 6 < 36 ∨ regField s (macPage m) 0x98 8 6 = 37 → bit (slotCtl (s.mac m) k) 0 = true →
          exec (.macSlotData a m v) s = .next s)))

/-- MUL tiles: the dot products of a group and their results, the element-wise operations, and a group of the wrong length (R355, R356).
SFN and MEM tiles: each operation's result, its faults, and how MUL, SFN and MEM tiles forward a control token (R353, R357, R358). -/
def Obligations.MulSfnAndMemTiles : Prop :=
  (∀ (s : State) (f t : Nat) (tl : Tile) (k : Token) (rest : List Token),
    let x := s.fabric f
    let fmt := bits tl.p0.toNat 0 2
    let cn := bits tl.p0.toNat 8 8
    let jn := bits tl.p0.toNat 16 8
    let mac := fun j => dotMac fmt (tl.accs.getD j 0) k.payload.toNat (weightRow tl jn tl.pos j)
    let res := fun j => fmul (mac j) (BitVec.ofNat 32 ((tl.scales.getD j 0).toNat * 2 ^ 16))
    (TileReady s f t 0 1 tl k rest →
      (dotLenBad tl cn k = true → Fires (.dot f t) s f t fun r => r.fault = 2 ∧ r.out0 = [] ∧ r.tile.a = rest) ∧
      (dotLenBad tl cn k = false → k.last = false → Fires (.dot f t) s f t fun r => r.fault = 0 ∧ r.out0 = [] ∧ r.tile.a = rest ∧
        r.tile.pos = (tl.pos + 1) % cn ∧ ∀ j, j < jn → r.tile.accs.getD j 0 = mac j) ∧
      (dotLenBad tl cn k = false → k.last = true → tl.scales ≠ [] → Fires (.dot f t) s f t fun r => r.fault = 0 ∧
        r.tile.accs = [] ∧ r.tile.pos = 0 ∧ r.out0.length = cdiv jn 2 ∧
        ∀ u, 2 * u + 1 < jn → r.out0[u]? = some (x.tok (pair2 (res (2 * u)) (res (2 * u + 1))) false (u + 1 == cdiv jn 2)))) ∧
    (∀ w ws, TileReady s f t 0 2 tl k rest → tl.b = w :: ws → dotLenBad tl cn k = false → tl.wptr + 1 < jn →
      Fires (.dotw f t) s f t fun r => r.fault = 0 ∧ r.tile.a = tl.a ∧ r.tile.b = ws ∧ r.tile.wptr = tl.wptr + 1 ∧
        r.tile.accs.getD tl.wptr 0 = dotMac fmt (tl.accs.getD tl.wptr 0) k.payload.toNat w.payload.toNat) ∧
    (∀ w ws,
      let pairwise (i : Instr) (op : Nat) (g : Word → Word → Word) : Prop := TileReady s f t 0 op tl k rest → tl.b = w :: ws →
        Fires i s f t fun r => r.fault = 0 ∧ r.tile.a = rest ∧ r.tile.b = ws ∧
          r.out0 = [x.tok (pair2 (g (elem2 k 0) (elem2 w 0)) (g (elem2 k 1) (elem2 w 1))) false k.last]
      pairwise (.add2 f t) 3 fadd ∧ pairwise (.mul2 f t) 4 fmul ∧ pairwise (.max2 f t) 6 vmax ∧
      (∀ c cs, TileReady s f t 0 5 tl k rest → tl.b = w :: ws → tl.c = c :: cs → Fires (.fma2 f t) s f t fun r => r.fault = 0 ∧
        r.tile.c = cs ∧ r.out0 = [x.tok (pair2 (ffma (elem2 k 0) (elem2 w 0) (elem2 c 0)) (ffma (elem2 k 1) (elem2 w 1) (elem2 c 1)))
          false k.last])) ∧
    (TileReady s f t 0 7 tl k rest → tl.pos < bits tl.p0.toNat 0 7 → tl.scales ≠ [] →
      let scale := fun i => BitVec.ofNat 32 ((tl.scales.getD (2 * tl.pos + i) 0).toNat * 2 ^ 16)
      Fires (.bias2 f t) s f t fun r => r.fault = 0 ∧ r.tile.a = rest ∧ r.tile.pos = (if k.last then 0 else tl.pos + 1) ∧
        r.out0 = [x.tok (pair2 (fadd (elem2 k 0) (scale 0)) (fadd (elem2 k 1) (scale 1))) false k.last])) ∧
  (∀ (s : State) (f t : Nat) (tl : Tile) (k : Token) (rest : List Token),
    let x := s.fabric f
    let ver := ovsSfnVer s f
    let fn := bits tl.p0.toNat 0 4
    (TileReady s f t 1 1 tl k rest →
      (fn ≠ 15 → Fires (.func2 f t) s f t fun r => r.fault = 0 ∧ r.tile.a = rest ∧
        r.out0 = [x.tok (pair2 (tileFn fn ver (elem2 k 0)) (tileFn fn ver (elem2 k 1))) false k.last]) ∧
      (fn = 15 → Fires (.func2 f t) s f t fun r => r.fault = 1 ∧ r.out0 = [])) ∧
    (TileReady s f t 1 2 tl k rest → fn ≠ 15 →
      let len := if bits tl.p0.toNat 4 2 = 0 then 8 else 4
      (k.last = false → tl.group.length + 1 ≠ len → Fires (.actpack f t) s f t fun r => r.fault = 0 ∧ r.out0 = [] ∧
        r.tile.group = tl.group ++ [k]) ∧
      (k.last = true → tl.group.length + 1 = len → Fires (.actpack f t) s f t fun r => r.fault = 0 ∧ r.tile.group = [] ∧
        r.out0 = (packGroup x ver tl (tl.group ++ [k])).1) ∧
      (k.last ≠ (tl.group.length + 1 == len) → Fires (.actpack f t) s f t fun r => r.fault = 2 ∧ r.out0 = [])) ∧
    (TileReady s f t 1 3 tl k rest →
      let es := (elemsOf (bits tl.p0.toNat 0 2) k.payload.toNat).map toF32
      Fires (.unpack f t) s f t fun r => r.fault = 0 ∧ r.out0.length = es.length / 2 ∧ ∀ i, i < es.length / 2 →
        r.out0[i]? = some (x.tok (pair2 (es.getD (2 * i) 0) (es.getD (2 * i + 1) 0)) false (i + 1 == es.length / 2))) ∧
    (TileReady s f t 1 4 tl k rest →
      (k.last = false → Fires (.argmax f t) s f t fun r => r.out0 = [] ∧ r.tile.group = tl.group ++ [k]) ∧
      (k.last = true → ∀ es, es = ((tl.group ++ [k]).flatMap fun k => [elem2 k 0, elem2 k 1]) →
        ((∃ e ∈ es, (f32 e).isNan = true) → Fires (.argmax f t) s f t fun r =>
          r.out0 = [x.tok (0xFFFFFFFF + 0x7FC00000 * 2 ^ 32) false true]) ∧
        ((∀ e ∈ es, (f32 e).isNan = false) → Fires (.argmax f t) s f t fun r => ∃ i v, argmaxOf (es.drop 1) 1 (0, es.getD 0 0) = (i, v) ∧
          r.out0 = [x.tok (i % 2 ^ 32 + v.toNat * 2 ^ 32) false true]))) ∧
    (TileReady s f t 1 5 tl k rest → Fires (.thresh f t) s f t fun r => r.out0 = [selTok x
      (if (f32 (elem2 k 0)).lt (f32 tl.p0) then 0 else if (f32 (elem2 k 0)).lt (f32 tl.p1) then 1 else 2)]) ∧
    (TileReady s f t 1 6 tl k rest → Fires (.classify f t) s f t fun r => r.out0 = [selTok x
      (if (elem2 k 0).toNat < 16 then bits tl.p0.toNat (2 * (elem2 k 0).toNat) 2 else 2)]) ∧
    (TileReady s f t 2 1 tl k rest →
      ((elem2 k 0).toNat < regSize tl → Fires (.table f t) s f t fun r =>
        r.out0 = [x.tok (memWord x t (regBase tl + (elem2 k 0).toNat)).toNat false k.last] ∧ r.cnts = []) ∧
      (regSize tl ≤ (elem2 k 0).toNat → Fires (.table f t) s f t fun r => r.out0 = [x.tok 0 false k.last] ∧ r.cnts = [(8, 1)])) ∧
    (TileReady s f t 2 2 tl k rest → Fires (.read f t) s f t fun r => r.out0.length = bits tl.p2.toNat 0 13 ∧
      ∀ i, i < bits tl.p2.toNat 0 13 → r.out0[i]? = some (x.tok
        (memWord x t (regBase tl + ((elem2 k 0).toNat + i) % regSize tl)).toNat false (i + 1 == bits tl.p2.toNat 0 13))) ∧
    (TileReady s f t 2 3 tl k rest →
      (k.last = false → Fires (.write f t) s f t fun r => r.mem = [(regBase tl + tl.wptr % regSize tl, k.payload)] ∧ r.out0 = [] ∧
        r.tile.wptr = tl.wptr + 1) ∧
      (k.last = true → Fires (.write f t) s f t fun r => r.mem = [(regBase tl + tl.wptr % regSize tl, k.payload)] ∧
        r.out0 = [x.tok (tl.count.toNat + 1) false true] ∧ r.tile.wptr = 0)) ∧
    (armed s f t 2 4 = true → x.tile t = tl → tl.a = k :: rest → tl.fifo.length < regSize tl → Fires (.fifo f t) s f t fun r =>
      r.tile.a = rest ∧ r.out0 ++ r.tile.fifo = tl.fifo ++ [k] ∧ (tl.room 0 = false → r.out0 = [])) ∧
    (∀ p ∈ [(Instr.dot f t, 0, 1), (.dotw f t, 0, 2), (.add2 f t, 0, 3), (.mul2 f t, 0, 4), (.fma2 f t, 0, 5), (.max2 f t, 0, 6),
        (.bias2 f t, 0, 7), (.func2 f t, 1, 1), (.actpack f t, 1, 2), (.unpack f t, 1, 3), (.argmax f t, 1, 4), (.thresh f t, 1, 5),
        (.classify f t, 1, 6), (.table f t, 2, 1), (.read f t, 2, 2), (.write f t, 2, 3)],
      armed s f t p.2.1 p.2.2 = true → x.tile t = tl → tl.a = k :: rest → k.ctrl = true → tl.room 0 = true →
      Fires p.1 s f t fun r => r.out0 = [k] ∧ r.out1 = [] ∧ r.fault = 0 ∧ r.tile.a = rest ∧ r.fires = false))

/-- Sluices: a control token is paired with the next element of data, whatever their arrival; a wrong control token is a fault; and what
each operation emits (R361 to R364). -/
def Obligations.Sluices : Prop :=
  ∀ (s : State) (f t : Nat) (tl : Tile) (k c : Token) (rest cs : List Token),
    let x := s.fabric f
    (SluiceReady s f t 1 tl → tl.sel = none → tl.c = c :: cs →
      (c.ctrl = true → ctlCode c = 1 → tl.a = k :: rest → Fires (.steer f t) s f t fun r =>
        r.fault = 0 ∧ r.tile.a = rest ∧ r.tile.c = cs ∧ r.out0 = (if ctlSel c = 0 ∨ ctlSel c = 3 then [k] else []) ∧
        r.out1 = (if ctlSel c = 1 ∨ ctlSel c = 3 then [k] else []) ∧ r.tile.sel = if elemEnds tl k then none else some c) ∧
      (c.ctrl = false ∨ ctlCode c ≠ 1 → Fires (.steer f t) s f t fun r => r.fault = 1 ∧ r.out0 = [] ∧ r.out1 = [])) ∧
    (SluiceReady s f t 2 tl → tl.sel = none → tl.c = c :: cs →
      (c.ctrl = true → ctlCode c = 1 → ctlSel c < 2 → tl.inq (ctlSel c) = k :: rest → Fires (.merge f t) s f t fun r =>
        r.fault = 0 ∧ r.tile.c = cs ∧ r.tile.inq (ctlSel c) = rest ∧ r.out0 = [k]) ∧
      (c.ctrl = false ∨ ctlCode c ≠ 1 ∨ 2 ≤ ctlSel c → Fires (.merge f t) s f t fun r => r.fault = 1 ∧ r.out0 = [])) ∧
    (SluiceReady s f t 3 tl →
      (tl.rep = 0 → tl.sel = none → tl.c = c :: cs → tl.a = k :: rest → tl.grain = false → tl.group = [] →
        (∀ n, repeatN tl c = some (n + 1) → Fires (.sluRepeat f t) s f t fun r => r.fault = 0 ∧ r.out0 = [k] ∧ r.tile.rep = n ∧
          r.tile.a = rest ∧ r.tile.c = cs ∧ r.tile.group = if n = 0 then [] else [k]) ∧
        (repeatN tl c = none ∨ repeatN tl c = some 0 → Fires (.sluRepeat f t) s f t fun r => r.fault = 1 ∧ r.out0 = [])) ∧
      (tl.rep ≠ 0 → tl.groupOpen = false → tl.pos = 0 → tl.group = [k] → Fires (.sluRepeat f t) s f t fun r => r.fault = 0 ∧
        r.out0 = [k] ∧ r.tile.rep = tl.rep - 1 ∧ r.tile.a = tl.a)) ∧
    (SluiceReady s f t 4 tl →
      let p := if tl.zipA < bits tl.p0.toNat 0 16 then 0 else 1
      tl.inq p = k :: rest → Fires (.zip f t) s f t fun r => r.fault = 0 ∧ r.out0 = [k] ∧ r.tile.inq p = rest ∧
        (elemEnds tl k = true → r.tile.zipA = (tl.zipA + 1) % (bits tl.p0.toNat 0 16 + bits tl.p1.toNat 0 16))) ∧
    (SluiceReady s f t 5 tl → tl.a = k :: rest → Fires (.count f t) s f t fun r =>
      let cnt := if elemEnds tl k then tl.count + 1 else tl.count
      r.fault = 0 ∧ r.out0 = [k] ∧ r.tile.count = cnt ∧ r.tile.a = rest ∧
      r.out1 = if (if bits tl.p0.toNat 0 24 = 0 then k.last else elemEnds tl k && (tl.pos + 1 == bits tl.p0.toNat 0 24))
        then [x.tok (4 + cnt.toNat * 256) true false] else []) ∧
    (SluiceReady s f t 6 tl → tl.a = k :: rest → tl.groupOpen = false → 0 < tl.bucket → 0 < bits tl.p0.toNat 0 16 →
      Fires (.rate f t) s f t fun r => r.fault = 0 ∧ r.out0 = [k] ∧ r.tile.a = rest ∧ r.tile.bucket < bits tl.p0.toNat 0 16) ∧
    (SluiceReady s f t 7 tl →
      (∀ n, tl.rep = 0 → tl.c = c :: cs → repeatN tl c = some (n + 1) → Fires (.gen f t) s f t fun r => r.fault = 0 ∧
        r.out0 = [x.tok (bits tl.p1.toNat 0 8) true false] ∧ r.tile.rep = n ∧ r.tile.c = cs) ∧
      (tl.rep ≠ 0 → Fires (.gen f t) s f t fun r => r.out0 = [x.tok (bits tl.p1.toNat 0 8) true false] ∧ r.tile.rep = tl.rep - 1 ∧
        r.tile.c = tl.c))

/-- IO tiles: a request's tokens, reads of memory and their answers, posts that wait for room and then produce one credit, signals, and
the start of a harvest; what is refused is a fault of the tile (R360, R396). -/
def Obligations.IoTiles : Prop :=
  ∀ (s : State) (f t : Nat) (tl : Tile) (k : Token) (rest : List Token), f < 4 →
    let n := fabCtx s f
    (armed s f t 3 1 = true → (s.fabric f).tile t = tl → tl.deliver = k :: rest → tl.room (if k.ctrl then 1 else 0) = true →
      IoFires (.ingress f t) s f fun s1 => ((s1.fabric f).tile t).deliver = rest ∧ (s1.fabric f).harvested = false ∧
        Counted s s1 (ovsPage f) 1 1) ∧
    (IoReady s f t 3 tl k rest → tl.reads.length < 64 → ∀ a, a = bits k.payload.toNat 0 52 →
      (ioAllowed s n a (8 * mreadWords tl) false = true → IoFires (.mread f t) s f fun s1 =>
        ((s1.fabric f).tile t).reads = tl.reads ++ [a] ∧ ((s1.fabric f).tile t).a = rest) ∧
      (ioAllowed s n a (8 * mreadWords tl) false = false → IoFires (.mread f t) s f fun s1 =>
        ((s1.fabric f).tile t).fault = true ∧ ((s1.fabric f).tile t).reads = tl.reads)) ∧
    (∀ a r, (s.fabric f).tile t = tl → tl.reads = a :: r →
      ((s.fabric f).force = none → (s.fabric f).pstate = 0 → tl.room 0 = true → ∃ s1,
        exec (.mreadAnswer f t) s = .next (settleFabric s1 f) ∧ ((s1.fabric f).tile t).reads = r ∧
        ((s1.fabric f).tile t).out0 ++ ((s1.fabric f).tile t).spill0 = tl.out0 ++ (List.range (mreadWords tl)).map fun i =>
          (s.fabric f).tok (ofLE (load s (a + 8 * i) 8)) false (i + 1 == mreadWords tl)) ∧
      ((s.fabric f).force.isSome = true → 0 < mreadWords tl → Yields (.mreadAnswer f t) s fun t' =>
        ((t'.fabric f).tile t).reads = r ∧ Counted s t' (ovsPage f) 3 (mreadWords tl))) ∧
    (IoReady s f t 4 tl k rest → ∀ key a size, size = 2 ^ bits tl.p2.toNat 0 4 →
      a = tl.p0.toNat + bits tl.p1.toNat 0 20 * 2 ^ 32 + 8 * (tl.posts % size) →
      (ChannelTakes s n (bits tl.p3.toNat 0 14) size key → ioAllowed s n a 8 true = true → InHub a 8 →
        IoFires (.post f t) s f fun s1 => Wrote s s1 a 8 (fun i => (toLE 8 k.payload.toNat).getD i 0) ∧
          (s1.credit key).p = (s.credit key).p + 1 ∧ ((s1.fabric f).tile t).posts = tl.posts + 1) ∧
      (ioChannel s n (bits tl.p3.toNat 0 14) = some key → (s.credit key).faulted = false → (size : Int) ≤ creditDiff (s.credit key) →
        exec (.post f t) s = .next s)) ∧
    (IoReady s f t 5 tl k rest → ∀ key, bits tl.p3.toNat 14 2 = 0 → translate s n (bits tl.p3.toNat 0 14) = some key →
      (vidClass (bits tl.p3.toNat 0 14) = 0 → homeOff s (bits tl.p3.toNat 0 14) key = false → (s.flag key).set = false →
        (s.flag key).waiters = [] → IoFires (.signal f t) s f fun s1 => (s1.flag key).set = true ∧ s1.mem = s.mem) ∧
      (vidClass (bits tl.p3.toNat 0 14) ≠ 0 → IoFires (.signal f t) s f fun s1 =>
        ((s1.fabric f).tile t).fault = true ∧ s1.flags = s.flags)) ∧
    (IoReady s f t 6 tl k rest → k.ctrl = true →
      (ctlCode k = 4 → IoFires (.endHarvest f t) s f fun s1 => (s1.fabric f).harvesting = true ∧ (s1.fabric f).ingress = false) ∧
      (ctlCode k = 3 → IoFires (.endHarvest f t) s f fun s1 => (s1.fabric f).harvesting = (s.fabric f).harvesting ∧
        Counted s s1 (ovsPage f) 5 1))

/-- Descriptors of a fabric: each operation's effect in RUN, what refuses it, what waits, and what a sleeping fabric answers (R371, R372,
R375 to R377, R380, R382, R387). -/
def Obligations.FabricDescriptors : Prop :=
  ∀ (s : State) (f : Nat) (op : Op) (d : OvsDesc),
    let x := s.fabric f
    (OvsReady s f 0 op d → Yields (.onop f) s fun t => OvsEnds t f op 0 ∧ t.mem = s.mem) ∧
    (OvsReady s f 1 op d →
      (x.active = some d.slot → Yields (.oload f) s fun t => OvsEnds t f op 0x9004 ∧ t.fabrics = s.fabrics) ∧
      (x.active ≠ some d.slot → extCheck (s.asOf op) op.ctx [{ addr := d.addr, len := d.len, write := false }] = 0 →
        (imageBad (load s d.addr d.len) = none → Yields (.oload f) s fun t => OvsEnds t f op 0 ∧
          (t.fabric f).image d.slot = some (load s d.addr d.len) ∧ (t.fabric f).tiles = x.tiles) ∧
        (∀ reason off, imageBad (load s d.addr d.len) = some (reason, off) → Yields (.oload f) s fun t => OvsEnds t f op 0x9002 ∧
          t.fabrics = s.fabrics ∧ regGet t (ovsPage f) 0x20 = BitVec.ofNat 32 reason ∧
          regGet t (ovsPage f) 0x24 = BitVec.ofNat 32 off))) ∧
    (OvsReady s f 2 op d →
      (x.isHarvested = false → Yields (.oswitch f) s fun t => OvsEnds t f op 0x9001 ∧ t.fabrics = s.fabrics) ∧
      (x.isHarvested = true → x.image d.slot = none → Yields (.oswitch f) s fun t => OvsEnds t f op 0x9003 ∧ t.fabrics = s.fabrics) ∧
      (x.isHarvested = true → (x.image d.slot).isSome = true → d.atEn = false ∨ atReached s d false = true ∨ untimed s op.ctx = true →
        Yields (.oswitch f) s fun t => OvsEnds t f op 0 ∧ Switched s t f d.slot) ∧
      (x.isHarvested = true → (x.image d.slot).isSome = true → d.atEn = true → atReached s d false = false → untimed s op.ctx = false →
        Yields (.oswitch f) s fun t => OvsWaits t f op ∧ t.fabrics = s.fabrics)) ∧
    (ovsOp s f true = some (op, d) → d.op = 2 → atReached s d false = true → (x.image d.slot).isSome = true →
      Yields (.oswitchAt f) s fun t => OvsEnds t f op 0 ∧ Switched s t f d.slot) ∧
    (OvsReady s f 3 op d → Yields (.oharvest f) s fun t => OvsWaits t f op ∧ (t.fabric f).harvesting = true ∧
      (t.fabric f).ingress = false) ∧
    (OvsReady s f 4 op d → extCheck (s.asOf op) op.ctx [{ addr := d.addr, len := d.len, write := false }] = 0 →
      Yields (.omemw f) s fun t => OvsEnds t f op 0 ∧ t.mem = s.mem ∧ ∀ i, memWord (t.fabric f) d.tile i =
        if d.moff / 8 ≤ i ∧ i < d.moff / 8 + d.len / 8 then BitVec.ofNat 64 (ofLE (load s (d.addr + 8 * (i - d.moff / 8)) 8))
        else memWord x d.tile i) ∧
    (OvsReady s f 5 op d → extCheck (s.asOf op) op.ctx [{ addr := d.addr, len := d.len, write := true }] = 0 → d.len = 8 → InHub d.addr 8 →
      Yields (.omemr f) s fun t => OvsEnds t f op 0 ∧ t.fabrics = s.fabrics ∧
        Wrote s t d.addr 8 fun i => (toLE 8 (memWord x d.tile (d.moff / 8)).toNat).getD i 0) ∧
    (OvsReady s f 6 op d →
      (d.pstate = 1 → x.isHarvested = true → Yields (.opower f) s fun t => OvsEnds t f op 0 ∧ (t.fabric f).pstate = 2 ∧
        (t.fabric f).ingress = false) ∧
      (d.pstate = 1 → x.isHarvested = false → Yields (.opower f) s fun t => OvsEnds t f op 0x9001 ∧ t.fabrics = s.fabrics)) ∧
    (ovsOp s f false = some (op, d) → x.pstate = 2 →
      (d.op = 6 → d.pstate = 0 → Yields (.opower f) s fun t => OvsWaits t f op ∧ (t.fabric f).pstate = 3) ∧
      (∀ p ∈ [(2, Instr.oswitch f), (3, .oharvest f), (4, .omemw f), (5, .omemr f)], d.op = p.1 →
        Yields p.2 s fun t => OvsEnds t f op 0x900B ∧ t.fabrics = s.fabrics)) ∧
    (f < 4 → x.pstate = 3 → ovsOp s f true = some (op, d) → d.op = 6 → Yields (.fabricWakeDone f) s fun t =>
      OvsEnds t f op 0 ∧ (t.fabric f).pstate = 0 ∧ (t.fabric f).active = x.active)

/-- A fabric as a whole: harvests, their time limit, reopening, forced switches and what they leave stale, dozing, the watchdog,
assignment and events (R376 to R379, R382 to R384, R386, R389). -/
def Obligations.FabricControl : Prop :=
  ∀ (s : State) (a : Acc) (f : Nat) (v : Word), f < 4 →
    let x := s.fabric f
    (x.harvesting = true → fabricStill s f = true → ioOutstanding x = false → Yields (.harvestQuiesce f) s fun t =>
      (t.fabric f).harvesting = false ∧ (t.fabric f).harvested = true ∧ (t.fabric f).mems = x.mems ∧ Counted s t (ovsPage f) 10 1 ∧
      ∀ p ∈ (t.fabric f).tiles, p.2.a = [] ∧ p.2.b = [] ∧ p.2.c = []) ∧
    (x.harvesting = true → x.reopenDue = false → Yields (.ovsHarvestTmo f) s fun t => (t.fabric f).harvesting = false ∧
      (t.fabric f).harvested = false ∧ (t.fabric f).ingress = x.ingress ∧ (t.fabric f).tiles = x.tiles) ∧
    (bit v.toNat 0 = true →
      (fabricOpen s a f = true → x.pstate = 0 → Yields (.reopen a f v) s fun t => (t.fabric f).ingress = x.active.isSome ∧
        (∀ p ∈ (t.fabric f).tiles, p.2.fault = false) ∧ (t.fabric f).active = x.active ∧ (t.fabric f).epoch = x.epoch) ∧
      (fabricOpen s a f = false → Yields (.reopen a f v) s fun t => t.fabrics = s.fabrics)) ∧
    (Warden s a → bit v.toNat 31 = true →
      ((x.image (bits v.toNat 0 4)).isSome = true → Yields (.ovsForce a f v) s fun t =>
        (t.fabric f).force = some (bits v.toNat 0 4) ∧ (t.fabric f).ingress = false) ∧
      (x.image (bits v.toNat 0 4) = none → Yields (.ovsForce a f v) s fun t => t.fabrics = s.fabrics)) ∧
    (∀ k, x.force = some k → x.pstate < 2 → ioOutstanding x = false → (x.image k).isSome = true →
      Yields (.forcedSwitch f) s fun t => Switched s t f k ∧ (t.fabric f).force = none ∧ (t.fabric f).stray = x.stray ++ onLinks x ∧
        (0 < (x.tiles.map fun p => tileTokens p.2).sum →
          Counted s t (ovsPage f) 4 (x.tiles.map fun p => tileTokens p.2).sum) ∧
        ∀ away op d, ovsOp s f away = some (op, d) → OvsEnds t f op 0x900A) ∧
    (∀ k, x.force = some k → 2 ≤ x.pstate ∨ ioOutstanding x = true → exec (.forcedSwitch f) s = .next s) ∧
    (∀ tile port tok,
      (x.stray.contains (tile, port, tok) = true → Yields (.stale f tile port tok) s fun t => (t.fabric f).staleSeen = true ∧
        (t.fabric f).stray = x.stray.erase (tile, port, tok) ∧ (t.fabric f).tiles = x.tiles ∧ Counted s t (ovsPage f) 3 1 ∧
        (x.staleSeen = false → bit (regGet t (ovsPage f) 0x10).toNat 6 = true)) ∧
      (x.stray.contains (tile, port, tok) = false → exec (.stale f tile port tok) s = .next s)) ∧
    (x.pstate = 0 → bit (regGet s (ovsPage f) 0x84).toNat 0 = true → fabricStill s f = true → fabricRuns s f = false →
      exec (.dozeEnter f) s = .next (s.setFabric f { x with pstate := 1 })) ∧
    (x.pstate = 1 → s.queue (fabEng f) 0 ≠ [] → exec (.dozeWake f) s = .next (s.setFabric f { x with pstate := 0 })) ∧
    (regGet s (ovsPage f) 0x88 ≠ 0 → tokensQueued x = true → fabricStill s f = true → (∀ p ∈ x.tiles, p.2.reads = []) →
      builderHeld s f = false →
      Yields (.ovsStall f) s fun t => (t.fabric f).stalled = true ∧ regField t (ovsPage f) 0x1C 0 16 = 0x9009 ∧ Counted s t (ovsPage f) 11 1 ∧
        (t.fabric f).tiles = x.tiles) ∧
    (Warden s a → bit v.toNat 31 = true → Yields (.ovsAssign a f v) s fun t => (t.fabric f).ctx = some (bits v.toNat 0 6) ∧
      (t.fabric f).images = [] ∧ (t.fabric f).mems = [] ∧ (t.fabric f).epoch = 0 ∧ (t.fabric f).pstate = 0 ∧
      t.ownerOf (fabEng f) 0 = some (bits v.toNat 0 6)) ∧
    (∀ e rest, x.evq = e :: rest →
      (Warden s a → Yields (.ovsEvqRead a f) s fun t => (t.fabric f).evq = rest ∧ tget 0 t.readVal (accKey a) = e.info) ∧
      (isWarden s a = false → Yields (.ovsEvqRead a f) s fun t => (t.fabric f).evq = x.evq ∧ tget 0 t.readVal (accKey a) = 0))

/-- A request: its steer decision, its verdict, its reply from the EGRESS tile to the transmit buffer, its record in memory, and the
recall of a reply that was committed before its request failed (R391 to R403, R408). -/
def Obligations.AnsweringOnTheWire : Prop :=
  ∀ (s : State) (f : Nat), f < 4 →
    let x := s.fabric f
    (∀ m fr k, m / 4 = f → rxOpen s m = true → (s.mac m).steer = none → macCfgBit s m 2 = true → 64 ≤ frameLen fr → hubNaps s = false →
      fifoRoom s m = true → secFail s m fr false = none → matchSlot (s.mac m) (frameData fr) = some k → slotAction (s.mac m) k = 1 →
      let decided := fun (r : Option Nat) => some { arrive s m fr with offered := true, recd := r }
      (x.ingress = false → Yields (.steerDecision m fr) s fun t => (t.mac m).steer = decided none ∧
        Counted s t (pathPage f) 1 1 ∧ Counted s t (macPage m) (32 + k) 1 ∧ t.fabrics = s.fabrics) ∧
      (x.pstate < 2 → x.active.isSome = true → x.ingress = true → recResolved x x.next = true → ∀ t tl,
        (x.tiles.filter fun t => ingressServes t.2 k (m % 4)).find? (fun t => t.2.deliver.isEmpty) = some (t, tl) →
        Yields (.steerDecision m fr) s fun s' => (s'.mac m).steer = decided (some x.next) ∧
          (s'.mac m).nextReq = (s.mac m).nextReq + 1 ∧ (s'.mac m).open_ = (s.mac m).open_ ++ [x.next] ∧
          (∃ r, tfind (s'.fabric f).recs x.next = some r ∧ r.req = (s.mac m).nextReq ∧ r.port = m % 4 ∧ r.verdict = none ∧
            r.stamp = stampAt (rxTimes s fr) ∧ r.bytes = (parseWindow s m fr).take 128) ∧
          Counted s s' (pathPage f) 0 1)) ∧
    (∀ i r reason, tfind x.recs i = some r → dueVerdict r = some reason → (s.mac (recMac f r)).open_ = [i] → r.verdict = none →
      r.lost = false →
      (reason = 0 → Yields (.verdict f i) s fun t => tfind (t.fabric f).recs i = some { r with verdict := some 0 } ∧
        (t.mac (recMac f r)).lastFinal = r.req ∧ (t.mac (recMac f r)).open_ = []) ∧
      (0 < reason →
        (r.reply = 0 → Yields (.verdict f i) s fun t => tfind (t.fabric f).recs i = some { r with verdict := some reason } ∧
          (t.mac (recMac f r)).lastFinal = r.req ∧ Counted s t (pathPage f) 5 1 ∧ t.mem = s.mem) ∧
        (r.reply = 1 → Yields (.verdict f i) s fun t => Counted s t (pathPage f) 9 1 ∧ t.mem = s.mem ∧
          ∀ e ∈ (t.fabric f).builder, ¬(e.recd = i ∧ e.req.req = r.req ∧ e.req.port = r.port)) ∧
        (r.reply = 3 → (s.mac (recMac f r)).up = true → bufRoom (s.mac (recMac f r)) 7 (r.head.length + 16) = true →
          Yields (.verdict f i) s fun t => Counted s t (pathPage f) 8 1 ∧ ∃ fr,
            (t.mac (recMac f r)).staged = (s.mac (recMac f r)).staged.takeWhile (·.src == 3) ++
              fr :: (s.mac (recMac f r)).staged.dropWhile (·.src == 3) ∧
            fr.bytes = r.head ++ recallTag s f r reason ∧ fr.cls = 7))) ∧
    (∀ i r, tfind x.recs i = some r → dueVerdict r = none → exec (.verdict f i) s = .next s) ∧
    (∀ t tl k rest, IoReady s f t 2 tl k rest →
      (tl.mark = none → k.ctrl = true → ctlCode k = 5 → IoFires (.egress f t) s f fun s1 => ((s1.fabric f).tile t).mark = some k ∧
        ((s1.fabric f).tile t).a = rest) ∧
      (tl.mark = none → k.ctrl = false → IoFires (.egress f t) s f fun s1 => ((s1.fabric f).tile t).fault = true) ∧
      (∀ mk, tl.mark = some mk → k.ctrl = false → k.last = false → tl.group.length < bits tl.p0.toNat 11 6 →
        IoFires (.egress f t) s f fun s1 => ((s1.fabric f).tile t).group = tl.group ++ [k]) ∧
      (∀ mk r, tl.mark = some mk → k.ctrl = false → k.last = true → tl.group.length < bits tl.p0.toNat 11 6 → x.builder = [] →
        tfind x.recs (bits mk.payload.toNat 26 6) = some r → r.req.toNat = bits mk.payload.toNat 8 16 → r.port = bits mk.payload.toNat 24 2 → r.reply = 0 →
        r.verdict = none → bit tl.p0.toNat 0 = true → IoFires (.egress f t) s f fun s1 => ∃ e, (s1.fabric f).builder = [e] ∧
          e.recd = bits mk.payload.toNat 26 6 ∧ e.payload = (tl.group ++ [k]).map (·.payload)) ∧
      (∀ mk, tl.mark = some mk → k.ctrl = false → k.last = true → tl.group.length < bits tl.p0.toNat 11 6 → x.builder = [] →
        tfind x.recs (bits mk.payload.toNat 26 6) = none → IoFires (.egress f t) s f fun s1 => (s1.fabric f).builder = [] ∧
          Counted s s1 (pathPage f) 11 1)) ∧
    (∀ e rest m, x.builder = e :: rest → m = recMac f e.req →
      (replyVerdict x e = none → bit (regGet s (pathPage f) 0x40).toNat e.req.port = false → exec (.replyStage f) s = .next s) ∧
      (∀ kind, kind = (if (replyVerdict x e).isSome then 0 else 1) →
        (kind = 1 → bit (regGet s (pathPage f) 0x40).toNat e.req.port = true) → macSecBit s m 0 = false →
        let bs := replyHead s f e.req (tileHcopy (replyTile s f e.tile)) ++ replyTag s f e.req kind (8 * e.payload.length) ++
          e.payload.flatMap fun w => toLE 8 w.toNat
        ((s.mac m).up = true → classRoom (s.mac m) 7 bs.length = true → Yields (.replyStage f) s fun t =>
          (t.fabric f).builder = rest ∧ Counted s t (pathPage f) (6 + kind) 1 ∧ ∃ fr,
            (t.mac m).staged = (s.mac m).staged ++ [fr] ∧ fr.cls = 7 ∧ fr.reply = some e ∧ fr.bytes = bs) ∧
        ((s.mac m).up = false → Yields (.replyStage f) s fun t => (t.fabric f).builder = rest ∧ Counted s t (pathPage f) 12 1 ∧
          t.macs = s.macs))) ∧
    (∀ t e rest tl size key adr, nextRecord x t = some (e, rest) → tl = replyTile s f t →
      (replyVerdict x e ≠ some 0 → exec (.replyRecord f t) s = .next s) ∧
      (replyVerdict x e = some 0 → bit tl.p0.toNat 1 = true → bit tl.p0.toNat 2 = false → size = 2 ^ bits tl.p3.toNat 20 4 →
        adr = tl.p2.toNat + bits tl.p3.toNat 0 20 * 2 ^ 32 + 64 * (tl.posts % size) →
        ChannelTakes s (fabCtx s f) (bits tl.p1.toNat 16 14) size key → ioAllowed s (fabCtx s f) adr 64 true = true → InHub adr 64 →
        e.payload.length ≤ 6 → Yields (.replyRecord f t) s fun s' => (s'.fabric f).memq = rest ∧
          (s'.credit key).p = (s.credit key).p + 1 ∧ Counted s s' (pathPage f) 14 1 ∧
          Wrote s s' adr 64 fun i => (replyTag s f e.req 0 (8 * e.payload.length) ++
            (padTo 0 6 e.payload).flatMap fun w => toLE 8 w.toNat).getD i 0))

/-- A tick: a base takes its increment with a carry into SEC; TB0 counts 2 ns, TB1 and TB2 their rate terms as well; TB3 equals TB0 until
SRC reads VALID, adopts it then, and follows its active base afterwards, steered towards it (R413 to R415, R417, R424, R425). The armed
comparators whose firing tick it is are to issue after those that still are, in ascending order (R427). -/
def Obligations.TimeTicks : Prop :=
  (∀ (b : TimeBase) (inc : Int), b.ns < 1000000000 → 0 ≤ inc → inc < 2 ^ 32 * 1000000000 →
    (b.advance inc).ns < 1000000000 ∧ (b.sec.toNat + 1 < 2 ^ 48 → (b.advance inc).units = b.units + inc)) ∧
  (∀ (s : State), s.time.running = false → exec .timeTick s = .next s) ∧
  (∀ (s : State), s.time.running = true → Yields .timeTick s fun t =>
    let k := s.time.active
    let o := (s.time.base 3).units - (s.time.base k).units
    let step := slewUnits (regField s timePage 0x58 16 9)
    let x := (s.time.base 3).advance (tickUnits + clampRate (rateOf s.time k + if 0 < o then -step else step))
    t.time.base 0 = (s.time.base 0).advance (2 ^ 33) ∧
    (∀ k, k = 1 ∨ k = 2 → t.time.base k = (s.time.base k).advance (2 ^ 33 + clampRate ((s.time.st k).rate +
      if 0 < (s.time.st k).slewTicks then (s.time.st k).slewRate else 0)) ∧
      (t.time.st k).slewTicks = (s.time.st k).slewTicks - 1 ∧ (t.time.st k).rate = (s.time.st k).rate) ∧
    (s.time.stepped = false → baseValid s (tb3Src s) = false → t.time.base 3 = t.time.base 0 ∧ t.time.stepped = false) ∧
    (s.time.stepped = false → baseValid s (tb3Src s) = true → t.time.base 3 = t.time.base (tb3Src s) ∧
      t.time.stepped = true ∧ t.time.active = tb3Src s) ∧
    (s.time.stepped = true → k < 3 → t.time.active = k ∧ (o = 0 → t.time.base 3 = t.time.base k) ∧
      (o ≠ 0 → t.time.base 3 = if (0 < o ∧ x.units ≤ (t.time.base k).units) ∨ (o < 0 ∧ (t.time.base k).units ≤ x.units)
        then t.time.base k else x)) ∧
    (∀ i, i ∈ t.time.due ↔ i ∈ s.time.due ∨ TrigDue t i) ∧
    (∃ l, t.time.due = s.time.due ++ l ∧ l.Pairwise (· < ·)) ∧
    t.mem = s.mem ∧ t.harts = s.harts)

/-- Reading and adjusting the bases: samples held for each reader, rates within their limits, one step, and what is refused (R416 to
R418). The two domains and TB3's moves between their bases: equal numbers and a bad SRC are refused, a lost VALID hands over under AUTO, a
write of SRC moves once the base reads VALID; no move steps TB3 (R423 to R425). Captures take the four bases into a free slot and set
OVERRUN on one that is held; the stamp queue gives its head entry (R420, R430). -/
def Obligations.TimeAdjustmentsDomainsAndCaptures : Prop :=
  (∀ (s : State) (a : Acc) (v : Word),
    let k := adjBase s
    let b := s.time.base k
    let n : Int := (b.sec.toNat * 1000000000 + b.ns : Nat) + (v ++ regGet s timePage 0x70).toInt
    (accLive s a = true → Yields (.timeRdNs a) s fun t =>
      tget 0 t.readVal (accKey a) = BitVec.ofNat 32 (s.time.base (s.time.reader a).base).ns ∧
      (t.time.reader a).held = s.time.base (s.time.reader a).base ∧
      (∀ c, accKey c ≠ accKey a → t.time.reader c = s.time.reader c) ∧ ∀ i, t.time.base i = s.time.base i) ∧
    (Warden s a →
      (adjustable k = true →
        (Yields (.timeRate a v) s fun t => (t.time.st k).slewTicks = (s.time.st k).slewTicks ∧
          (t.time.st k).rate = if v.toInt < -4194304 then -4194304 else if 4194304 < v.toInt then 4194304 else v.toInt) ∧
        (Yields (.timeSlewTicks a v) s fun t => (t.time.st k).slewTicks = v.toNat ∧ (t.time.st k).rate = (s.time.st k).rate) ∧
        ((s.time.st k).stepped = false → 0 ≤ n → n < 2 ^ 48 * 1000000000 → Yields (.timeStepHi a v) s fun t =>
          ((t.time.base k).sec.toNat * 1000000000 + (t.time.base k).ns : Nat) = n ∧ (t.time.base k).ns < 1000000000 ∧
          (t.time.base k).frac = b.frac ∧ (t.time.st k).stepped = true ∧ ∀ i, i ≠ k → t.time.base i = s.time.base i) ∧
        (bit v.toNat 31 = true → ¬(s.time.stepped = true ∧ s.time.active = k) → Yields (.timeReopen a v) s fun t =>
          (t.time.st k).stepped = false ∧ (t.time.st k).rate = (s.time.st k).rate) ∧
        (bit v.toNat 31 = true → s.time.stepped = true → s.time.active = k → Yields (.timeReopen a v) s fun t =>
          ErrIs t timePage 0xA001 ∧ t.time = s.time)) ∧
      (adjustable k = false ∨ (s.time.st k).stepped = true ∨ n < 0 ∨ 2 ^ 48 * 1000000000 ≤ n →
        Yields (.timeStepHi a v) s fun t => ErrIs t timePage 0xA001 ∧ t.time = s.time) ∧
      (adjustable k = false →
        (∀ i ∈ [Instr.timeRate a v, .timeSlewTicks a v], exec i s = .next s) ∧
        (bit v.toNat 31 = true → Yields (.timeReopen a v) s fun t => ErrIs t timePage 0xA001 ∧ t.time = s.time)) ∧
      (bit v.toNat 31 = false → exec (.timeReopen a v) s = .next s))) ∧
  (∀ (s : State) (a : Acc) (v : Word), Warden s a →
    let k := s.time.active
    let src := bits v.toNat 0 2
    let ppm := bits v.toNat 16 9
    (bits v.toNat 0 8 = bits v.toNat 8 8 → Yields (.timeDom a v) s fun t => ErrIs t timePage 0xA002 ∧ t.time = s.time ∧
      regGet t timePage 0x54 = regGet s timePage 0x54) ∧
    (bits v.toNat 0 8 ≠ bits v.toNat 8 8 → s.time.move = none → Yields (.timeDom a v) s fun t =>
      (∀ i, i < 19 → bit (regGet t timePage 0x54).toNat i = bit v.toNat i) ∧ t.time.base 3 = s.time.base 3 ∧
      (s.time.stepped = true → k = 1 ∨ k = 2 → baseValid s k = true → bit v.toNat (15 + k) = false → bit v.toNat 18 = true →
        bit v.toNat (18 - k) = true → t.time.active = 3 - k ∧ Posted t timePage 0) ∧
      (bit v.toNat 18 = false → t.time.active = k)) ∧
    (src = 3 ∨ (src = 0 ∧ s.time.stepped = true) → Yields (.timeTb3Cfg a v) s fun t => ErrIs t timePage 0xA002 ∧ t.time = s.time) ∧
    (src < 3 → (s.time.stepped = false ∨ src ≠ 0) → Yields (.timeTb3Cfg a v) s fun t =>
      tb3Src t = src ∧ regField t timePage 0x58 16 9 = (if ppm = 0 then 1 else if 400 < ppm then 400 else ppm) ∧
      t.time.base 3 = s.time.base 3 ∧ t.time.stepped = s.time.stepped ∧
      (s.time.stepped = false → t.time.active = k) ∧
      (s.time.stepped = true → t.time.active = if baseValid s src then src else k))) ∧
  (∀ (s : State) (a : Acc) (v : Word) (k : Nat),
    let bases := [s.time.base 0, s.time.base 1, s.time.base 2, s.time.base 3]
    (k < 4 → bit (regGet s timePage 0xBC).toNat k = true →
      (bit (regGet s timePage 0xC0).toNat k = false → Yields (.capture k) s fun t => tget [] t.time.caps k = bases ∧
        bit (regGet t timePage 0xC0).toNat k = true ∧ Posted t timePage 4) ∧
      (bit (regGet s timePage 0xC0).toNat k = true → Yields (.capture k) s fun t => t.time.caps = s.time.caps ∧
        bit (regGet t timePage 0xC0).toNat (5 + k) = true ∧ Counted s t timePage 3 1 ∧ Posted t timePage 5)) ∧
    (bit (regGet s timePage 0xBC).toNat k = false → exec (.capture k) s = .next s) ∧
    (Warden s a → bit v.toNat 4 = true → bit (regGet s timePage 0xC0).toNat 4 = false →
      Yields (.softCapture a v) s fun t => tget [] t.time.caps 4 = bases ∧ bit (regGet t timePage 0xC0).toNat 4 = true ∧
        ∀ i, i < 4 → bit (regGet t timePage 0xBC).toNat i = bit v.toNat i) ∧
    (∀ w rest, Warden s a → s.time.stampq = w :: rest → Yields (.timeSqW0 a) s fun t => t.time.stampq = rest ∧
      tget 0 t.readVal (accKey a) = w.getD 0 0 ∧ ∀ i, 0 < i → i < 5 → regGet t timePage (0xD8 + 4 * i) = w.getD i 0) ∧
    (Warden s a → s.time.stampq = [] → Yields (.timeSqW0 a) s fun t => tget 0 t.readVal (accKey a) = 0 ∧ t.time = s.time))

/-- Comparators: assignment, arming and what a write does while one is armed; the one whose firing tick came first fires, with its pins, its
action and its lateness, for an owner without common time or aborted as well; the acknowledged write raises the signal that stood when it was
issued (R426 to R429). -/
def Obligations.TriggerComparators : Prop :=
  ∀ (s : State) (a : Acc) (v : Word),
    let j := (s.time.reader a).trig
    (Warden s a →
      (trigLocked s j = false → Yields (.timeTrigOwn a v) s fun t =>
        (t.time.trig j).owner = if bit v.toNat 31 then some (bits v.toNat 0 6) else none) ∧
      (trigLocked s j = true → exec (.timeTrigOwn a v) s = .next s)) ∧
    (accLive s a = true → trigOpen s a = true →
      let g := s.time.trig j
      (trigLocked s j = true → bit v.toNat 0 = true → exec (.arm a v) s = .next s) ∧
      (trigLocked s j = true → bit v.toNat 0 = false → Yields (.arm a v) s fun t =>
        (t.time.trig j).has 0 = false ∧ (t.time.trig j).at = g.at ∧ t.time.due = s.time.due ∧
        ∀ i, 0 < i → i < 32 → (t.time.trig j).has i = g.has i) ∧
      (trigLocked s j = false → bit v.toNat 0 = true →
        (bits v.toNat 1 2 ≠ 3 → trigUntimed s g = false → Yields (.arm a v) s fun t =>
          (t.time.trig j).has 0 = true ∧ (∀ i, 9 ≤ i → i < 13 → (t.time.trig j).has i = false) ∧
          bits (t.time.trig j).ctl.toNat 1 8 = bits v.toNat 1 8 ∧ bits (t.time.trig j).ctl.toNat 16 14 = bits v.toNat 16 14 ∧
          (t.time.trig j).overdue = decide (g.at < tb3Ns s)) ∧
        (bits v.toNat 1 2 = 2 → trigUntimed s g = true → Yields (.arm a v) s fun t =>
          (t.time.trig j).has 0 = false ∧ (t.time.trig j).has 10 = true ∧ Counted s t timePage 1 1) ∧
        (bits v.toNat 1 2 = 3 → Yields (.arm a v) s fun t => (t.time.trig j).has 0 = false ∧ ErrIs t timePage 0xA004))) ∧
    (∀ n, accLive s (.vf n) = true → trigOpen s (.vf n) = false → Yields (.arm (.vf n) v) s fun t => t.time = s.time) ∧
    (∀ i, (∀ rest, s.time.due ≠ i :: rest) → exec (.trigFire i) s = .next s) ∧
    (∀ i g now rest, g = s.time.trig i → now = tb3Ns s → g.at + g.period + now < 2 ^ 48 * 1000000000 → s.time.due = i :: rest →
      (bits g.ctl.toNat 1 2 = 2 →
        Yields (.trigFire i) s fun t => t.time.due = rest ∧ Counted s t timePage 1 1 ∧ t.mem = s.mem ∧ t.flags = s.flags ∧
          (∀ p, p < 4 → bit (bits g.ctl.toNat 5 4) p = true → bit (regGet s timePage (0xAC + 4 * p)).toNat 31 = true →
            tget 0 t.time.pins p = max (tget 0 s.time.pins p) (regField s timePage (0xAC + 4 * p) 0 20)) ∧
          (trigUntimed s g = true → (t.time.trig i).has 10 = true ∧ (t.time.trig i).has 0 = false) ∧
          (trigUntimed s g = false → g.period = 0 → (t.time.trig i).has 0 = false ∧ (t.time.trig i).at = g.at) ∧
          (trigUntimed s g = false → g.period ≠ 0 → (t.time.trig i).has 0 = g.has 0 ∧
            NextBeyond g.at g.period now (t.time.trig i).at) ∧
          (g.overdue = true → (t.time.trig i).has 9 = true) ∧
          (g.overdue = true ∨ (trigUntimed s g = false ∧ g.period ≠ 0 ∧ g.at + g.period ≤ now) → Posted t timePage 2)) ∧
      ((s.ctx g.ctx).st = .aborted → Yields (.trigFire i) s fun t =>
        (t.time.trig i).has 11 = true ∧ t.mem = s.mem ∧ t.flags = s.flags ∧ t.barriers = s.barriers ∧ t.credits = s.credits) ∧
      ((s.ctx g.ctx).st ≠ .aborted → bits g.ctl.toNat 1 2 = 1 →
        (trigWriteCode s g = 0 → InHub g.addr.toNat 8 → Yields (.trigFire i) s fun t =>
          (t.time.trig i).pend = g.pend ++ [(g.ctx, g.sigId, g.sigMode)] ∧
          t.flags = s.flags ∧ Wrote s t g.addr.toNat 8 fun x => (toLE 8 g.value.toNat).getD x 0) ∧
        (trigWriteCode s g ≠ 0 → Yields (.trigFire i) s fun t => (t.time.trig i).has 0 = false ∧ (t.time.trig i).has 12 = true ∧
          t.mem = s.mem ∧ ErrIs t timePage 0xA004 ∧ regGet t timePage 0x20 = BitVec.ofNat 32 i ∧
          regGet t timePage 0x24 = BitVec.ofNat 32 (trigWriteCode s g) ∧ Posted t timePage 3))) ∧
    (∀ i n vid later, i < 16 → (s.time.trig i).pend = (n, vid, 0) :: later →
      (∀ key, translate s n vid = some key → vidClass vid = 0 → homeOff s vid key = false → (s.flag key).set = false →
        (s.flag key).waiters = [] → Yields (.trigWriteAck i) s fun t => (t.flag key).set = true ∧ (t.time.trig i).pend = later ∧
          t.mem = s.mem) ∧
      (vidClass vid ≠ 0 → Yields (.trigWriteAck i) s fun t => (t.time.trig i).has 12 = true ∧ (t.time.trig i).has 0 = false ∧
        t.flags = s.flags ∧ ErrIs t timePage 0xA004 ∧ regGet t timePage 0x20 = BitVec.ofNat 32 i ∧
        regGet t timePage 0x24 = BitVec.ofNat 32 (if vidClass vid = 3 then cSyncUnmapped else cSyncBadOp) ∧
        t.nameFaults = s.nameFaults ++ if vidClass vid = 3 then [{ ctx := n, vid := vid % 16384 }] else [])) ∧
    (∀ i, (s.time.trig i).pend = [] → exec (.trigWriteAck i) s = .next s)

/-- Die states: a die goes IDLE by itself; REQ starts a transition, is held while one runs, and is refused for a die in use, a hub with
links up, and a hot die; a wake event resumes a die and abandons an entry into NAP; an OFF die keeps nothing (R436, R437, R439, R445). A
bay without work is gated while PWR_BAY_GATE is not 0, and resumes when work reaches it (R438). -/
def Obligations.DieAndBayStates : Prop :=
  (∀ (s : State) (a : Acc) (d : Nat), d < 9 →
    let x := s.die d
    (x.state = 0 → x.target = none →
      (dieBusy s d = false → exec (.dieIdle d) s = .next (s.setDie d { x with state := 1 })) ∧
      (dieBusy s d = true → exec (.dieIdle d) s = .next s)) ∧
    (Warden s a →
      (x.target.isSome = true → ∀ p ∈ [(Instr.dieReqRun a d, 0), (.dieReqNap a d, 1), (.dieReqOff a d, 2)],
        Yields p.1 s fun t => OnlyDie s t d { x with held := some p.2 }) ∧
      (x.target = none →
        (degC 100 ≤ (s.sensor d).temp → Yields (.dieReqRun a d) s fun t => t.dies = s.dies ∧ ErrIs t pwrPage 0xB001) ∧
        ((s.sensor d).temp < degC 100 → x.state = 0 → Yields (.dieReqRun a d) s fun t => OnlyDie s t d { x with req := 0 }) ∧
        ((s.sensor d).temp < degC 100 → x.state ≠ 0 → Yields (.dieReqRun a d) s fun t =>
          (t.die d).target = some 0 ∧ (t.die d).state = x.state ∧
          (x.state = 3 → x.trained = false → (t.stack (2 * d)).training = true ∧ (t.stack (2 * d + 1)).training = true)) ∧
        (d = 8 → linksUp s = true → Yields (.dieReqNap a d) s fun t => t.dies = s.dies ∧ ErrIs t pwrPage 0xB001) ∧
        ((d ≠ 8 ∨ linksUp s = false) → x.state < 2 → Yields (.dieReqNap a d) s fun t =>
          OnlyDie s t d { x with req := 1, target := some 2 }) ∧
        ((d ≠ 8 ∨ linksUp s = false) → x.state = 2 ∨ x.state = 3 → Yields (.dieReqNap a d) s fun t =>
          OnlyDie s t d { x with req := 1 }) ∧
        (d = 8 ∨ dieInUse s d = true → Yields (.dieReqOff a d) s fun t => t.dies = s.dies ∧ ErrIs t pwrPage 0xB001) ∧
        (d ≠ 8 → dieInUse s d = false → Yields (.dieReqOff a d) s fun t =>
          OnlyDie s t d { x with req := 2, target := if x.state = 3 then none else some 3 }))) ∧
    (isWarden s a = false → ∀ i ∈ [Instr.dieReqRun a d, .dieReqNap a d, .dieReqOff a d], Yields i s fun t => t.dies = s.dies) ∧
    (((x.state = 1 ∨ x.state = 2) ∧ x.target = none) ∨ x.target = some 2 → Yields (.dieWake d) s fun t =>
      OnlyDie s t d { x with target := some 0 } ∧ Posted t pwrPage 4) ∧
    (x.held = none →
      (x.target = some 0 → (s.stack (2 * d)).training = false → (s.stack (2 * d + 1)).training = false →
        Yields (.dieTransitionDone d) s fun t => OnlyDie s t d { x with state := 0, target := none } ∧ t.harts = s.harts) ∧
      (x.target = some 2 → (∀ r ∈ s.running, r.1 / 2 / 256 ≠ d) → Yields (.dieTransitionDone d) s fun t =>
        OnlyDie s t d { x with state := 2, target := none } ∧ t.harts = s.harts ∧ t.mem = s.mem) ∧
      (x.target = some 3 → Yields (.dieTransitionDone d) s fun t => (t.die d).state = 3 ∧ (t.die d).target = none ∧
        (∀ h, h / 32 = d → t.hart h = {}) ∧ (∀ b, b / 32 = d → t.pan b = {} ∧ t.vec b = {}) ∧
        (∀ i, i / 8192 = d → t.flag i = {}) ∧
        ∀ i, baySramBase + 32 * d * 0x40_0000 ≤ i → i < baySramBase + (32 * d + 32) * 0x40_0000 → rdByte t.mem i = 0))) ∧
  (∀ (s : State) (b : Nat),
    (b < 256 → regGet s pwrPage 0x74 ≠ 0 → (s.die (b / 32)).state ≤ 1 → bayQuiet s b = true → Yields (.bayGate b) s fun t =>
      b ∈ t.gated ∧ t.vecs = s.vecs ∧ t.pans = s.pans ∧ t.mem = s.mem) ∧
    (regGet s pwrPage 0x74 = 0 ∨ bayQuiet s b = false → exec (.bayGate b) s = .next s) ∧
    (b ∈ s.gated → bayQuiet s b = false → Yields (.bayResume b) s fun t => b ∉ t.gated ∧ (∀ i, i ≠ b → (i ∈ t.gated ↔ i ∈ s.gated)) ∧
      t.vecs = s.vecs ∧ t.pans = s.pans ∧ t.mem = s.mem))

/-- The governor moves the common ceiling by at most 4 towards the highest at which its estimate keeps the limit of power and of current,
within 8 to 64; too high a current drops every ceiling to 32; warnings throttle, and a trip switches off, fences or shuts (R441, R442, R444,
R445). How the estimate scales with the ceiling is the model's reading (log entry 92). -/
def Obligations.PowerLimits : Prop :=
  ∀ (s : State) (n watts amps scaled : Nat) (temp : Int),
    (8 ≤ s.ceil → s.ceil ≤ 64 → Yields (.govSample watts amps scaled) s fun t =>
      8 ≤ t.ceil ∧ t.ceil ≤ 64 ∧ t.ceil ≤ s.ceil + 4 ∧ s.ceil ≤ t.ceil + 4 ∧
      (∀ d, 8 ≤ d → d ≤ 64 → govMeets s watts amps scaled d = true →
        (∀ x, d < x → x ≤ 64 → govMeets s watts amps scaled x = false) →
        (d ≤ s.ceil + 4 → s.ceil ≤ d + 4 → t.ceil = d) ∧ (s.ceil + 4 < d → t.ceil = s.ceil + 4) ∧ (d + 4 < s.ceil → t.ceil + 4 = s.ceil)) ∧
      ((∀ x, 8 ≤ x → x ≤ 64 → govMeets s watts amps scaled x = false) →
        (s.ceil ≤ 12 → t.ceil = 8 ∧ Posted t pwrPage 1) ∧ (12 < s.ceil → t.ceil + 4 = s.ceil)) ∧
      (govMeets s watts amps scaled 8 = true → t.regs = s.regs) ∧
      ∀ d, t.die d = if (s.die d).thermal then { s.die d with thermCeil := max 8 ((s.die d).thermCeil - 4) } else s.die d) ∧
    Yields .overcurrent s (fun t => t.ceil = min 32 s.ceil ∧ Posted t pwrPage 0 ∧
      ∀ d, (t.die d).thermal = (s.die d).thermal ∧ ((s.die d).thermal = true → (t.die d).thermCeil = min 32 (s.die d).thermCeil)) ∧
    (n < 9 → degC 95 ≤ temp → Yields (.thermalWarn n temp) s fun t => (t.die n).thermal = true ∧ t.sensor n =
      { s.sensor n with temp := temp, warn := true } ∧ Posted t pwrPage 2) ∧
    (n < 9 → temp < degC 90 → (s.die n).thermal = true → Yields (.thermalThrottleEnd n temp) s fun t =>
      (t.die n).thermal = false ∧ (t.sensor n).warn = false ∧ t.ceil = s.ceil) ∧
    (9 ≤ n → n < 25 →
      (degC 85 ≤ temp → Yields (.thermalWarn n temp) s fun t => (t.stack (n - 9)).hot = true ∧
        (degC 95 ≤ temp → (t.stack (n - 9)).halved = true) ∧ t.dies = s.dies) ∧
      (temp < degC 90 → (s.stack (n - 9)).halved = true → Yields (.thermalThrottleEnd n temp) s fun t =>
        (t.stack (n - 9)).halved = false ∧ (temp < degC 85 → (t.stack (n - 9)).hot = false)) ∧
      (degC 105 ≤ temp → Yields (.thermalTrip n temp) s fun t =>
        (t.stack (n - 9)).fenceReq = true ∧ (t.sensor n).tripped = true ∧ t.dies = s.dies)) ∧
    (n < 9 → degC 110 ≤ temp → Yields (.thermalTrip n temp) s fun t =>
      (∀ d, d < 8 → ((s.die d).state = 3 ∧ (s.die d).target = none) ∨ (t.die d).target = some 3) ∧
      t.die 8 = s.die 8 ∧ (t.sensor n).tripped = true ∧ Posted t pwrPage 3 ∧
      ∀ c, c < 64 → c ≠ 0 → (t.ctx c).st ≠ .run) ∧
    (25 ≤ n → n < 37 → degC 80 ≤ temp → Yields (.thermalTrip n temp) s fun t =>
      (t.link (n - 25)).state = 0 ∧ (t.link (n - 25)).light = false ∧ n - 25 ∈ t.boot.shut) ∧
    (37 ≤ n → n < 41 → degC 80 ≤ temp → Yields (.thermalTrip n temp) s fun t => n - 25 ∈ t.boot.shut ∧
      ∀ p, p < 4 → (t.mac (4 * (n - 37) + p)).up = false)

/-- An image is fetched through the physical function only, verified in the order of its reasons, and refused without a change or
accepted: applied during boot, staged afterwards (R456 to R458, R518). -/
def Obligations.Images : Prop :=
  ∀ (s : State) (a : Acc) (v : Word) (pal own : Bool),
    let img := s.sec.img
    let k := hdrKind img
    (a ≠ .host → Yields (.imageLoad a v) s fun t => t.sec = s.sec) ∧
    (s.sec.imgState = 1 ∨ bit v.toNat 0 = false → exec (.imageLoad .host v) s = .next s) ∧
    (bit v.toNat 0 = true → s.sec.imgState ≠ 1 → vaultTakes s = true → Yields (.imageLoad .host v) s fun t => t.sec.imgState = 1 ∧
      t.sec.img = if imgExtentOk s then s.raw (imgAddr s) (imgLen s) else []) ∧
    (s.sec.imgState ≠ 1 → ∀ load, exec (.imageVerify pal own load) s = .next s) ∧
    (s.sec.imgState = 1 →
      let refusedFor (load : Bool) (r : Nat) : Prop := Yields (.imageVerify pal own load) s fun t => t.sec.imgState = 3 ∧ t.sec.imgReason = r ∧
        t.sec.running = s.sec.running ∧ t.sec.staged = s.sec.staged ∧ t.sec.policy = s.sec.policy ∧ t.boot = s.boot ∧
        ErrIs t secPage 0xC001 ∧ regGet t secPage 0x20 = BitVec.ofNat 32 r ∧ Posted t secPage 0
      let accepted (P : State → Prop) : Prop := Yields (.imageVerify pal own true) s fun t => t.sec.imgState = 2 ∧ t.sec.imgReason = 0 ∧
        Posted t secPage 0 ∧ P t
      refusedFor false 1 ∧ (hdrBad img = true → refusedFor true 1) ∧
      (hdrBad img = false → sha384 (imgBody img) ≠ hdrDigest img → refusedFor true 2) ∧
      (ImageWhole s → k < 5 →
        (pal = false → refusedFor true 3) ∧
        (pal = true → s.sec.lc = 2 → own = false ∨ s.sec.ownerValid = false → refusedFor true 4) ∧
        (pal = true → (s.sec.lc = 2 → own = true ∧ s.sec.ownerValid = true) →
          (hdrSvn img < svnFuse s k → refusedFor true 5) ∧
          (svnFuse s k ≤ hdrSvn img → svnMin s k ≤ hdrSvn img →
            (s.sec.lc = 4 → 1 ≤ k → refusedFor true 6) ∧
            (s.sec.lc ≠ 4 → s.boot.stage = 3 → accepted fun t => t.sec.staged = some (k, imgInfo img) ∧ t.sec.running = s.sec.running) ∧
            (s.sec.lc ≠ 4 → s.boot.stage = 2 → k ≠ 2 → accepted fun t => tfind t.sec.running k = some (imgInfo img) ∧
              t.boot.need = s.boot.need.filter (· != k) ∧
              t.boot.stage = if (s.boot.need.filter (· != k)).isEmpty then 3 else max 2 s.boot.stage)))) ∧
      (ImageWhole s → k = 5 → allZero (hdrPalSig img) = true →
        (own = true → s.sec.ownerValid = true → s.sec.lc = 2 → accepted fun t => t.sec.policy = some (imgInfo img)) ∧
        (own = true → s.sec.ownerValid = true → s.sec.lc ≠ 2 → refusedFor true 6)))

/-- The life cycle: a token that passes enters RETURN or DEFUNCT at once with every key gone, or waits for the next cold reset; a token
that fails changes nothing; either way a fresh nonce is drawn. A tamper zeroises, latches its sensor and blows DEFUNCT_PENDING (R462,
R463, R465). -/
def Obligations.LifeCycle : Prop :=
  ∀ (s : State) (pal own : Bool) (sensor : Nat),
    let img := s.sec.img
    let b := imgBody img
    (s.sec.imgState = 1 → ImageWhole s → hdrKind img = 6 →
      (tokenOk s b pal own = false → Yields (.imageVerify pal own true) s fun t => t.sec.lc = s.sec.lc ∧ t.sec.lcNext = s.sec.lcNext ∧
        t.sec.imgState = 3 ∧ ErrIs t secPage 0xC002 ∧ Posted t secPage 1 ∧ t.ctxs = s.ctxs ∧ t.sec.nonce.length = 8) ∧
      (tokenOk s b pal own = true →
        (tokTarget b = 3 ∨ tokTarget b = 4 → Yields (.imageVerify pal own true) s fun t => t.sec.lc = tokTarget b ∧ Zeroised t ∧
          Posted t secPage 1 ∧ (∀ n, 0 < n → n < 64 → (t.ctx n).st ≠ .run ∧ (t.ctx n).st ≠ .building) ∧
          (tokTarget b = 4 → t.sec.pbk = none)) ∧
        (tokTarget b = 1 ∨ tokTarget b = 2 → Yields (.imageVerify pal own true) s fun t => t.sec.lc = s.sec.lc ∧
          t.sec.lcNext = some (tokTarget b) ∧ t.ctxs = s.ctxs ∧ t.sec.nonce.length = 8))) ∧
    (s.boot.standby = false → exec (.tamper sensor) s = .next s) ∧
    (s.boot.standby = true → sensor < 5 → Yields (.tamper sensor) s fun t => Zeroised t ∧ t.sec.pbk = none ∧
      t.sec.defunctPending = true ∧ t.sec.latched.getLsbD sensor = true ∧ t.boot.inTamper = true ∧
      ∀ h, h < 256 → t.hart h = {})

/-- The DOE instances: sessions, what is discarded, the order of a function's messages, measurements signed over the nonce, the event
queues and their relay (R452, R460, R500 to R504, R538). The messages of the owner for keys, SVN fuses and jobs (R453, R459, R503). -/
def Obligations.MailboxAndOwnerMessages : Prop :=
  (∀ (s : State) (fn : Nat),
    (s.host.up = true → fn ≤ s.host.vfs → s.boot.inTamper = false →
      let here := s.host.sessions.contains fn
      (s.boot.stage < 2 ∨ 3 < s.boot.stage → ∀ m, Yields (.doeMessage fn m) s fun t => t.host = s.host ∧ Counted s t hostPage 5 1) ∧
      (s.boot.stage = 2 ∨ s.boot.stage = 3 →
        (here = false → s.sec.pbk.isSome = true → (s.sec.lc = 2 → s.sec.ownerValid = true) →
          Yields (.doeMessage fn (.sessionStart true)) s fun t => t.host.sessions = s.host.sessions ++ [fn]) ∧
        (s.sec.pbk = none ∨ (s.sec.lc = 2 ∧ s.sec.ownerValid = false) → exec (.doeMessage fn (.sessionStart true)) s = .next s) ∧
        Yields (.doeMessage fn .badAuth) s (fun t => fn ∉ t.host.sessions) ∧
        (∀ size, size ≤ 16384 → Yields (.doeMessage fn (.spdm size)) s fun t => t.host.mbx = s.host.mbx ++ [(fn, spdmCode)]) ∧
        ∀ code size good inSession,
          (16384 < size ∨ inSession = false ∨ here = false ∨ fnTakes fn code = false →
            Yields (.doeMessage fn (.palquel code size good inSession)) s fun t => t.host = s.host ∧ Counted s t hostPage 5 1) ∧
          (size ≤ 16384 → here = true → fnTakes fn code = true →
            (1 ≤ code ∧ code ≤ 10 → Yields (.doeMessage fn (.palquel code size true true)) s fun t =>
              t.host.mbx = s.host.mbx ++ [(fn, code)]) ∧
            (code = 0 ∨ 10 < code ∨ good = false → Yields (.doeMessage fn (.palquel code size good true)) s fun t =>
              t.host.mbx = s.host.mbx ∧ tfind t.host.resp fn = some (plainResp (code % 65536) 1 0 0))))) ∧
    (∀ rest nonce, Served s fn spdmCode rest → s.sec.pbk.isSome = true → Yields (.getMeasurements fn nonce) s fun t => t.host.mbx = rest ∧
      ∃ r, tfind t.host.resp fn = some r ∧ r.nonce = nonce ∧ r.status = 0 ∧
        (∀ k i, k < 5 → i = tget {} s.sec.running k →
          r.blocks[k + 1]? = some { index := k + 2, digest := i.digest, vals := [i.version.toNat, i.svn] }) ∧
        (∀ n, 0 < n → n < 64 → (s.ctx n).st = .free → ∃ m ∈ r.blocks, m.index = 0x10 + n ∧ m.digest = zeroDigest)) ∧
    (∀ rest count, Served s fn 7 rest →
      (count = 0 ∨ 64 < count → Yields (.getEvents fn count) s fun t => Replied t fn rest (plainResp 7 1 0 0) ∧ t.ctxs = s.ctxs) ∧
      (0 < count → count ≤ 64 →
        (fn ≠ 0 → Yields (.getEvents fn count) s fun t => (t.ctx fn).events = (s.ctx fn).events.drop count ∧ (t.ctx fn).evDropped = 0 ∧
          Replied t fn rest { plainResp 7 0 0 0 with body := eventsBody (s.ctx fn).evDropped ((s.ctx fn).events.take count) }) ∧
        (fn = 0 → Yields (.getEvents fn count) s fun t => t.host.events = s.host.events.drop count ∧ t.host.evDropped = 0 ∧
          Replied t 0 rest { plainResp 7 0 0 0 with body := eventsBody s.host.evDropped (s.host.events.take count) }))) ∧
    (mbxServed s = true →
      let toCtx (t : State) (n : Nat) (e : CtxEvent) : Prop := (t.ctx n).events = (s.ctx n).events ++ [e]
      (∀ d e rest, (s.sal d).evq = e :: rest → e.ctx ≠ 0 → (s.ctx e.ctx).events.length < 512 → Yields (.eventRelay (.sal d)) s fun t =>
        (t.sal d).evq = rest ∧ toCtx t e.ctx (pageEntry 12 d e)) ∧
      (∀ e rest, s.syncEvq = e :: rest → e.ctx ≠ 0 → (s.ctx e.ctx).events.length < 512 → Yields (.eventRelay .sync) s fun t =>
        t.syncEvq = rest ∧ toCtx t e.ctx (pageEntry 15 8 e)) ∧
      (∀ f e rest, (s.fabric f).evq = e :: rest → e.ctx ≠ 0 → 512 ≤ (s.ctx e.ctx).events.length → Yields (.eventRelay (.ovs f)) s fun t =>
        (t.fabric f).evq = rest ∧ (t.ctx e.ctx).events = (s.ctx e.ctx).events ∧
        (t.ctx e.ctx).evDropped.toNat = min 0xFFFF ((s.ctx e.ctx).evDropped.toNat + 1)) ∧
      (∀ r rest n, s.svc.log = r :: rest → bit (r.words.headD 0).toNat 22 = false → bits (r.words.headD 0).toNat 16 6 = n → n ≠ 0 →
        (s.ctx n).events.length < 512 → Yields (.eventRelay .errLog) s fun t => t.svc.log = rest ∧
          toCtx t n { kind := 1, ptype := 5, inst := 0, code := 0, words := r.words }) ∧
      (∀ i, i < 3 → bit (regGet s svcPage 0x10).toNat i = true → s.host.events.length < 512 → Yields (.eventRelay (.svc i)) s fun t =>
        bit (regGet t svcPage 0x10).toNat i = false ∧ t.host.events.length = s.host.events.length + 1))) ∧
  (∀ (s : State) (rest : List (Nat × Nat)),
    (Served s 0 8 rest →
      (∀ slot key sealer, slot < 4 → Yields (.keyInstall (.otk slot key sealer)) s fun t =>
        tfind t.sec.otk slot = some { key := key, sealer := sealer, counter := 0 } ∧ Replied t 0 rest (plainResp 8 0 0 0)) ∧
      (∀ m ckn key, m < 16 → Yields (.keyInstall (.cak m ckn key)) s fun t => (t.mac m).cak = some { ckn := ckn, key := key } ∧
        Replied t 0 rest (plainResp 8 0 0 0)) ∧
      (∀ slot key sealer, 4 ≤ slot → Yields (.keyInstall (.otk slot key sealer)) s fun t => t.sec = s.sec ∧
        Replied t 0 rest (plainResp 8 1 0 0)) ∧
      (∀ m ckn key, 16 ≤ m → Yields (.keyInstall (.cak m ckn key)) s fun t => t.macs = s.macs ∧
        Replied t 0 rest (plainResp 8 1 0 0))) ∧
    (Served s 0 9 rest → ∀ k i,
      (k ≤ 4 → tfind s.sec.running k = some i → Yields (.svnCommit k) s fun t => svnFuse t k = max (svnFuse s k) i.svn ∧
        (∀ j, j ≠ k → svnFuse t j = svnFuse s j) ∧ Replied t 0 rest (plainResp 9 0 0 0)) ∧
      (4 < k → Yields (.svnCommit k) s fun t => t.sec = s.sec ∧ Replied t 0 rest (plainResp 9 1 0 0))) ∧
    (Served s 0 10 rest → ∀ slot d its, slot < 63 →
      Yields (.jobSet [.seed slot d]) s (fun t => (t.jobSlot slot).seed = d ∧ Replied t 0 rest (plainResp 10 0 0 0)) ∧
      (∀ k valid, slot < 64 → k < 12 → Yields (.jobSet [.bind k slot valid]) s fun t =>
        linkSlot t k = (if valid then some slot else none) ∧ Replied t 0 rest (plainResp 10 0 0 0)) ∧
      (∀ w1 w2 w3, its.any jobItemBad = false → Yields (.jobSet (.entry slot 0 0 1 w1 w2 w3 :: its)) s fun t => t.jobs = s.jobs ∧
        Replied t 0 rest (plainResp 10 3 0x7001 0))))

/-- A context is opened with fresh keys, set up item by item, loaded, seeded, started, released and zeroised, each in its states only (R35
to R37, R45, R55, R96, R281, R449, R503, R539). -/
def Obligations.ContextLife : Prop :=
  ∀ (s : State) (n : Nat) (rest : List (Nat × Nat)), 0 < n → n < 64 →
    let c := s.ctx n
    let ok := fun code => plainResp code 0 0 0
    let wrong := fun code => plainResp code 2 0 0
    (Served s n 1 rest →
      (c.st = .free → ctxsOpen s = true → Yields (.ctxOpen n) s fun t => (t.ctx n).st = .building ∧ (t.ctx n).memKey.isSome = true ∧
        (t.ctx n).sealKey.isSome = true ∧ (t.ctx n).memKey ≠ (t.ctx n).sealKey ∧ (t.ctx n).events = [] ∧ Replied t n rest (ok 1)) ∧
      (c.st ≠ .free ∨ ctxsOpen s = false → Yields (.ctxOpen n) s fun t => t.ctxs = s.ctxs ∧ Replied t n rest (wrong 1))) ∧
    (Served s n 2 rest →
      (∀ its, its.any itemBad = true → Yields (.ctxSet n its) s fun t => t.ctxs = s.ctxs ∧ Replied t n rest (plainResp 2 1 0 0)) ∧
      (∀ its, its.any itemBad = false → c.st = .free ∨ c.st = .releasing → Yields (.ctxSet n its) s fun t => t.ctxs = s.ctxs ∧
        Replied t n rest (wrong 2)) ∧
      (c.st = .building →
        (∀ core h k, itemHart core h = some k → h < 2 → hartFenced s k = false → (s.hart k).bound = false →
          Yields (.ctxSet n [.hart core h]) s fun t => (t.hart k).bound = true ∧ (t.hart k).ctx = n ∧ Replied t n rest (ok 2)) ∧
        (∀ core h k its, its.any itemBad = false → itemHart core h = some k → h < 2 → (s.hart k).bound = true → (s.hart k).ctx ≠ n →
          Yields (.ctxSet n (.hart core h :: its)) s fun t => t.harts = s.harts ∧ t.owner = s.owner ∧ t.ctxs = s.ctxs ∧
            Replied t n rest (plainResp 2 3 cNotAssigned 0)) ∧
        (∀ b, b < 256 → s.svc.bays.contains b = false → s.bayCtx b = none → Yields (.ctxSet n [.queue (bayEng b) 0]) s fun t =>
          t.bayCtx b = some n ∧ t.vec b = {} ∧ Replied t n rest (ok 2)) ∧
        (∀ k slots, k < 5 → Yields (.ctxSet n [.sealKey k slots]) s fun t => (t.ctx n).keySel = k ∧ (t.ctx n).otkSlots = slots)) ∧
      (c.st = .run → ∀ k slots, k < 5 → Yields (.ctxSet n [.sealKey k slots]) s fun t => (t.ctx n).keySel = c.keySel ∧
        Replied t n rest (wrong 2)) ∧
      (c.st = .run ∨ c.st = .building ∨ c.st = .aborted → ∀ d q, d < 8 → q < 2048 →
        let total := (((List.range 64).filter (· != n)).map fun m => quotaOf s m d).sum + q
        (total ≤ 1024 → Yields (.ctxSet n [.quota d q]) s fun t => quotaOf t n d = q ∧ Replied t n rest (ok 2)) ∧
        (1024 < total → Yields (.ctxSet n [.quota d q]) s fun t => t.quota = s.quota ∧
          Replied t n rest (plainResp 2 3 cNotAssigned 0)))) ∧
    (Served s n 3 rest → ∀ i off bytes, i < 128 → bytes.length ≤ 8192 → off + bytes.length ≤ 0xC000 →
      let core := i / 16 * 256 + 0x20 + i % 16
      (c.st = .building → coreOf s n core = true → Yields (.ctxLoad n core off bytes) s fun t => Replied t n rest (ok 3) ∧
        ∀ j, j < bytes.length → rdByte t.mem (coreMemAddr i (off + j)) = bytes.getD j 0) ∧
      (c.st ≠ .building → Yields (.ctxLoad n core off bytes) s fun t => t.mem = s.mem ∧ Replied t n rest (wrong 3))) ∧
    (Served s n 4 rest →
      (c.st = .building → c.seedSet = false →
        (∀ d, Yields (.ctxSeed n (some d)) s fun t => (t.ctx n).seed = some d ∧ (t.ctx n).seedSet = true ∧ Replied t n rest (ok 4)) ∧
        Yields (.ctxSeed n none) s (fun t => ∃ d, (t.ctx n).seed = some d ∧ (t.ctx n).seedSet = true ∧
          Replied t n rest { ok 4 with body := toLE 8 d.toNat })) ∧
      (c.st ≠ .building ∨ c.seedSet = true → ∀ d, Yields (.ctxSeed n d) s fun t => t.ctxs = s.ctxs ∧ Replied t n rest (wrong 4))) ∧
    (Served s n 5 rest →
      (c.st = .building → s.dead = false → Yields (.ctxStart n) s fun t => (t.ctx n).st = .run ∧ (t.ctx n).seed.isSome = true ∧
        (∀ d, c.seed = some d → (t.ctx n).seed = some d) ∧ Replied t n rest (ok 5)) ∧
      (c.st ≠ .building ∨ s.dead = true → Yields (.ctxStart n) s fun t => t.ctxs = s.ctxs ∧ Replied t n rest (wrong 5))) ∧
    (Served s n 6 rest →
      (c.st ≠ .free → c.st ≠ .releasing → Yields (.ctxRelease n) s fun t => (t.ctx n).st = .releasing ∧ Replied t n rest (ok 6) ∧
        ∀ i, i < 16 → tblOk {} s.time.trigs = true → (s.time.trig i).owner = some n → (t.time.trig i).owner = none ∧ (t.time.trig i).has 0 = false) ∧
      (c.st = .free ∨ c.st = .releasing → Yields (.ctxRelease n) s fun t => t.ctxs = s.ctxs ∧ Replied t n rest (wrong 6))) ∧
    (c.st ≠ .releasing ∨ ctxIdle s n = false → exec (.ctxZeroise n) s = .next s) ∧
    (c.st = .releasing → ctxIdle s n = true → Yields (.ctxZeroise n) s fun t => (t.ctx n).st = .free ∧ (t.ctx n).memKey = none ∧
      (t.ctx n).sealKey = none ∧ (t.ctx n).seed = none ∧ (t.ctx n).map = [] ∧ (t.ctx n).region = [] ∧
      (∀ p ∈ t.tags, p.2.ctx ≠ n) ∧ (∀ b, b < 256 → t.bayCtx b ≠ some n) ∧ (∀ d, d < 8 → quotaOf t n d = 0) ∧
      ∀ h, h < 256 →
        (hartCtx s h = some n → t.hart h = {} ∧ ∀ i, i < 0x2000 → rdByte t.mem (ringAddr h 0 + i) = 0) ∧
        ((s.hart h).was.contains n = true → (t.hart h).ring = [] ∧ (t.hart h).head = 0 ∧ (t.hart h).phase = true ∧
          n ∉ (t.hart h).was ∧ ∀ i, i < 0x2000 → rdByte t.mem (ringAddr h 0 + i) = 0)) ∧
    (∀ a i h v d q, Warden s a → i < 128 → h < 2 →
      (bit v.toNat 31 = true → hartFenced s (2 * i + h) = false → (s.hart (2 * i + h)).bound = false → Yields (.ccHartCtx a i h v) s fun t =>
        t.hart (2 * i + h) = { s.hart (2 * i + h) with
          bound := true, ctx := bits v.toNat 0 6, stopped := coreQuiet s (2 * i + h), trap := none, blocked := none,
          was := (t.hart (2 * i + h)).was } ∧
        bits v.toNat 0 6 ∈ (t.hart (2 * i + h)).was) ∧
      (bit v.toNat 31 = true → (s.hart (2 * i + h)).bound = true → (s.hart (2 * i + h)).ctx ≠ bits v.toNat 0 6 →
        exec (.ccHartCtx a i h v) s = .next s) ∧
      (bit v.toNat 31 = false → Yields (.ccHartCtx a i h v) s fun t => (t.hart (2 * i + h)).bound = false ∧
        (t.hart (2 * i + h)).blocked = none ∧ (t.hart (2 * i + h)).ring = (s.hart (2 * i + h)).ring) ∧
      (d < 8 → q = bits v.toNat 0 11 → (((List.range 64).filter (· != n)).map fun m => quotaOf s m d).sum + q ≤ 1024 →
        Yields (.ccCtxTagq a n d v) s fun t => quotaOf t n d = q))

/-- Fences: a write begins one, or is held while another runs; a bay's fence stops its work and its core, is charged to its contexts and
leaves its slice as zeros; an unfence returns it unassigned; a module's laser is shut and its links fall; a link holds DOWN (R476 to
R479). -/
def Obligations.Fences : Prop :=
  ∀ (s : State) (a : Acc) (b m k : Nat), s.svc.held = [] → s.svc.updState ≠ 1 → b < 256 → m < 8 → k < 12 →
    let c := bayCore b
    (Warden s a → s.svc.busy = none →
      (b ∈ s.svc.bays → exec (.bayFence a b) s = .next s) ∧
      (b ∉ s.svc.bays → exec (.bayUnfence a b) s = .next s) ∧
      (b ∉ s.svc.bays → Yields (.bayFence a b) s fun t => b ∈ t.svc.bays ∧ t.svc.busy = some { kind := 0, part := b, on := true } ∧
        bit (regGet t svcPage (0x64 + 4 * (b / 32))).toNat (b % 32) = true ∧ (t.hart (2 * c)).stopped = true ∧
        (t.hart (2 * c + 1)).stopped = true ∧ hartRuns t (2 * c) = false ∧ ∀ n ∈ bayOwners s b, (t.ctx n).st ≠ .run) ∧
      (b ∈ s.svc.bays → Yields (.bayUnfence a b) s fun t => b ∈ t.svc.bays ∧
        t.svc.busy = some { kind := 0, part := b, on := false } ∧
        bit (regGet t svcPage (0x64 + 4 * (b / 32))).toNat (b % 32) = false) ∧
      (m ∉ s.svc.lmods → Yields (.lmodFence a m) s fun t => m ∈ t.svc.lmods ∧ m ∉ t.boot.lit ∧ t.svc.busy.isSome = true ∧
        (∀ i, i = 2 * m ∨ i = 2 * m + 1 → i ∉ t.boot.engCal ∧
          (m < 6 → (t.link i).state = 0 ∧ (t.link i).light = false ∧ (t.link i).calibrated = false ∧
            ((s.link i).state ≠ 0 → (t.link i).cause = 7))) ∧
        (6 ≤ m → ∀ p, p < 8 → (t.mac (8 * (m - 6) + p)).up = false)) ∧
      (m ∈ s.svc.lmods → Yields (.lmodUnfence a m) s fun t => m ∉ t.svc.lmods ∧ t.svc.busy.isSome = true ∧
        (m ∈ s.boot.seated → (tfind s.sec.running 2).isSome = true → m ∈ t.boot.lit)) ∧
      (k ∉ s.svc.links → Yields (.linkFence a k) s fun t => k ∈ t.svc.links ∧ (t.link k).state = 0 ∧ t.svc.busy.isSome = true ∧
        ((s.link k).state ≠ 0 → (t.link k).cause = 7)) ∧
      (k ∈ s.svc.links → Yields (.linkUnfence a k) s fun t => k ∉ t.svc.links ∧ t.svc.busy.isSome = true)) ∧
    (Warden s a → s.svc.busy = some { kind := 1, part := m, on := true } →
      (b ∉ s.svc.bays → Yields (.bayFence a b) s fun t => t.svc.held = [{ kind := 0, part := b, on := true }] ∧ t.svc.bays = s.svc.bays ∧
        t.harts = s.harts) ∧
      (k ∉ s.svc.links → Yields (.linkFence a k) s fun t => t.svc.held = [{ kind := 2, part := k, on := true }] ∧ t.links = s.links)) ∧
    (isWarden s a = false → ∀ i ∈ [Instr.bayFence a b, .bayUnfence a b, .lmodFence a m, .lmodUnfence a m, .linkFence a k, .linkUnfence a k],
      Yields i s fun t => t.svc = s.svc) ∧
    (∀ r, s.svc.busy = some r → r.kind ≠ 0 → Yields .fenceDone s fun t => t.svc.busy = none ∧ Posted t svcPage 1) ∧
    (s.svc.busy = none → exec .fenceDone s = .next s) ∧
    (s.svc.busy = some { kind := 0, part := b, on := true } →
      (bayStopped s b = false → exec .fenceDone s = .next s) ∧
      (bayStopped s b = true → Yields .fenceDone s fun t => t.svc.busy = none ∧ Posted t svcPage 1 ∧
        t.vec b = {} ∧ t.pan b = {} ∧ ∀ i, i < 0x30_0000 → rdByte t.mem (bayAddr b 0 + i) = 0)) ∧
    (s.svc.busy = some { kind := 0, part := b, on := false } → exec .fenceDone s = .next s ∧
      Yields (.bayUnfenceDone b) s fun t => b ∉ t.svc.bays ∧ t.svc.busy = none ∧
      t.bayCtx b = none ∧ Posted t svcPage 1 ∧ (∀ i, i < 0x30_0000 → rdByte t.mem (bayAddr b 0 + i) = 0) ∧
      (hartFenced t (2 * c) = false → (t.hart (2 * c)).stopped = false ∧ (t.hart (2 * c + 1)).stopped = false))

/-- A live update goes through its instances in ascending order; one that verifies runs the new image, one that fails or does not quiesce
in time keeps the old one and stops the apply (R480 to R482). The error log is read and emptied by the warden only; a die-mesh connection
that fails aborts every context in RUN, one that retrains is counted (R27, R470, R471, R485, R538). -/
def Obligations.UpdateErrorLogAndMesh : Prop :=
  (∀ (s : State) (a : Acc) (v : Word) (k : Nat) (info : ImageInfo),
    (Warden s a →
      (s.svc.updState = 1 ∨ bit v.toNat 0 = false ∨ s.sec.staged = none → exec (.apply a v) s = .next s) ∧
      (s.svc.updState ≠ 1 → bit v.toNat 0 = true → s.sec.staged = some (k, info) →
        (regField s svcPage 0x90 0 4 ≠ k → exec (.apply a v) s = .next s) ∧
        (∀ i rest, regField s svcPage 0x90 0 4 = k → regField s svcPage 0x90 16 16 = 0xFFFF → updInstances k = i :: rest →
          Yields (.apply a v) s fun t => t.svc.updState = 1 ∧ t.svc.updKind = k ∧ t.svc.updAt = i ∧ t.svc.updLeft = rest ∧
            t.svc.updImg = some info ∧ t.sec.running = s.sec.running) ∧
        (∀ i, regField s svcPage 0x90 0 4 = k → regField s svcPage 0x90 16 16 = i → i ∈ updInstances k →
          Yields (.apply a v) s fun t => t.svc.updState = 1 ∧ t.svc.updAt = i ∧ t.svc.updLeft = []))) ∧
    (∀ i, s.svc.updState = 1 → s.svc.updKind = k → s.svc.updAt = i → s.svc.updImg = some info →
      (updQuiet s k i = false → (∀ ok, exec (.updateInstanceQuiesced ok) s = .next s) ∧
        Yields .svcQuiesceTmo s fun t => t.svc.updState = 3 ∧ t.svc.updAt = i ∧ t.sec = s.sec ∧ ErrIs t svcPage 0xD004 ∧ Posted t svcPage 2) ∧
      (updQuiet s k i = true → exec .svcQuiesceTmo s = .next s ∧
        (Yields (.updateInstanceQuiesced false) s fun t => t.svc.updState = 3 ∧ t.svc.updAt = i ∧ t.svc.updLeft = [] ∧ t.sec = s.sec ∧
          t.svc.instVer = s.svc.instVer ∧ ErrIs t svcPage 0xD003 ∧ Posted t svcPage 2) ∧
        (s.svc.updLeft = [] → Yields (.updateInstanceQuiesced true) s fun t => t.svc.updState = 2 ∧
          t.sec.staged = (if s.sec.staged = some (k, info) then none else s.sec.staged) ∧
          tfind t.sec.running k = some info ∧ tfind t.svc.instVer (instKey k i) = some info.version ∧ Posted t svcPage 2) ∧
        (∀ j rest, s.svc.updLeft = j :: rest → Yields (.updateInstanceQuiesced true) s fun t => t.svc.updState = 1 ∧ t.svc.updAt = j ∧
          t.svc.updLeft = rest ∧ tfind t.sec.running k = some info ∧ tfind t.svc.instVer (instKey k i) = some info.version)))) ∧
  (∀ (s : State) (a : Acc) (c : Nat),
    (∀ r rest, s.svc.log = r :: rest →
      (Warden s a → Yields (.svcErrlogW0 a) s fun t => t.svc.log = rest ∧ tget 0 t.readVal (accKey a) = r.words.headD 0 ∧
        ∀ i, i < 7 → regGet t svcPage (0x48 + 4 * i) = r.words.getD (i + 1) 0) ∧
      (isWarden s a = false → Yields (.svcErrlogW0 a) s fun t => t.svc.log = s.svc.log ∧ tget 0 t.readVal (accKey a) = 0)) ∧
    (Warden s a → s.svc.log = [] → Yields (.svcErrlogW0 a) s fun t => t.svc = s.svc ∧ tget 0 t.readVal (accKey a) = 0) ∧
    (c < 14 → s.boot.hub = true → c ∉ s.meshFailed →
      (Yields (.meshFail c) s fun t => c ∈ t.meshFailed ∧ t.dead = true ∧ Posted t meshPage 1 ∧ (∀ n, n < 64 → (t.ctx n).st ≠ .run) ∧
        (∀ e, engineServes t e = false) ∧
        (s.svc.log.length < 1024 → ∃ r ∈ t.svc.log, (r.words.headD 0).toNat % 65536 = 0xD001 ∧ bit (r.words.headD 0).toNat 22 = true)) ∧
      Yields (.retrain c) s fun t => Counted s t meshPage (c * 8 + 1) 1 ∧ Posted t meshPage 0 ∧ t.ctxs = s.ctxs) ∧
    (c ∈ s.meshFailed → exec (.meshFail c) s = .next s ∧ exec (.retrain c) s = .next s))

/-- CTL, LOCK, QUIESCED and the block reset (R494, R495). Register accesses: closed registers and pages that do not exist, by hart and by
function; W1C; error registers that the warden's read clears and a context's does not; counters that a read captures and clears, with a
free value where no command of the table brings what they count (R14, R15, R141, R490, R492; log entry 9). -/
def Obligations.RegisterPages : Prop :=
  (∀ (s : State) (a : Acc) (page : Nat) (v : Word), pageMapped page = true →
    let locked := bit (regGet s page 0x28).toNat 0
    (Warden s a →
      (locked = true → exec (.enable a page v) s = .next (crossReg s a page) ∧ exec (.quiesce a page v) s = .next (crossReg s a page) ∧
        (bit v.toNat 2 = true → exec (.blockReset a page v) s = .next (crossReg s a page))) ∧
      (bit v.toNat 2 = false → exec (.blockReset a page v) s = .next s) ∧
      (locked = false → v.toNat < 4 → page / 1024 ≠ 16 →
        (∀ i ∈ [Instr.enable a page v, .quiesce a page v], Yields i s fun t => regGet t page 8 = v ∧
          (bit v.toNat 1 = true → quietAtOnce page = true → bit (regGet t page 0xC).toNat 3 = true) ∧
          (bit v.toNat 1 = false → bit (regGet t page 0xC).toNat 3 = false)) ∧
        (quietAtOnce page = true → Yields (.quiesce a page v) s fun t => t.harts = s.harts ∧ t.fabrics = s.fabrics ∧ t.mem = s.mem)) ∧
      (bit v.toNat 2 = true → resetTakes s page = false → exec (.blockReset a page v) s = .next (crossReg s a page)) ∧
      (bit v.toNat 2 = true → resetTakes s page = true → Yields (.blockReset a page v) s fun t =>
        (∀ off, off < 4096 → resetKeeps page off = false → regGet t page off = regReset page off) ∧
        ∀ i, i < 256 → tget 0 t.cnts (page * 256 + i) = 0) ∧
      (regField s page 0x28 0 2 = 0 → Yields (.ctlLock a page v) s fun t => bit (regGet t page 0x28).toNat 0 = bit v.toNat 0) ∧
      (regField s page 0x28 0 2 ≠ 0 → exec (.ctlLock a page v) s = .next (crossReg s a page))) ∧
    (∀ h, accLive s (.hart h) = true → isWarden s (.hart h) = false →
      ∀ i ∈ [Instr.enable (.hart h) page v, .quiesce (.hart h) page v, .ctlLock (.hart h) page v],
        exec i s = .next (crossReg s (.hart h) page)) ∧
    (quiescing s page = true → blockQuiet s page = true → Yields (.quiesced page) s fun t => bit (regGet t page 0xC).toNat 3 = true) ∧
    (quiescing s page = false ∨ blockQuiet s page = false → exec (.quiesced page) s = .next s)) ∧
  (∀ (s : State) (a : Acc) (page off : Nat) (v : Word),
    (∀ h size, a = .hart h → accLive s a = true →
      (off % size ≠ 0 ∨ pageMapped page = false → exec (.registerWrite a page off size v) s =
        .next (s.setHart h { s.hart h with trap := some (.storeFault (0xF000_0000_0000 + page * 4096 + off)) })) ∧
      (off % 4 = 0 → pageMapped page = true → writeOpen s a page off = false →
        exec (.registerWrite a page off 4 v) s = .next (crossReg s a page)) ∧
      (off = 0x1C → pageMapped page = false → Yields (.errCodeRead a page off) s fun t => t.regs = s.regs ∧
        (t.hart h).trap = some (.loadFault (0xF000_0000_0000 + page * 4096 + off)))) ∧
    (isFn a = true → accLive s a = true → off % 4 = 0 →
      (pageMapped page = false → Yields (.registerWrite a page off 4 v) s fun t =>
        t = bump (crossReg s a page) hostPage 0 1 ∧ Counted s t hostPage 0 1 ∧ t.harts = s.harts) ∧
      (pageMapped page = true → (regInfo page off).isSome = true → writeOpen s a page off = false →
        Yields (.registerWrite a page off 4 v) s fun t =>
          t = bump (crossReg s a page) hostPage 1 1 ∧ Counted s t hostPage 1 1 ∧ t.harts = s.harts) ∧
      (∀ size, size ≠ 4 → exec (.registerWrite a page off size v) s = .next s)) ∧
    (Warden s a → pageMapped page = true →
      Yields (.registerWrite a page 0x10 4 v) s (fun t => regGet t page 0x10 = regGet s page 0x10 &&& ~~~v) ∧
      Yields (.registerWrite a page 0x14 4 v) s (fun t => regGet t page 0x14 = v) ∧
      (off = 0x1C ∨ off = 0x20 ∨ off = 0x24 → Yields (.errCodeRead a page off) s fun t =>
        tget 0 t.readVal (accKey a) = regGet s page off ∧ regGet t page off = 0) ∧
      (∀ idx hi, counterAt s page off = some (some idx, hi) → (regInfo page off).isSome = true → off % 4 = 0 →
        Yields (.counterLoRead a page off) s fun t => let c := tget 0 s.cnts (page * 256 + idx)
          (freeCounter page idx = false → (meshBytes page idx = true → idx / 8 * 2 + (idx % 8 - 2) ∉ (crossReg s a page).crossed) →
            tget 0 t.readVal (accKey a) = BitVec.ofNat 32 c ∧ regGet t page hi = BitVec.ofNat 32 (c / 2 ^ 32)) ∧
          tget 0 t.cnts (page * 256 + idx) = 0)) ∧
    (∀ h n, a = .hart h → accLive s a = true → accCtx s a = some n → n ≠ 0 → off = 0x1C ∨ off = 0x20 ∨ off = 0x24 →
      exec (.errCodeRead a timePage off) s = .next (setRead (crossReg s a timePage) a (regGet s timePage off))))

/-- A hart's own loads and stores: its core's memory, of which the rings cannot be stored to; the network, where a failed check traps, and so
does a store into a ring; the register pages (R38, R39, R224, R227, R490, R492). -/
def Obligations.HartLoadsAndStores : Prop :=
  ∀ (s : State) (h n rd addr size : Nat) (v : Dword), Issues s h n → size = 1 ∨ size = 2 ∨ size = 4 ∨ size = 8 →
    let core := fun i => coreMemAddr (hartCore h) (addr + i)
    (addr + size ≤ 0x10000 →
      Yields (.hartLoadStore h rd addr size none .clean) s (fun t =>
        t.hart h = wrX (s.hart h) rd (BitVec.ofNat 64 (ofLE ((List.range size).map fun i => rdByte s.mem (core i)))) ∧ t.mem = s.mem) ∧
      (addr + size ≤ 0xC000 → Yields (.hartLoadStore h rd addr size (some v) .clean) s fun t => t.harts = s.harts ∧
        (∀ i, i < size → rdByte t.mem (core i) = (toLE size v.toNat).getD i 0) ∧
        ∀ x, (∀ i, i < size → x ≠ core i) → rdByte t.mem x = rdByte s.mem x) ∧
      (0xC000 < addr + size → exec (.hartLoadStore h rd addr size (some v) .clean) s =
        .next (s.setHart h { s.hart h with trap := some .illegal }))) ∧
    (0x10000 ≤ addr → addr < 0xF000_0000_0000 →
      (extCheck s n [{ addr := addr, len := size, write := true }] ≠ 0 → exec (.hartLoadStore h rd addr size (some v) .clean) s =
        .next (s.setHart h { s.hart h with trap := some (.storeFault addr) })) ∧
      (extCheck s n [{ addr := addr, len := size, write := false }] ≠ 0 → exec (.hartLoadStore h rd addr size none .clean) s =
        .next (s.setHart h { s.hart h with trap := some (.loadFault addr) })) ∧
      (extCheck s n [{ addr := addr, len := size, write := true }] = 0 →
        (InHub addr size → Yields (.hartLoadStore h rd addr size (some v) .clean) s fun t => t.harts = s.harts ∧
          Wrote s t addr size fun i => (toLE size v.toNat).getD i 0) ∧
        (ringByte addr = true ∨ ringByte (addr + size - 1) = true → exec (.hartLoadStore h rd addr size (some v) .clean) s =
          .next (s.setHart h { s.hart h with trap := some .illegal }))) ∧
      (extCheck s n [{ addr := addr, len := size, write := false }] = 0 → Yields (.hartLoadStore h rd addr size none .clean) s fun t =>
        t.hart h = wrX (s.hart h) rd (BitVec.ofNat 64 (ofLE (load s addr size))) ∧ t.mem = s.mem)) ∧
    (∀ page off, page < 65536 → off < 4096 → addr = 0xF000_0000_0000 + page * 4096 + off →
      (off % size ≠ 0 ∨ pageMapped page = false →
        exec (.hartLoadStore h rd addr size none .clean) s = .next (s.setHart h { s.hart h with trap := some (.loadFault addr) }) ∧
        exec (.hartLoadStore h rd addr size (some v) .clean) s = .next (s.setHart h { s.hart h with trap := some (.storeFault addr) })) ∧
      (off % 4 = 0 → size = 4 → pageMapped page = true → readOpen s (.hart h) page off = false →
        Yields (.hartLoadStore h rd addr 4 none .clean) s fun t => t.hart h = wrX (s.hart h) rd 0 ∧ t.regs = s.regs ∧ t.mem = s.mem))

/-- The rails, the boot ROM and the device resets: what each step needs, what it leaves and what survives (R465, R507, R511 to R518). -/
def Obligations.RailsAndResets : Prop :=
  ∀ (s : State) (a : Acc) (v : Word),
    let b := s.boot
    (b.standby = false → exec .standbyUp s = .next { s with boot := { b with standby := true } }) ∧
    (b.standby = true → b.alwaysOn = false → Yields .alwaysOnReady s fun t => t.boot.alwaysOn = true ∧ t.time.running = true ∧
      t.time.tb = s.time.tb) ∧
    Yields .mainRailUp s (fun t => t.boot.mainRail = true) ∧
    (b.hub = false → (b.mainRail = true → b.alwaysOn = true → Yields .hubPowerOn s fun t => t.boot.hub = true ∧ t.boot.rom = true ∧
        t.boot.stage = b.stage ∧ t.dies = s.dies) ∧
      (b.mainRail = false ∨ b.alwaysOn = false → exec .hubPowerOn s = .next s)) ∧
    (b.mainRail = true → b.hub = true → Yields .mainRailLoss s fun t => DeviceReset t ∧ TimeKept s t ∧ t.boot.cause = 6 ∧ t.boot.hub = false ∧
      t.boot.mainRail = false ∧ t.sec.pbk = none ∧ t.sec.otk = [] ∧ t.svc.log = []) ∧
    (b.standby = true → Yields .standbyLoss s fun t => DeviceReset t ∧ t.time = {} ∧ t.boot.standby = false ∧ t.sec.otk = [] ∧
      t.sec.pbk = none ∧ t.sec.fuse = s.sec.fuse ∧ t.sec.latched = s.sec.latched) ∧
    (b.hub = true → b.rom = true → b.romDone = false → b.perst = false → b.lands = false →
      (s.sec.defunctPending = true → s.sec.lc ≠ 4 → ∀ o g p, Yields (.romBoot o g p) s fun t => t.sec.lc = 4 ∧ DeviceReset t ∧
        t.boot.cause = 5) ∧
      (s.sec.defunctPending = false ∨ s.sec.lc = 4 →
        (Yields (.romBoot true true true) s fun t => t.boot.stage = 1 ∧ t.boot.portOn = true ∧ t.sec.nonce.length = 8 ∧
          t.boot.need = [0, 1, 2, 3, 4] ++ (if s.sec.lc = 2 then [5] else []) ∧ (t.ctx 0).memKey.isSome = true ∧
          (s.sec.idk = true → t.sec.pbk.isSome = true) ∧ (b.warm = true → s.sec.pbk.isSome = true → t.sec.pbk = s.sec.pbk) ∧
          (s.sec.idk = false → t.sec.pbk = s.sec.pbk)) ∧
        (∀ o g, o = false ∨ g = false → Yields (.romBoot o g true) s fun t => t.boot.stage = 4 ∧ t.boot.portOn = true ∧ t.sec = s.sec))) ∧
    (b.hub = true → b.inTamper = false → Yields .perstAssert s fun t => DeviceReset t ∧ TimeKept s t ∧ t.boot.cause = 3 ∧ t.boot.perst = true ∧
      t.host.up = false) ∧
    Yields .perstDeassert s (fun t => t.boot.perst = false) ∧
    ((a = .host ∧ s.host.up = true) ∨ Warden s a →
      (bits v.toNat 16 16 = 0xA5C3 →
        (bits v.toNat 0 2 = 1 → resetTaken s false = true → Yields (.warmReset a v) s fun t => DeviceReset t ∧ TimeKept s t ∧ t.boot.cause = 2 ∧
          t.sec.pbk = s.sec.pbk ∧ t.sec.otk = s.sec.otk ∧ t.sec.lc = s.sec.lc ∧ t.host.up = s.host.up ∧ t.svc.log = s.svc.log ∧
          t.sensors = s.sensors ∧ t.meshFailed = s.meshFailed ∧ t.boot.lit = s.boot.lit ∧
          ∀ x, x < 0x180_0000_0000 → rdByte t.mem x = rdByte s.mem x) ∧
        (bits v.toNat 0 2 = 2 → resetTaken s true = true → Yields (.coldReset a v) s fun t => DeviceReset t ∧ TimeKept s t ∧ t.boot.cause = 1 ∧
          t.sec.pbk = none ∧ t.sec.otk = s.sec.otk ∧ t.sec.lc = (if s.sec.lcNext = some 1 then 1 else if s.sec.lcNext = some 2 then 2
            else s.sec.lc) ∧ t.host.up = false ∧ t.svc.log = [] ∧ t.meshFailed = [] ∧ t.boot.lit = [] ∧
          (∀ m, (t.mac m).cak = (s.mac m).cak) ∧ ∀ x, x < 0x180_0000_0000 → rdByte t.mem x = 0)) ∧
      (bits v.toNat 16 16 ≠ 0xA5C3 ∨ s.boot.romDone = false → exec (.warmReset a v) s = .next s ∧ exec (.coldReset a v) s = .next s)) ∧
    (Warden s a → bit v.toNat 31 = true → Yields (.kick a v) s fun t => regField t bootPage 0x4C 0 16 = bits v.toNat 0 16 ∧ t.boot = b) ∧
    (b.stage = 2 ∨ b.stage = 3 →
      (regField s bootPage 0x4C 0 16 ≠ 0 → Yields .bootWdogExpire s fun t => DeviceReset t ∧ t.boot.cause = 4 ∧ t.sec.pbk = s.sec.pbk) ∧
      (regField s bootPage 0x4C 0 16 = 0 → exec .bootWdogExpire s = .next s))

/-- Laser modules, optical loopback and the host link (R31, R479, R505, R519, R525). The test access port: what each instruction leaves in
the port; the lands are taken only at BOOT_STAGE 0, 1 and 4; a test instruction is open in MANUFACTURE and RETURN only, and holds the dies
in reset (R461, R522, R524). -/
def Obligations.LasersLoopbackHostLinkAndTestAccess : Prop :=
  (∀ (s : State) (a : Acc) (v : Word) (m e lane : Nat), m < 8 → e < 16 → lane < 8 →
    let b := s.boot
    let sel := regField s bootPage 0x54 0 4
    let mode := bits v.toNat 0 2
    (m ∈ b.seated → Yields (.laserRemove m) s fun t => m ∉ t.boot.seated ∧ m ∉ t.boot.lit ∧ m ∉ t.boot.stable ∧
      (∀ i, i = 2 * m ∨ i = 2 * m + 1 → i ∉ t.boot.engCal ∧ tget 0 t.boot.lbRun i < 2 ∧
        (2 ≤ tget 0 b.lbRun i → tget 0 t.boot.lbLock i = 0) ∧
        (m < 6 → (t.link i).state = 0 ∧ (t.link i).light = false ∧ (t.link i).calibrated = false) ∧
        (6 ≤ m → ∀ p, p < 4 → (t.mac (4 * (i - 12) + p)).up = false))) ∧
    (m ∉ b.seated → exec (.laserRemove m) s = .next s ∧ Yields (.laserInsert m) s fun t => m ∈ t.boot.seated ∧
      (m ∉ s.svc.lmods → (tfind s.sec.running 2).isSome = true → m ∈ t.boot.lit) ∧ (m ∈ s.svc.lmods → t.boot.lit = b.lit)) ∧
    (m ∈ b.lit → m ∉ b.stable → Yields (.laserStable m) s fun t => m ∈ t.boot.stable ∧ t.boot.lit = b.lit) ∧
    (m ∉ b.lit → exec (.laserStable m) s = .next s) ∧
    (Warden s a →
      (bit v.toNat 2 = true → mode ≠ 0 →
        (lbIdle s sel = true → (mode = 2 → lbLit s sel = true) → Yields (.bootLbCtl a v) s fun t => tget 0 t.boot.lbRun sel = mode ∧
          tget 0 t.boot.lbLock sel = 0 ∧ tget 0 t.boot.lbPass sel = 0 ∧ t.boot.lbRefused = false ∧
          (∀ c, c < 2 → tget 0 t.cnts (bootPage * 256 + lbCounter sel lane c) = 0)) ∧
        (lbIdle s sel = false ∨ (mode = 2 ∧ lbLit s sel = false) → Yields (.bootLbCtl a v) s fun t => t.boot.lbRefused = true ∧
          t.boot.lbRun = b.lbRun)) ∧
      (bit v.toNat 2 = false → Yields (.bootLbCtl a v) s fun t => tget 0 t.boot.lbRun sel = 0 ∧ tget 0 t.boot.lbLock sel = 0)) ∧
    (tget 0 b.lbRun e ≠ 0 → Yields (.lbLock e lane) s fun t => (tget 0 t.boot.lbLock e).getLsbD lane = true) ∧
    (tget 0 b.lbRun e ≠ 0 → (tget 0 b.lbLock e).getLsbD lane = true → (tget 0 b.lbPass e).getLsbD lane = false →
      Yields (.lbPass e lane) s fun t => (tget 0 t.boot.lbPass e).getLsbD lane = true ∧
        Counted s t bootPage (lbCounter e lane 0) 1000000000000 ∧
        tget 0 t.cnts (bootPage * 256 + lbCounter e lane 1) ≤ tget 0 s.cnts (bootPage * 256 + lbCounter e lane 1) + 10000000) ∧
    (tget 0 b.lbRun e = 0 → exec (.lbLock e lane) s = .next s ∧ exec (.lbPass e lane) s = .next s) ∧
    (∀ speed width flit cxl vfs, s.host.up = false →
      (b.portOn = true → b.perst = false → b.lands = false → 1 ≤ speed → speed ≤ 6 → 1 ≤ width → width ≤ 16 →
        (flit = true → speed = 6) → vfs < 64 → Yields (.hostLinkUp speed width flit cxl vfs) s fun t =>
          t.host.up = true ∧ t.host.speed = speed ∧ t.host.width = width ∧ t.host.flit = flit ∧ t.host.cxl = cxl ∧ t.host.vfs = vfs ∧
          Posted t hostPage 0) ∧
      (b.portOn = false ∨ b.perst = true ∨ b.lands = true ∨ linkShape speed width flit = false →
        exec (.hostLinkUp speed width flit cxl vfs) s = .next s)) ∧
    (s.host.up = true → Yields .hostLinkDown s fun t => t.host.up = false ∧ Posted t hostPage 1)) ∧
  (∀ (s : State) (chain : Nat), s.boot.standby = true →
    (∀ i ∈ [Instr.idcode, .trstAssert], Yields i s fun t => TapHolds t 0x01 ∧ t.boot.tapDr = 0x1A4157AB ∧ t.boot.lands = false ∧
      t.host = s.host) ∧
    Yields .bypass s (fun t => TapHolds t 0xFF ∧ t.boot.tapDr = 0 ∧ t.boot.lands = false ∧ t.host = s.host) ∧
    Yields .samplePreload s (fun t => TapHolds t 0x02 ∧ t.host = s.host ∧ t.boot.lands = false ∧ t.mem = s.mem ∧ t.dies = s.dies) ∧
    (∀ p ∈ [(Instr.extest, 0x00), (.clamp, 0x03), (.highz, 0x04), (.extestPulse, 0x05), (.extestTrain, 0x06)],
      (s.boot.stage = 0 ∨ s.boot.stage = 1 ∨ s.boot.stage = 4 → Yields p.1 s fun t => TapHolds t p.2 ∧ t.boot.lands = true ∧
        t.host.up = false ∧ t.boot.stage = s.boot.stage) ∧
      (s.boot.stage = 2 ∨ s.boot.stage = 3 → Yields p.1 s fun t => TapHolds t p.2 ∧ t.boot.lands = false ∧ t.host = s.host)) ∧
    (∀ p ∈ [(Instr.internalScan chain, 0x80, 16), (.memoryBist chain, 0x90, 16), (.coreDebug chain, 0xA0, 4)], chain < p.2.2 →
      ((s.sec.lc = 0 ∨ s.sec.lc = 3) → s.boot.testHold = false → s.boot.hub = true → s.boot.inTamper = false →
        Yields p.1 s fun t => TapHolds t (p.2.1 + chain) ∧ t.boot.testHold = true ∧ t.boot.stage = 4 ∧ TimeKept s t ∧ t.sec = s.sec ∧
          (∀ n, t.ctx n = {}) ∧ (∀ h, t.hart h = {}) ∧ (∀ d, d < 8 → (t.die d).state = 3) ∧ ∀ k, (t.link k).state = 0) ∧
      (s.sec.lc ≠ 0 → s.sec.lc ≠ 3 → Yields p.1 s fun t => TapHolds t (p.2.1 + chain) ∧ t.boot.stage = s.boot.stage ∧ t.dies = s.dies ∧
        t.mem = s.mem ∧ t.harts = s.harts ∧ t.host = s.host)))

/-- State.reset: no rail is up; every register reads its reset value; salterns OFF and the hub in RUN; contexts FREE; the four bases at 0;
links DOWN; memory lists nothing; and what every step keeps holds (R16, R413, R415, R436, R494, R511, R514, R521). Log entries 3 and 5 say
how the model starts and what an unwritten byte reads. -/
def Obligations.ResetState : Prop :=
  let s := State.reset
  s.Inv ∧ (∀ page off, regGet s page off = regReset page off) ∧
  regGet s jobPage 0x40 = 0xFFFFF ∧ regGet s pwrPage 0x40 = 4600 ∧ regGet s (grlPage 3) 8 = 0 ∧ regGet s (macPage 5) 8 = 0 ∧
  regGet s timePage 8 = 1 ∧ regField s timePage 0x58 16 9 = 20 ∧
  s.boot.standby = false ∧ s.boot.hub = false ∧ s.boot.stage = 0 ∧ (∀ d, d < 8 → (s.die d).state = 3) ∧ (s.die 8).state = 0 ∧
  (∀ n, (s.ctx n).st = .free ∧ (s.ctx n).memKey = none) ∧ (∀ k, s.time.base k = { sec := 0, ns := 0, frac := 0 }) ∧
  (∀ k, (s.link k).state = 0 ∧ (s.link k).cause = 0) ∧ (∀ m, (s.mac m).up = false) ∧ (∀ f, (s.fabric f).ctx = none) ∧
  (∀ a, rdByte s.mem a = 0) ∧ s.pending = []

/-- What holds of a state holds after every step from it: memory stays in its canonical form, the error log never holds more than 1,024
records (R471), the queue of the SYNC page never more than 256 events (R286). -/
def Obligations.StepKeepsInv : Prop :=
  ∀ (s t : State), s.Inv → step s = .next t → t.Inv

/-- Every command of the table completes in every state: it answers a next state, and never a fault or a refusal. None changes the queue of
the commands that wait. -/
def Obligations.ExecKeepsTheQueue : Prop :=
  ∀ (i : Instr) (s : State), ∃ t, exec i s = .next t ∧ t.pending = s.pending
end

