-- ==== Sys2Proof/Laws/Flit.lean ====
section
/-! SUPPORT. Little-endian numbers and the CRC of a flit's image. -/

namespace Sys2Proof.Machine

open Sys2Proof

@[simp] theorem toLE_length : ∀ n v : Nat, (toLE n v).length = n
  | 0, _ => rfl
  | n + 1, v => by simp [toLE, toLE_length n]

/-- The bytes of a number give back the number, as far as they reach. -/
theorem ofLE_toLE : ∀ n v : Nat, ofLE (toLE n v) = v % 256 ^ n
  | 0, v => by simp [toLE, ofLE, Nat.mod_one]
  | n + 1, v => by
    simp only [toLE, ofLE, ofLE_toLE n, BitVec.toNat_ofNat]
    have h : v % 256 ^ (n + 1) = v % 256 + 256 * (v / 256 % 256 ^ n) := by rw [Nat.pow_succ, Nat.mul_comm, Nat.mod_mul]
    exact h.symm

theorem padTo_length {α : Type} (d : α) : ∀ (n : Nat) (xs : List α), (padTo d n xs).length = n
  | 0, _ => rfl
  | n + 1, [] => by simp [padTo, padTo_length d n]
  | n + 1, x :: xs => by simp [padTo, padTo_length d n]

/-- An image whose last four bytes are `n` passes the check of R288 exactly where `n` is the CRC-32C of the bytes before. -/
theorem flitCrcOk_append {b : List Byte} (hb : b.length = 252) (n : Nat) :
    flitCrcOk (b ++ toLE 4 n) = (n % 2 ^ 32 == (crc32c b).toNat) := by
  have drop : (b ++ toLE 4 n).drop 252 = toLE 4 n := by rw [← hb]; simp
  have take : (b ++ toLE 4 n).take 252 = b := by rw [← hb]; simp
  have all : (toLE 4 n).take 4 = toLE 4 n := List.take_of_length_le (by simp)
  unfold flitCrcOk fieldLE slice
  have four : (256 : Nat) ^ 4 = 2 ^ 32 := by decide
  rw [drop, take, all, ofLE_toLE, four]

/-- The image of a flit in clear passes the check (R288). -/
theorem flitCrcOk_flitImage (c : Nat) (f : Flit) : flitCrcOk (flitImage none c f) = true := by
  have len : (flitHeader f ++ flitBody none c f).length = 252 := by simp [flitHeader, flitBody, padTo_length]
  unfold flitImage
  rw [flitCrcOk_append len, Nat.mod_eq_of_lt (crc32c _).isLt]
  simp

end Sys2Proof.Machine
end

