-- ==== Sys2Proof/Laws/Table.lean ====
section
/-! SUPPORT. What the operations on tables do: reads after writes, and that a write keeps the canonical form. -/

namespace Sys2Proof.Machine

open Sys2Proof

/-! ### Reads after writes, in any table -/

@[simp] theorem tfind_nil {α : Type} (k : Nat) : tfind ([] : Tbl α) k = none := rfl

@[simp] theorem tget_nil {α : Type} (d : α) (k : Nat) : tget d ([] : Tbl α) k = d := rfl

theorem tfind_tput_same {α : Type} (t : Tbl α) (k : Nat) (v : α) : tfind (tput t k v) k = some v := by
  induction t with
  | nil => simp [tput, tfind]
  | cons p t ih =>
    obtain ⟨k', w⟩ := p
    simp only [tput]
    split
    · simp [tfind]
    · split
      · simp [tfind]
      · next h => simp [tfind, Ne.symm h, ih]

theorem tfind_tput_other {α : Type} (t : Tbl α) {k j : Nat} (v : α) (h : j ≠ k) : tfind (tput t k v) j = tfind t j := by
  have h' : ¬ k = j := fun e => h e.symm
  induction t with
  | nil => simp [tput, tfind, h']
  | cons p t ih =>
    obtain ⟨k', w⟩ := p
    simp only [tput]
    split
    · simp [tfind, h']
    · split
      · next e => subst e; simp [tfind, h']
      · simp only [tfind, ih]

theorem tfind_tdel_same {α : Type} (t : Tbl α) (k : Nat) : tfind (tdel t k) k = none := by
  induction t with
  | nil => rfl
  | cons p t ih =>
    obtain ⟨k', w⟩ := p
    simp only [tdel]
    split
    · exact ih
    · next h => simp [tfind, h, ih]

theorem tfind_tdel_other {α : Type} (t : Tbl α) {k j : Nat} (h : j ≠ k) : tfind (tdel t k) j = tfind t j := by
  induction t with
  | nil => rfl
  | cons p t ih =>
    obtain ⟨k', w⟩ := p
    simp only [tdel]
    split
    · next e => subst e; simp [tfind, Ne.symm h, ih]
    · simp only [tfind, ih]

@[simp] theorem tget_tset_same {α : Type} [DecidableEq α] (d : α) (t : Tbl α) (k : Nat) (v : α) :
    tget d (tset d t k v) k = v := by
  unfold tget tset
  split
  · next h => simp [tfind_tdel_same, h]
  · simp [tfind_tput_same]

theorem tget_tset_other {α : Type} [DecidableEq α] (d d' : α) (t : Tbl α) {k j : Nat} (v : α) (h : j ≠ k) :
    tget d' (tset d t k v) j = tget d' t j := by
  unfold tget tset
  split
  · rw [tfind_tdel_other t h]
  · rw [tfind_tput_other t v h]

/-! ### The canonical form -/

/-- The keys of a table in canonical form that begins with `k` are above `k`. -/
theorem keysRise_cons {α : Type} (k : Nat) (v : α) (t : Tbl α) :
    keysRise ((k, v) :: t) = true ↔ keysRise t = true ∧ ∀ p ∈ t, k < p.1 := by
  induction t generalizing k v with
  | nil => simp [keysRise]
  | cons p t ih =>
    obtain ⟨k', w⟩ := p
    simp only [keysRise, Bool.and_eq_true, decide_eq_true_eq, List.mem_cons, forall_eq_or_imp]
    constructor
    · rintro ⟨hk, ht⟩
      exact ⟨ht, hk, fun p hp => Nat.lt_trans hk (((ih k' w).mp ht).2 p hp)⟩
    · rintro ⟨ht, hk, -⟩
      exact ⟨hk, ht⟩

theorem mem_tdel {α : Type} {t : Tbl α} {k : Nat} {p : Nat × α} (h : p ∈ tdel t k) : p ∈ t := by
  induction t with
  | nil => exact h
  | cons q t ih =>
    obtain ⟨k', w⟩ := q
    simp only [tdel] at h
    split at h
    · exact List.mem_cons_of_mem _ (ih h)
    · rcases List.mem_cons.mp h with e | e
      · simp [e]
      · exact List.mem_cons_of_mem _ (ih e)

theorem mem_tput {α : Type} {t : Tbl α} {k : Nat} {v : α} {p : Nat × α} (h : p ∈ tput t k v) : p = (k, v) ∨ p ∈ t := by
  induction t with
  | nil => simpa [tput] using h
  | cons q t ih =>
    obtain ⟨k', w⟩ := q
    simp only [tput] at h
    split at h
    · simpa using h
    · split at h
      · rcases List.mem_cons.mp h with e | e
        · exact .inl e
        · exact .inr (List.mem_cons_of_mem _ e)
      · rcases List.mem_cons.mp h with e | e
        · simp [e]
        · exact (ih e).imp id (List.mem_cons_of_mem _)

theorem keysRise_tdel {α : Type} {t : Tbl α} (k : Nat) (h : keysRise t = true) : keysRise (tdel t k) = true := by
  induction t with
  | nil => rfl
  | cons p t ih =>
    obtain ⟨k', w⟩ := p
    obtain ⟨ht, hk⟩ := (keysRise_cons k' w t).mp h
    simp only [tdel]
    split
    · exact ih ht
    · exact (keysRise_cons k' w _).mpr ⟨ih ht, fun p hp => hk p (mem_tdel hp)⟩

theorem keysRise_tput {α : Type} {t : Tbl α} (k : Nat) (v : α) (h : keysRise t = true) : keysRise (tput t k v) = true := by
  induction t with
  | nil => rfl
  | cons p t ih =>
    obtain ⟨k', w⟩ := p
    obtain ⟨ht, hk⟩ := (keysRise_cons k' w t).mp h
    simp only [tput]
    split
    · next hlt =>
      refine (keysRise_cons k v _).mpr ⟨h, fun p hp => ?_⟩
      rcases List.mem_cons.mp hp with e | e
      · simpa [e] using hlt
      · exact Nat.lt_trans hlt (hk p e)
    · split
      · next e => subst e; exact (keysRise_cons k v _).mpr ⟨ht, hk⟩
      · next h1 h2 =>
        refine (keysRise_cons k' w _).mpr ⟨ih ht, fun p hp => ?_⟩
        rcases mem_tput hp with e | e
        · subst e; show k' < k; omega
        · exact hk p e

theorem tblOk_iff {α : Type} [DecidableEq α] (d : α) (t : Tbl α) :
    tblOk d t = true ↔ keysRise t = true ∧ ∀ p ∈ t, p.2 ≠ d := by
  simp [tblOk, List.all_eq_true]

/-- Writing an entry keeps a table's canonical form. -/
theorem tblOk_tset {α : Type} [DecidableEq α] {d : α} {t : Tbl α} (k : Nat) (v : α) (h : tblOk d t = true) :
    tblOk d (tset d t k v) = true := by
  obtain ⟨hk, hd⟩ := (tblOk_iff d t).mp h
  unfold tset
  split
  · exact (tblOk_iff d _).mpr ⟨keysRise_tdel k hk, fun p hp => hd p (mem_tdel hp)⟩
  · next hv =>
    refine (tblOk_iff d _).mpr ⟨keysRise_tput k v hk, fun p hp => ?_⟩
    rcases mem_tput hp with e | e
    · subst e; exact hv
    · exact hd p e

/-- A part of a table in canonical form is in canonical form. -/
theorem tblOk_filter {α : Type} [DecidableEq α] {d : α} {t : Tbl α} (p : Nat × α → Bool) (h : tblOk d t = true) :
    tblOk d (t.filter p) = true := by
  obtain ⟨hk, hd⟩ := (tblOk_iff d t).mp h
  refine (tblOk_iff d _).mpr ⟨?_, fun q hq => hd q ((List.mem_filter.mp hq).1)⟩
  clear h hd
  induction t with
  | nil => rfl
  | cons q t ih =>
    obtain ⟨k, v⟩ := q
    obtain ⟨ht, hlt⟩ := (keysRise_cons k v t).mp hk
    simp only [List.filter_cons]
    split
    · exact (keysRise_cons k v _).mpr ⟨ih ht, fun q hq => hlt q ((List.mem_filter.mp hq).1)⟩
    · exact ih ht

end Sys2Proof.Machine
end

