-- ==== Sys2Proof/Laws/Memory.lean ====
section
/-! SUPPORT. Memory: a read after a write, and that every memory operation keeps the canonical form. -/

namespace Sys2Proof.Machine

open Sys2Proof

/-! ### Reads after writes -/

@[simp] theorem rdByte_wrByte_same (m : List Host.Cell) (a : Nat) (v : Byte) : rdByte (wrByte m a v) a = v := by
  simp [rdByte, wrByte]

theorem rdByte_wrByte_other (m : List Host.Cell) {a b : Nat} (v : Byte) (h : b ≠ a) :
    rdByte (wrByte m a v) b = rdByte m b := by
  simp [rdByte, wrByte, tget_tset_other memDefault memDefault m v h]

/-- Bytes outside those written read as before. -/
theorem rdByte_wrBytes_other (bs : List Byte) (m : List Host.Cell) (a b : Nat) (h : b < a ∨ a + bs.length ≤ b) :
    rdByte (wrBytes m a bs) b = rdByte m b := by
  induction bs generalizing m a with
  | nil => rfl
  | cons v bs ih =>
    simp only [List.length_cons] at h
    rw [wrBytes, ih (wrByte m a v) (a + 1) (by omega), rdByte_wrByte_other m v (by omega)]

/-- Each byte written reads back. -/
theorem rdByte_wrBytes_in (bs : List Byte) (m : List Host.Cell) (a i : Nat) (h : i < bs.length) :
    rdByte (wrBytes m a bs) (a + i) = bs[i] := by
  induction bs generalizing m a i with
  | nil => simp at h
  | cons v bs ih =>
    cases i with
    | zero =>
      rw [wrBytes, rdByte_wrBytes_other bs _ _ _ (by omega)]
      simp
    | succ i =>
      have := ih (wrByte m a v) (a + 1) i (by simpa using h)
      rw [wrBytes, show a + (i + 1) = a + 1 + i by omega, this]
      simp

/-! ### The canonical form -/

theorem memory_wf_empty : Memory.wf [] = true := rfl

theorem memory_wf_wrByte {m : List Host.Cell} (a : Nat) (v : Byte) (h : Memory.wf m = true) :
    Memory.wf (wrByte m a v) = true := tblOk_tset a v h

theorem memory_wf_wrBytes {m : List Host.Cell} (a : Nat) (bs : List Byte) (h : Memory.wf m = true) :
    Memory.wf (wrBytes m a bs) = true := by
  induction bs generalizing m a with
  | nil => exact h
  | cons v bs ih => exact ih (a + 1) (memory_wf_wrByte a v h)

theorem memory_wf_setRaw {s : State} (a : Nat) (bs : List Byte) (h : Memory.wf s.mem = true) :
    Memory.wf (s.setRaw a bs).mem = true := memory_wf_wrBytes a bs h

theorem memory_wf_reset : Memory.wf State.reset.mem = true := rfl

end Sys2Proof.Machine
end

