-- ==== Sys2Proof/Laws/State.lean ====
section
/-! SUPPORT. The update operations of State: what each writes reads back, and every other field and accessor is as before.
A theorem `…_fields` is one conjunction, which simp uses as one rewriting rule for each field. -/

namespace Sys2Proof.Machine

open Sys2Proof

variable (s : State)

@[simp] theorem State.setCtx_same (n : Nat) (c : Ctx) : (s.setCtx n c).ctx n = c :=
  tget_tset_same _ s.ctxs n c

theorem State.setCtx_other {n i : Nat} (c : Ctx) (hi : i ≠ n) : (s.setCtx n c).ctx i = s.ctx i :=
  tget_tset_other _ _ s.ctxs c hi

@[simp] theorem State.setCtx_fields (n : Nat) (c : Ctx) :
    (s.setCtx n c).regs = s.regs ∧ (s.setCtx n c).cnts = s.cnts ∧ (s.setCtx n c).quota = s.quota ∧
    (s.setCtx n c).harts = s.harts ∧ (s.setCtx n c).tags = s.tags ∧ (s.setCtx n c).owner = s.owner ∧
    (s.setCtx n c).explicit = s.explicit ∧ (s.setCtx n c).grants = s.grants ∧ (s.setCtx n c).queues = s.queues ∧
    (s.setCtx n c).running = s.running ∧ (s.setCtx n c).rr = s.rr ∧ (s.setCtx n c).pans = s.pans ∧
    (s.setCtx n c).sals = s.sals ∧ (s.setCtx n c).vecs = s.vecs ∧ (s.setCtx n c).mem = s.mem ∧
    (s.setCtx n c).memTag = s.memTag ∧ (s.setCtx n c).flags = s.flags ∧ (s.setCtx n c).barriers = s.barriers ∧
    (s.setCtx n c).credits = s.credits ∧ (s.setCtx n c).syncEvq = s.syncEvq ∧ (s.setCtx n c).nameFaults = s.nameFaults ∧
    (s.setCtx n c).dbgCtx = s.dbgCtx ∧ (s.setCtx n c).touched = s.touched ∧ (s.setCtx n c).lends = s.lends ∧
    (s.setCtx n c).links = s.links ∧ (s.setCtx n c).jobs = s.jobs ∧ (s.setCtx n c).rxXfers = s.rxXfers ∧
    (s.setCtx n c).txXfers = s.txXfers ∧ (s.setCtx n c).colls = s.colls ∧ (s.setCtx n c).macs = s.macs ∧
    (s.setCtx n c).fabrics = s.fabrics ∧ (s.setCtx n c).time = s.time ∧ (s.setCtx n c).dies = s.dies ∧
    (s.setCtx n c).gated = s.gated ∧ (s.setCtx n c).sensors = s.sensors ∧ (s.setCtx n c).hbms = s.hbms ∧
    (s.setCtx n c).sramScrub = s.sramScrub ∧ (s.setCtx n c).ceil = s.ceil ∧ (s.setCtx n c).watts = s.watts ∧
    (s.setCtx n c).amps = s.amps ∧ (s.setCtx n c).meshFailed = s.meshFailed ∧ (s.setCtx n c).crossed = s.crossed ∧
    (s.setCtx n c).sec = s.sec ∧ (s.setCtx n c).svc = s.svc ∧ (s.setCtx n c).boot = s.boot ∧ (s.setCtx n c).host = s.host ∧
    (s.setCtx n c).readVal = s.readVal ∧ (s.setCtx n c).waitSeq = s.waitSeq ∧ (s.setCtx n c).free = s.free ∧
    (s.setCtx n c).pending = s.pending :=
  by refine ⟨?_, ?_, ?_, ?_, ?_, ?_, ?_, ?_, ?_, ?_, ?_, ?_, ?_, ?_, ?_, ?_, ?_, ?_, ?_, ?_, ?_, ?_, ?_, ?_, ?_, ?_, ?_, ?_, ?_, ?_, ?_, ?_, ?_, ?_, ?_, ?_, ?_, ?_, ?_, ?_, ?_, ?_, ?_, ?_, ?_, ?_, ?_, ?_, ?_, ?_⟩ <;> rfl

@[simp] theorem State.setCtx_reads (n : Nat) (c : Ctx) :
    (∀ n, (s.setCtx n c).hart n = s.hart n) ∧ (∀ n, (s.setCtx n c).pan n = s.pan n) ∧
    (∀ n, (s.setCtx n c).sal n = s.sal n) ∧ (∀ n, (s.setCtx n c).vec n = s.vec n) ∧
    (∀ n, (s.setCtx n c).flag n = s.flag n) ∧ (∀ n, (s.setCtx n c).barrier n = s.barrier n) ∧
    (∀ n, (s.setCtx n c).credit n = s.credit n) ∧ (∀ n, (s.setCtx n c).link n = s.link n) ∧
    (∀ n, (s.setCtx n c).jobSlot n = s.jobSlot n) ∧ (∀ n, (s.setCtx n c).mac n = s.mac n) ∧
    (∀ n, (s.setCtx n c).fabric n = s.fabric n) ∧ (∀ n, (s.setCtx n c).die n = s.die n) ∧
    (∀ n, (s.setCtx n c).stack n = s.stack n) ∧ (∀ n, (s.setCtx n c).sensor n = s.sensor n) ∧
    (∀ e q, (s.setCtx n c).ownerOf e q = s.ownerOf e q) ∧ (∀ e q, (s.setCtx n c).run e q = s.run e q) ∧
    (∀ e q, (s.setCtx n c).queue e q = s.queue e q) ∧ (∀ n, (s.setCtx n c).bayCtx n = s.bayCtx n) ∧
    (∀ pg off, regGet (s.setCtx n c) pg off = regGet s pg off) :=
  by refine ⟨?_, ?_, ?_, ?_, ?_, ?_, ?_, ?_, ?_, ?_, ?_, ?_, ?_, ?_, ?_, ?_, ?_, ?_, ?_⟩ <;> intros <;> rfl

@[simp] theorem State.setHart_same (h : Nat) (x : Hart) : (s.setHart h x).hart h = x :=
  tget_tset_same _ s.harts h x

theorem State.setHart_other {h i : Nat} (x : Hart) (hi : i ≠ h) : (s.setHart h x).hart i = s.hart i :=
  tget_tset_other _ _ s.harts x hi

@[simp] theorem State.setHart_fields (h : Nat) (x : Hart) :
    (s.setHart h x).regs = s.regs ∧ (s.setHart h x).cnts = s.cnts ∧ (s.setHart h x).ctxs = s.ctxs ∧
    (s.setHart h x).quota = s.quota ∧ (s.setHart h x).tags = s.tags ∧ (s.setHart h x).owner = s.owner ∧
    (s.setHart h x).explicit = s.explicit ∧ (s.setHart h x).grants = s.grants ∧ (s.setHart h x).queues = s.queues ∧
    (s.setHart h x).running = s.running ∧ (s.setHart h x).rr = s.rr ∧ (s.setHart h x).pans = s.pans ∧
    (s.setHart h x).sals = s.sals ∧ (s.setHart h x).vecs = s.vecs ∧ (s.setHart h x).mem = s.mem ∧
    (s.setHart h x).memTag = s.memTag ∧ (s.setHart h x).flags = s.flags ∧ (s.setHart h x).barriers = s.barriers ∧
    (s.setHart h x).credits = s.credits ∧ (s.setHart h x).syncEvq = s.syncEvq ∧ (s.setHart h x).nameFaults = s.nameFaults ∧
    (s.setHart h x).dbgCtx = s.dbgCtx ∧ (s.setHart h x).touched = s.touched ∧ (s.setHart h x).lends = s.lends ∧
    (s.setHart h x).links = s.links ∧ (s.setHart h x).jobs = s.jobs ∧ (s.setHart h x).rxXfers = s.rxXfers ∧
    (s.setHart h x).txXfers = s.txXfers ∧ (s.setHart h x).colls = s.colls ∧ (s.setHart h x).macs = s.macs ∧
    (s.setHart h x).fabrics = s.fabrics ∧ (s.setHart h x).time = s.time ∧ (s.setHart h x).dies = s.dies ∧
    (s.setHart h x).gated = s.gated ∧ (s.setHart h x).sensors = s.sensors ∧ (s.setHart h x).hbms = s.hbms ∧
    (s.setHart h x).sramScrub = s.sramScrub ∧ (s.setHart h x).ceil = s.ceil ∧ (s.setHart h x).watts = s.watts ∧
    (s.setHart h x).amps = s.amps ∧ (s.setHart h x).meshFailed = s.meshFailed ∧ (s.setHart h x).crossed = s.crossed ∧
    (s.setHart h x).sec = s.sec ∧ (s.setHart h x).svc = s.svc ∧ (s.setHart h x).boot = s.boot ∧
    (s.setHart h x).host = s.host ∧ (s.setHart h x).readVal = s.readVal ∧ (s.setHart h x).waitSeq = s.waitSeq ∧
    (s.setHart h x).free = s.free ∧ (s.setHart h x).pending = s.pending :=
  by refine ⟨?_, ?_, ?_, ?_, ?_, ?_, ?_, ?_, ?_, ?_, ?_, ?_, ?_, ?_, ?_, ?_, ?_, ?_, ?_, ?_, ?_, ?_, ?_, ?_, ?_, ?_, ?_, ?_, ?_, ?_, ?_, ?_, ?_, ?_, ?_, ?_, ?_, ?_, ?_, ?_, ?_, ?_, ?_, ?_, ?_, ?_, ?_, ?_, ?_, ?_⟩ <;> rfl

@[simp] theorem State.setHart_reads (h : Nat) (x : Hart) :
    (∀ n, (s.setHart h x).ctx n = s.ctx n) ∧ (∀ n, (s.setHart h x).pan n = s.pan n) ∧
    (∀ n, (s.setHart h x).sal n = s.sal n) ∧ (∀ n, (s.setHart h x).vec n = s.vec n) ∧
    (∀ n, (s.setHart h x).flag n = s.flag n) ∧ (∀ n, (s.setHart h x).barrier n = s.barrier n) ∧
    (∀ n, (s.setHart h x).credit n = s.credit n) ∧ (∀ n, (s.setHart h x).link n = s.link n) ∧
    (∀ n, (s.setHart h x).jobSlot n = s.jobSlot n) ∧ (∀ n, (s.setHart h x).mac n = s.mac n) ∧
    (∀ n, (s.setHart h x).fabric n = s.fabric n) ∧ (∀ n, (s.setHart h x).die n = s.die n) ∧
    (∀ n, (s.setHart h x).stack n = s.stack n) ∧ (∀ n, (s.setHart h x).sensor n = s.sensor n) ∧
    (∀ e q, (s.setHart h x).ownerOf e q = s.ownerOf e q) ∧ (∀ e q, (s.setHart h x).run e q = s.run e q) ∧
    (∀ e q, (s.setHart h x).queue e q = s.queue e q) ∧ (∀ n, (s.setHart h x).bayCtx n = s.bayCtx n) ∧
    (∀ pg off, regGet (s.setHart h x) pg off = regGet s pg off) :=
  by refine ⟨?_, ?_, ?_, ?_, ?_, ?_, ?_, ?_, ?_, ?_, ?_, ?_, ?_, ?_, ?_, ?_, ?_, ?_, ?_⟩ <;> intros <;> rfl

@[simp] theorem State.setPan_same (b : Nat) (p : Pan) : (s.setPan b p).pan b = p :=
  tget_tset_same _ s.pans b p

theorem State.setPan_other {b i : Nat} (p : Pan) (hi : i ≠ b) : (s.setPan b p).pan i = s.pan i :=
  tget_tset_other _ _ s.pans p hi

@[simp] theorem State.setPan_fields (b : Nat) (p : Pan) :
    (s.setPan b p).regs = s.regs ∧ (s.setPan b p).cnts = s.cnts ∧ (s.setPan b p).ctxs = s.ctxs ∧
    (s.setPan b p).quota = s.quota ∧ (s.setPan b p).harts = s.harts ∧ (s.setPan b p).tags = s.tags ∧
    (s.setPan b p).owner = s.owner ∧ (s.setPan b p).explicit = s.explicit ∧ (s.setPan b p).grants = s.grants ∧
    (s.setPan b p).queues = s.queues ∧ (s.setPan b p).running = s.running ∧ (s.setPan b p).rr = s.rr ∧
    (s.setPan b p).sals = s.sals ∧ (s.setPan b p).vecs = s.vecs ∧ (s.setPan b p).mem = s.mem ∧
    (s.setPan b p).memTag = s.memTag ∧ (s.setPan b p).flags = s.flags ∧ (s.setPan b p).barriers = s.barriers ∧
    (s.setPan b p).credits = s.credits ∧ (s.setPan b p).syncEvq = s.syncEvq ∧ (s.setPan b p).nameFaults = s.nameFaults ∧
    (s.setPan b p).dbgCtx = s.dbgCtx ∧ (s.setPan b p).touched = s.touched ∧ (s.setPan b p).lends = s.lends ∧
    (s.setPan b p).links = s.links ∧ (s.setPan b p).jobs = s.jobs ∧ (s.setPan b p).rxXfers = s.rxXfers ∧
    (s.setPan b p).txXfers = s.txXfers ∧ (s.setPan b p).colls = s.colls ∧ (s.setPan b p).macs = s.macs ∧
    (s.setPan b p).fabrics = s.fabrics ∧ (s.setPan b p).time = s.time ∧ (s.setPan b p).dies = s.dies ∧
    (s.setPan b p).gated = s.gated ∧ (s.setPan b p).sensors = s.sensors ∧ (s.setPan b p).hbms = s.hbms ∧
    (s.setPan b p).sramScrub = s.sramScrub ∧ (s.setPan b p).ceil = s.ceil ∧ (s.setPan b p).watts = s.watts ∧
    (s.setPan b p).amps = s.amps ∧ (s.setPan b p).meshFailed = s.meshFailed ∧ (s.setPan b p).crossed = s.crossed ∧
    (s.setPan b p).sec = s.sec ∧ (s.setPan b p).svc = s.svc ∧ (s.setPan b p).boot = s.boot ∧ (s.setPan b p).host = s.host ∧
    (s.setPan b p).readVal = s.readVal ∧ (s.setPan b p).waitSeq = s.waitSeq ∧ (s.setPan b p).free = s.free ∧
    (s.setPan b p).pending = s.pending :=
  by refine ⟨?_, ?_, ?_, ?_, ?_, ?_, ?_, ?_, ?_, ?_, ?_, ?_, ?_, ?_, ?_, ?_, ?_, ?_, ?_, ?_, ?_, ?_, ?_, ?_, ?_, ?_, ?_, ?_, ?_, ?_, ?_, ?_, ?_, ?_, ?_, ?_, ?_, ?_, ?_, ?_, ?_, ?_, ?_, ?_, ?_, ?_, ?_, ?_, ?_, ?_⟩ <;> rfl

@[simp] theorem State.setPan_reads (b : Nat) (p : Pan) :
    (∀ n, (s.setPan b p).ctx n = s.ctx n) ∧ (∀ n, (s.setPan b p).hart n = s.hart n) ∧
    (∀ n, (s.setPan b p).sal n = s.sal n) ∧ (∀ n, (s.setPan b p).vec n = s.vec n) ∧
    (∀ n, (s.setPan b p).flag n = s.flag n) ∧ (∀ n, (s.setPan b p).barrier n = s.barrier n) ∧
    (∀ n, (s.setPan b p).credit n = s.credit n) ∧ (∀ n, (s.setPan b p).link n = s.link n) ∧
    (∀ n, (s.setPan b p).jobSlot n = s.jobSlot n) ∧ (∀ n, (s.setPan b p).mac n = s.mac n) ∧
    (∀ n, (s.setPan b p).fabric n = s.fabric n) ∧ (∀ n, (s.setPan b p).die n = s.die n) ∧
    (∀ n, (s.setPan b p).stack n = s.stack n) ∧ (∀ n, (s.setPan b p).sensor n = s.sensor n) ∧
    (∀ e q, (s.setPan b p).ownerOf e q = s.ownerOf e q) ∧ (∀ e q, (s.setPan b p).run e q = s.run e q) ∧
    (∀ e q, (s.setPan b p).queue e q = s.queue e q) ∧ (∀ n, (s.setPan b p).bayCtx n = s.bayCtx n) ∧
    (∀ pg off, regGet (s.setPan b p) pg off = regGet s pg off) :=
  by refine ⟨?_, ?_, ?_, ?_, ?_, ?_, ?_, ?_, ?_, ?_, ?_, ?_, ?_, ?_, ?_, ?_, ?_, ?_, ?_⟩ <;> intros <;> rfl

@[simp] theorem State.setSal_same (d : Nat) (x : Sal) : (s.setSal d x).sal d = x :=
  tget_tset_same _ s.sals d x

theorem State.setSal_other {d i : Nat} (x : Sal) (hi : i ≠ d) : (s.setSal d x).sal i = s.sal i :=
  tget_tset_other _ _ s.sals x hi

@[simp] theorem State.setSal_fields (d : Nat) (x : Sal) :
    (s.setSal d x).regs = s.regs ∧ (s.setSal d x).cnts = s.cnts ∧ (s.setSal d x).ctxs = s.ctxs ∧
    (s.setSal d x).quota = s.quota ∧ (s.setSal d x).harts = s.harts ∧ (s.setSal d x).tags = s.tags ∧
    (s.setSal d x).owner = s.owner ∧ (s.setSal d x).explicit = s.explicit ∧ (s.setSal d x).grants = s.grants ∧
    (s.setSal d x).queues = s.queues ∧ (s.setSal d x).running = s.running ∧ (s.setSal d x).rr = s.rr ∧
    (s.setSal d x).pans = s.pans ∧ (s.setSal d x).vecs = s.vecs ∧ (s.setSal d x).mem = s.mem ∧
    (s.setSal d x).memTag = s.memTag ∧ (s.setSal d x).flags = s.flags ∧ (s.setSal d x).barriers = s.barriers ∧
    (s.setSal d x).credits = s.credits ∧ (s.setSal d x).syncEvq = s.syncEvq ∧ (s.setSal d x).nameFaults = s.nameFaults ∧
    (s.setSal d x).dbgCtx = s.dbgCtx ∧ (s.setSal d x).touched = s.touched ∧ (s.setSal d x).lends = s.lends ∧
    (s.setSal d x).links = s.links ∧ (s.setSal d x).jobs = s.jobs ∧ (s.setSal d x).rxXfers = s.rxXfers ∧
    (s.setSal d x).txXfers = s.txXfers ∧ (s.setSal d x).colls = s.colls ∧ (s.setSal d x).macs = s.macs ∧
    (s.setSal d x).fabrics = s.fabrics ∧ (s.setSal d x).time = s.time ∧ (s.setSal d x).dies = s.dies ∧
    (s.setSal d x).gated = s.gated ∧ (s.setSal d x).sensors = s.sensors ∧ (s.setSal d x).hbms = s.hbms ∧
    (s.setSal d x).sramScrub = s.sramScrub ∧ (s.setSal d x).ceil = s.ceil ∧ (s.setSal d x).watts = s.watts ∧
    (s.setSal d x).amps = s.amps ∧ (s.setSal d x).meshFailed = s.meshFailed ∧ (s.setSal d x).crossed = s.crossed ∧
    (s.setSal d x).sec = s.sec ∧ (s.setSal d x).svc = s.svc ∧ (s.setSal d x).boot = s.boot ∧ (s.setSal d x).host = s.host ∧
    (s.setSal d x).readVal = s.readVal ∧ (s.setSal d x).waitSeq = s.waitSeq ∧ (s.setSal d x).free = s.free ∧
    (s.setSal d x).pending = s.pending :=
  by refine ⟨?_, ?_, ?_, ?_, ?_, ?_, ?_, ?_, ?_, ?_, ?_, ?_, ?_, ?_, ?_, ?_, ?_, ?_, ?_, ?_, ?_, ?_, ?_, ?_, ?_, ?_, ?_, ?_, ?_, ?_, ?_, ?_, ?_, ?_, ?_, ?_, ?_, ?_, ?_, ?_, ?_, ?_, ?_, ?_, ?_, ?_, ?_, ?_, ?_, ?_⟩ <;> rfl

@[simp] theorem State.setSal_reads (d : Nat) (x : Sal) :
    (∀ n, (s.setSal d x).ctx n = s.ctx n) ∧ (∀ n, (s.setSal d x).hart n = s.hart n) ∧
    (∀ n, (s.setSal d x).pan n = s.pan n) ∧ (∀ n, (s.setSal d x).vec n = s.vec n) ∧
    (∀ n, (s.setSal d x).flag n = s.flag n) ∧ (∀ n, (s.setSal d x).barrier n = s.barrier n) ∧
    (∀ n, (s.setSal d x).credit n = s.credit n) ∧ (∀ n, (s.setSal d x).link n = s.link n) ∧
    (∀ n, (s.setSal d x).jobSlot n = s.jobSlot n) ∧ (∀ n, (s.setSal d x).mac n = s.mac n) ∧
    (∀ n, (s.setSal d x).fabric n = s.fabric n) ∧ (∀ n, (s.setSal d x).die n = s.die n) ∧
    (∀ n, (s.setSal d x).stack n = s.stack n) ∧ (∀ n, (s.setSal d x).sensor n = s.sensor n) ∧
    (∀ e q, (s.setSal d x).ownerOf e q = s.ownerOf e q) ∧ (∀ e q, (s.setSal d x).run e q = s.run e q) ∧
    (∀ e q, (s.setSal d x).queue e q = s.queue e q) ∧ (∀ n, (s.setSal d x).bayCtx n = s.bayCtx n) ∧
    (∀ pg off, regGet (s.setSal d x) pg off = regGet s pg off) :=
  by refine ⟨?_, ?_, ?_, ?_, ?_, ?_, ?_, ?_, ?_, ?_, ?_, ?_, ?_, ?_, ?_, ?_, ?_, ?_, ?_⟩ <;> intros <;> rfl

@[simp] theorem State.setVec_same (b : Nat) (v : Vec) : (s.setVec b v).vec b = v :=
  tget_tset_same _ s.vecs b v

theorem State.setVec_other {b i : Nat} (v : Vec) (hi : i ≠ b) : (s.setVec b v).vec i = s.vec i :=
  tget_tset_other _ _ s.vecs v hi

@[simp] theorem State.setVec_fields (b : Nat) (v : Vec) :
    (s.setVec b v).regs = s.regs ∧ (s.setVec b v).cnts = s.cnts ∧ (s.setVec b v).ctxs = s.ctxs ∧
    (s.setVec b v).quota = s.quota ∧ (s.setVec b v).harts = s.harts ∧ (s.setVec b v).tags = s.tags ∧
    (s.setVec b v).owner = s.owner ∧ (s.setVec b v).explicit = s.explicit ∧ (s.setVec b v).grants = s.grants ∧
    (s.setVec b v).queues = s.queues ∧ (s.setVec b v).running = s.running ∧ (s.setVec b v).rr = s.rr ∧
    (s.setVec b v).pans = s.pans ∧ (s.setVec b v).sals = s.sals ∧ (s.setVec b v).mem = s.mem ∧
    (s.setVec b v).memTag = s.memTag ∧ (s.setVec b v).flags = s.flags ∧ (s.setVec b v).barriers = s.barriers ∧
    (s.setVec b v).credits = s.credits ∧ (s.setVec b v).syncEvq = s.syncEvq ∧ (s.setVec b v).nameFaults = s.nameFaults ∧
    (s.setVec b v).dbgCtx = s.dbgCtx ∧ (s.setVec b v).touched = s.touched ∧ (s.setVec b v).lends = s.lends ∧
    (s.setVec b v).links = s.links ∧ (s.setVec b v).jobs = s.jobs ∧ (s.setVec b v).rxXfers = s.rxXfers ∧
    (s.setVec b v).txXfers = s.txXfers ∧ (s.setVec b v).colls = s.colls ∧ (s.setVec b v).macs = s.macs ∧
    (s.setVec b v).fabrics = s.fabrics ∧ (s.setVec b v).time = s.time ∧ (s.setVec b v).dies = s.dies ∧
    (s.setVec b v).gated = s.gated ∧ (s.setVec b v).sensors = s.sensors ∧ (s.setVec b v).hbms = s.hbms ∧
    (s.setVec b v).sramScrub = s.sramScrub ∧ (s.setVec b v).ceil = s.ceil ∧ (s.setVec b v).watts = s.watts ∧
    (s.setVec b v).amps = s.amps ∧ (s.setVec b v).meshFailed = s.meshFailed ∧ (s.setVec b v).crossed = s.crossed ∧
    (s.setVec b v).sec = s.sec ∧ (s.setVec b v).svc = s.svc ∧ (s.setVec b v).boot = s.boot ∧ (s.setVec b v).host = s.host ∧
    (s.setVec b v).readVal = s.readVal ∧ (s.setVec b v).waitSeq = s.waitSeq ∧ (s.setVec b v).free = s.free ∧
    (s.setVec b v).pending = s.pending :=
  by refine ⟨?_, ?_, ?_, ?_, ?_, ?_, ?_, ?_, ?_, ?_, ?_, ?_, ?_, ?_, ?_, ?_, ?_, ?_, ?_, ?_, ?_, ?_, ?_, ?_, ?_, ?_, ?_, ?_, ?_, ?_, ?_, ?_, ?_, ?_, ?_, ?_, ?_, ?_, ?_, ?_, ?_, ?_, ?_, ?_, ?_, ?_, ?_, ?_, ?_, ?_⟩ <;> rfl

@[simp] theorem State.setVec_reads (b : Nat) (v : Vec) :
    (∀ n, (s.setVec b v).ctx n = s.ctx n) ∧ (∀ n, (s.setVec b v).hart n = s.hart n) ∧
    (∀ n, (s.setVec b v).pan n = s.pan n) ∧ (∀ n, (s.setVec b v).sal n = s.sal n) ∧
    (∀ n, (s.setVec b v).flag n = s.flag n) ∧ (∀ n, (s.setVec b v).barrier n = s.barrier n) ∧
    (∀ n, (s.setVec b v).credit n = s.credit n) ∧ (∀ n, (s.setVec b v).link n = s.link n) ∧
    (∀ n, (s.setVec b v).jobSlot n = s.jobSlot n) ∧ (∀ n, (s.setVec b v).mac n = s.mac n) ∧
    (∀ n, (s.setVec b v).fabric n = s.fabric n) ∧ (∀ n, (s.setVec b v).die n = s.die n) ∧
    (∀ n, (s.setVec b v).stack n = s.stack n) ∧ (∀ n, (s.setVec b v).sensor n = s.sensor n) ∧
    (∀ e q, (s.setVec b v).ownerOf e q = s.ownerOf e q) ∧ (∀ e q, (s.setVec b v).run e q = s.run e q) ∧
    (∀ e q, (s.setVec b v).queue e q = s.queue e q) ∧ (∀ n, (s.setVec b v).bayCtx n = s.bayCtx n) ∧
    (∀ pg off, regGet (s.setVec b v) pg off = regGet s pg off) :=
  by refine ⟨?_, ?_, ?_, ?_, ?_, ?_, ?_, ?_, ?_, ?_, ?_, ?_, ?_, ?_, ?_, ?_, ?_, ?_, ?_⟩ <;> intros <;> rfl

@[simp] theorem State.setFlag_same (k : Nat) (f : Flag) : (s.setFlag k f).flag k = f :=
  tget_tset_same _ s.flags k f

theorem State.setFlag_other {k i : Nat} (f : Flag) (hi : i ≠ k) : (s.setFlag k f).flag i = s.flag i :=
  tget_tset_other _ _ s.flags f hi

@[simp] theorem State.setFlag_fields (k : Nat) (f : Flag) :
    (s.setFlag k f).regs = s.regs ∧ (s.setFlag k f).cnts = s.cnts ∧ (s.setFlag k f).ctxs = s.ctxs ∧
    (s.setFlag k f).quota = s.quota ∧ (s.setFlag k f).harts = s.harts ∧ (s.setFlag k f).tags = s.tags ∧
    (s.setFlag k f).owner = s.owner ∧ (s.setFlag k f).explicit = s.explicit ∧ (s.setFlag k f).grants = s.grants ∧
    (s.setFlag k f).queues = s.queues ∧ (s.setFlag k f).running = s.running ∧ (s.setFlag k f).rr = s.rr ∧
    (s.setFlag k f).pans = s.pans ∧ (s.setFlag k f).sals = s.sals ∧ (s.setFlag k f).vecs = s.vecs ∧
    (s.setFlag k f).mem = s.mem ∧ (s.setFlag k f).memTag = s.memTag ∧ (s.setFlag k f).barriers = s.barriers ∧
    (s.setFlag k f).credits = s.credits ∧ (s.setFlag k f).syncEvq = s.syncEvq ∧ (s.setFlag k f).nameFaults = s.nameFaults ∧
    (s.setFlag k f).dbgCtx = s.dbgCtx ∧ (s.setFlag k f).touched = s.touched ∧ (s.setFlag k f).lends = s.lends ∧
    (s.setFlag k f).links = s.links ∧ (s.setFlag k f).jobs = s.jobs ∧ (s.setFlag k f).rxXfers = s.rxXfers ∧
    (s.setFlag k f).txXfers = s.txXfers ∧ (s.setFlag k f).colls = s.colls ∧ (s.setFlag k f).macs = s.macs ∧
    (s.setFlag k f).fabrics = s.fabrics ∧ (s.setFlag k f).time = s.time ∧ (s.setFlag k f).dies = s.dies ∧
    (s.setFlag k f).gated = s.gated ∧ (s.setFlag k f).sensors = s.sensors ∧ (s.setFlag k f).hbms = s.hbms ∧
    (s.setFlag k f).sramScrub = s.sramScrub ∧ (s.setFlag k f).ceil = s.ceil ∧ (s.setFlag k f).watts = s.watts ∧
    (s.setFlag k f).amps = s.amps ∧ (s.setFlag k f).meshFailed = s.meshFailed ∧ (s.setFlag k f).crossed = s.crossed ∧
    (s.setFlag k f).sec = s.sec ∧ (s.setFlag k f).svc = s.svc ∧ (s.setFlag k f).boot = s.boot ∧
    (s.setFlag k f).host = s.host ∧ (s.setFlag k f).readVal = s.readVal ∧ (s.setFlag k f).waitSeq = s.waitSeq ∧
    (s.setFlag k f).free = s.free ∧ (s.setFlag k f).pending = s.pending :=
  by refine ⟨?_, ?_, ?_, ?_, ?_, ?_, ?_, ?_, ?_, ?_, ?_, ?_, ?_, ?_, ?_, ?_, ?_, ?_, ?_, ?_, ?_, ?_, ?_, ?_, ?_, ?_, ?_, ?_, ?_, ?_, ?_, ?_, ?_, ?_, ?_, ?_, ?_, ?_, ?_, ?_, ?_, ?_, ?_, ?_, ?_, ?_, ?_, ?_, ?_, ?_⟩ <;> rfl

@[simp] theorem State.setFlag_reads (k : Nat) (f : Flag) :
    (∀ n, (s.setFlag k f).ctx n = s.ctx n) ∧ (∀ n, (s.setFlag k f).hart n = s.hart n) ∧
    (∀ n, (s.setFlag k f).pan n = s.pan n) ∧ (∀ n, (s.setFlag k f).sal n = s.sal n) ∧
    (∀ n, (s.setFlag k f).vec n = s.vec n) ∧ (∀ n, (s.setFlag k f).barrier n = s.barrier n) ∧
    (∀ n, (s.setFlag k f).credit n = s.credit n) ∧ (∀ n, (s.setFlag k f).link n = s.link n) ∧
    (∀ n, (s.setFlag k f).jobSlot n = s.jobSlot n) ∧ (∀ n, (s.setFlag k f).mac n = s.mac n) ∧
    (∀ n, (s.setFlag k f).fabric n = s.fabric n) ∧ (∀ n, (s.setFlag k f).die n = s.die n) ∧
    (∀ n, (s.setFlag k f).stack n = s.stack n) ∧ (∀ n, (s.setFlag k f).sensor n = s.sensor n) ∧
    (∀ e q, (s.setFlag k f).ownerOf e q = s.ownerOf e q) ∧ (∀ e q, (s.setFlag k f).run e q = s.run e q) ∧
    (∀ e q, (s.setFlag k f).queue e q = s.queue e q) ∧ (∀ n, (s.setFlag k f).bayCtx n = s.bayCtx n) ∧
    (∀ pg off, regGet (s.setFlag k f) pg off = regGet s pg off) :=
  by refine ⟨?_, ?_, ?_, ?_, ?_, ?_, ?_, ?_, ?_, ?_, ?_, ?_, ?_, ?_, ?_, ?_, ?_, ?_, ?_⟩ <;> intros <;> rfl

@[simp] theorem State.setBarrier_same (k : Nat) (b : Barrier) : (s.setBarrier k b).barrier k = b :=
  tget_tset_same _ s.barriers k b

theorem State.setBarrier_other {k i : Nat} (b : Barrier) (hi : i ≠ k) : (s.setBarrier k b).barrier i = s.barrier i :=
  tget_tset_other _ _ s.barriers b hi

@[simp] theorem State.setBarrier_fields (k : Nat) (b : Barrier) :
    (s.setBarrier k b).regs = s.regs ∧ (s.setBarrier k b).cnts = s.cnts ∧ (s.setBarrier k b).ctxs = s.ctxs ∧
    (s.setBarrier k b).quota = s.quota ∧ (s.setBarrier k b).harts = s.harts ∧ (s.setBarrier k b).tags = s.tags ∧
    (s.setBarrier k b).owner = s.owner ∧ (s.setBarrier k b).explicit = s.explicit ∧ (s.setBarrier k b).grants = s.grants ∧
    (s.setBarrier k b).queues = s.queues ∧ (s.setBarrier k b).running = s.running ∧ (s.setBarrier k b).rr = s.rr ∧
    (s.setBarrier k b).pans = s.pans ∧ (s.setBarrier k b).sals = s.sals ∧ (s.setBarrier k b).vecs = s.vecs ∧
    (s.setBarrier k b).mem = s.mem ∧ (s.setBarrier k b).memTag = s.memTag ∧ (s.setBarrier k b).flags = s.flags ∧
    (s.setBarrier k b).credits = s.credits ∧ (s.setBarrier k b).syncEvq = s.syncEvq ∧
    (s.setBarrier k b).nameFaults = s.nameFaults ∧ (s.setBarrier k b).dbgCtx = s.dbgCtx ∧
    (s.setBarrier k b).touched = s.touched ∧ (s.setBarrier k b).lends = s.lends ∧ (s.setBarrier k b).links = s.links ∧
    (s.setBarrier k b).jobs = s.jobs ∧ (s.setBarrier k b).rxXfers = s.rxXfers ∧ (s.setBarrier k b).txXfers = s.txXfers ∧
    (s.setBarrier k b).colls = s.colls ∧ (s.setBarrier k b).macs = s.macs ∧ (s.setBarrier k b).fabrics = s.fabrics ∧
    (s.setBarrier k b).time = s.time ∧ (s.setBarrier k b).dies = s.dies ∧ (s.setBarrier k b).gated = s.gated ∧
    (s.setBarrier k b).sensors = s.sensors ∧ (s.setBarrier k b).hbms = s.hbms ∧ (s.setBarrier k b).sramScrub = s.sramScrub ∧
    (s.setBarrier k b).ceil = s.ceil ∧ (s.setBarrier k b).watts = s.watts ∧ (s.setBarrier k b).amps = s.amps ∧
    (s.setBarrier k b).meshFailed = s.meshFailed ∧ (s.setBarrier k b).crossed = s.crossed ∧ (s.setBarrier k b).sec = s.sec ∧
    (s.setBarrier k b).svc = s.svc ∧ (s.setBarrier k b).boot = s.boot ∧ (s.setBarrier k b).host = s.host ∧
    (s.setBarrier k b).readVal = s.readVal ∧ (s.setBarrier k b).waitSeq = s.waitSeq ∧ (s.setBarrier k b).free = s.free ∧
    (s.setBarrier k b).pending = s.pending :=
  by refine ⟨?_, ?_, ?_, ?_, ?_, ?_, ?_, ?_, ?_, ?_, ?_, ?_, ?_, ?_, ?_, ?_, ?_, ?_, ?_, ?_, ?_, ?_, ?_, ?_, ?_, ?_, ?_, ?_, ?_, ?_, ?_, ?_, ?_, ?_, ?_, ?_, ?_, ?_, ?_, ?_, ?_, ?_, ?_, ?_, ?_, ?_, ?_, ?_, ?_, ?_⟩ <;> rfl

@[simp] theorem State.setBarrier_reads (k : Nat) (b : Barrier) :
    (∀ n, (s.setBarrier k b).ctx n = s.ctx n) ∧ (∀ n, (s.setBarrier k b).hart n = s.hart n) ∧
    (∀ n, (s.setBarrier k b).pan n = s.pan n) ∧ (∀ n, (s.setBarrier k b).sal n = s.sal n) ∧
    (∀ n, (s.setBarrier k b).vec n = s.vec n) ∧ (∀ n, (s.setBarrier k b).flag n = s.flag n) ∧
    (∀ n, (s.setBarrier k b).credit n = s.credit n) ∧ (∀ n, (s.setBarrier k b).link n = s.link n) ∧
    (∀ n, (s.setBarrier k b).jobSlot n = s.jobSlot n) ∧ (∀ n, (s.setBarrier k b).mac n = s.mac n) ∧
    (∀ n, (s.setBarrier k b).fabric n = s.fabric n) ∧ (∀ n, (s.setBarrier k b).die n = s.die n) ∧
    (∀ n, (s.setBarrier k b).stack n = s.stack n) ∧ (∀ n, (s.setBarrier k b).sensor n = s.sensor n) ∧
    (∀ e q, (s.setBarrier k b).ownerOf e q = s.ownerOf e q) ∧ (∀ e q, (s.setBarrier k b).run e q = s.run e q) ∧
    (∀ e q, (s.setBarrier k b).queue e q = s.queue e q) ∧ (∀ n, (s.setBarrier k b).bayCtx n = s.bayCtx n) ∧
    (∀ pg off, regGet (s.setBarrier k b) pg off = regGet s pg off) :=
  by refine ⟨?_, ?_, ?_, ?_, ?_, ?_, ?_, ?_, ?_, ?_, ?_, ?_, ?_, ?_, ?_, ?_, ?_, ?_, ?_⟩ <;> intros <;> rfl

@[simp] theorem State.setCredit_same (k : Nat) (c : Credit) : (s.setCredit k c).credit k = c :=
  tget_tset_same _ s.credits k c

theorem State.setCredit_other {k i : Nat} (c : Credit) (hi : i ≠ k) : (s.setCredit k c).credit i = s.credit i :=
  tget_tset_other _ _ s.credits c hi

@[simp] theorem State.setCredit_fields (k : Nat) (c : Credit) :
    (s.setCredit k c).regs = s.regs ∧ (s.setCredit k c).cnts = s.cnts ∧ (s.setCredit k c).ctxs = s.ctxs ∧
    (s.setCredit k c).quota = s.quota ∧ (s.setCredit k c).harts = s.harts ∧ (s.setCredit k c).tags = s.tags ∧
    (s.setCredit k c).owner = s.owner ∧ (s.setCredit k c).explicit = s.explicit ∧ (s.setCredit k c).grants = s.grants ∧
    (s.setCredit k c).queues = s.queues ∧ (s.setCredit k c).running = s.running ∧ (s.setCredit k c).rr = s.rr ∧
    (s.setCredit k c).pans = s.pans ∧ (s.setCredit k c).sals = s.sals ∧ (s.setCredit k c).vecs = s.vecs ∧
    (s.setCredit k c).mem = s.mem ∧ (s.setCredit k c).memTag = s.memTag ∧ (s.setCredit k c).flags = s.flags ∧
    (s.setCredit k c).barriers = s.barriers ∧ (s.setCredit k c).syncEvq = s.syncEvq ∧
    (s.setCredit k c).nameFaults = s.nameFaults ∧ (s.setCredit k c).dbgCtx = s.dbgCtx ∧
    (s.setCredit k c).touched = s.touched ∧ (s.setCredit k c).lends = s.lends ∧ (s.setCredit k c).links = s.links ∧
    (s.setCredit k c).jobs = s.jobs ∧ (s.setCredit k c).rxXfers = s.rxXfers ∧ (s.setCredit k c).txXfers = s.txXfers ∧
    (s.setCredit k c).colls = s.colls ∧ (s.setCredit k c).macs = s.macs ∧ (s.setCredit k c).fabrics = s.fabrics ∧
    (s.setCredit k c).time = s.time ∧ (s.setCredit k c).dies = s.dies ∧ (s.setCredit k c).gated = s.gated ∧
    (s.setCredit k c).sensors = s.sensors ∧ (s.setCredit k c).hbms = s.hbms ∧ (s.setCredit k c).sramScrub = s.sramScrub ∧
    (s.setCredit k c).ceil = s.ceil ∧ (s.setCredit k c).watts = s.watts ∧ (s.setCredit k c).amps = s.amps ∧
    (s.setCredit k c).meshFailed = s.meshFailed ∧ (s.setCredit k c).crossed = s.crossed ∧ (s.setCredit k c).sec = s.sec ∧
    (s.setCredit k c).svc = s.svc ∧ (s.setCredit k c).boot = s.boot ∧ (s.setCredit k c).host = s.host ∧
    (s.setCredit k c).readVal = s.readVal ∧ (s.setCredit k c).waitSeq = s.waitSeq ∧ (s.setCredit k c).free = s.free ∧
    (s.setCredit k c).pending = s.pending :=
  by refine ⟨?_, ?_, ?_, ?_, ?_, ?_, ?_, ?_, ?_, ?_, ?_, ?_, ?_, ?_, ?_, ?_, ?_, ?_, ?_, ?_, ?_, ?_, ?_, ?_, ?_, ?_, ?_, ?_, ?_, ?_, ?_, ?_, ?_, ?_, ?_, ?_, ?_, ?_, ?_, ?_, ?_, ?_, ?_, ?_, ?_, ?_, ?_, ?_, ?_, ?_⟩ <;> rfl

@[simp] theorem State.setCredit_reads (k : Nat) (c : Credit) :
    (∀ n, (s.setCredit k c).ctx n = s.ctx n) ∧ (∀ n, (s.setCredit k c).hart n = s.hart n) ∧
    (∀ n, (s.setCredit k c).pan n = s.pan n) ∧ (∀ n, (s.setCredit k c).sal n = s.sal n) ∧
    (∀ n, (s.setCredit k c).vec n = s.vec n) ∧ (∀ n, (s.setCredit k c).flag n = s.flag n) ∧
    (∀ n, (s.setCredit k c).barrier n = s.barrier n) ∧ (∀ n, (s.setCredit k c).link n = s.link n) ∧
    (∀ n, (s.setCredit k c).jobSlot n = s.jobSlot n) ∧ (∀ n, (s.setCredit k c).mac n = s.mac n) ∧
    (∀ n, (s.setCredit k c).fabric n = s.fabric n) ∧ (∀ n, (s.setCredit k c).die n = s.die n) ∧
    (∀ n, (s.setCredit k c).stack n = s.stack n) ∧ (∀ n, (s.setCredit k c).sensor n = s.sensor n) ∧
    (∀ e q, (s.setCredit k c).ownerOf e q = s.ownerOf e q) ∧ (∀ e q, (s.setCredit k c).run e q = s.run e q) ∧
    (∀ e q, (s.setCredit k c).queue e q = s.queue e q) ∧ (∀ n, (s.setCredit k c).bayCtx n = s.bayCtx n) ∧
    (∀ pg off, regGet (s.setCredit k c) pg off = regGet s pg off) :=
  by refine ⟨?_, ?_, ?_, ?_, ?_, ?_, ?_, ?_, ?_, ?_, ?_, ?_, ?_, ?_, ?_, ?_, ?_, ?_, ?_⟩ <;> intros <;> rfl

@[simp] theorem State.setLink_same (k : Nat) (l : Link) : (s.setLink k l).link k = l :=
  tget_tset_same _ s.links k l

theorem State.setLink_other {k i : Nat} (l : Link) (hi : i ≠ k) : (s.setLink k l).link i = s.link i :=
  tget_tset_other _ _ s.links l hi

@[simp] theorem State.setLink_fields (k : Nat) (l : Link) :
    (s.setLink k l).regs = s.regs ∧ (s.setLink k l).cnts = s.cnts ∧ (s.setLink k l).ctxs = s.ctxs ∧
    (s.setLink k l).quota = s.quota ∧ (s.setLink k l).harts = s.harts ∧ (s.setLink k l).tags = s.tags ∧
    (s.setLink k l).owner = s.owner ∧ (s.setLink k l).explicit = s.explicit ∧ (s.setLink k l).grants = s.grants ∧
    (s.setLink k l).queues = s.queues ∧ (s.setLink k l).running = s.running ∧ (s.setLink k l).rr = s.rr ∧
    (s.setLink k l).pans = s.pans ∧ (s.setLink k l).sals = s.sals ∧ (s.setLink k l).vecs = s.vecs ∧
    (s.setLink k l).mem = s.mem ∧ (s.setLink k l).memTag = s.memTag ∧ (s.setLink k l).flags = s.flags ∧
    (s.setLink k l).barriers = s.barriers ∧ (s.setLink k l).credits = s.credits ∧ (s.setLink k l).syncEvq = s.syncEvq ∧
    (s.setLink k l).nameFaults = s.nameFaults ∧ (s.setLink k l).dbgCtx = s.dbgCtx ∧ (s.setLink k l).touched = s.touched ∧
    (s.setLink k l).lends = s.lends ∧ (s.setLink k l).jobs = s.jobs ∧ (s.setLink k l).rxXfers = s.rxXfers ∧
    (s.setLink k l).txXfers = s.txXfers ∧ (s.setLink k l).colls = s.colls ∧ (s.setLink k l).macs = s.macs ∧
    (s.setLink k l).fabrics = s.fabrics ∧ (s.setLink k l).time = s.time ∧ (s.setLink k l).dies = s.dies ∧
    (s.setLink k l).gated = s.gated ∧ (s.setLink k l).sensors = s.sensors ∧ (s.setLink k l).hbms = s.hbms ∧
    (s.setLink k l).sramScrub = s.sramScrub ∧ (s.setLink k l).ceil = s.ceil ∧ (s.setLink k l).watts = s.watts ∧
    (s.setLink k l).amps = s.amps ∧ (s.setLink k l).meshFailed = s.meshFailed ∧ (s.setLink k l).crossed = s.crossed ∧
    (s.setLink k l).sec = s.sec ∧ (s.setLink k l).svc = s.svc ∧ (s.setLink k l).boot = s.boot ∧
    (s.setLink k l).host = s.host ∧ (s.setLink k l).readVal = s.readVal ∧ (s.setLink k l).waitSeq = s.waitSeq ∧
    (s.setLink k l).free = s.free ∧ (s.setLink k l).pending = s.pending :=
  by refine ⟨?_, ?_, ?_, ?_, ?_, ?_, ?_, ?_, ?_, ?_, ?_, ?_, ?_, ?_, ?_, ?_, ?_, ?_, ?_, ?_, ?_, ?_, ?_, ?_, ?_, ?_, ?_, ?_, ?_, ?_, ?_, ?_, ?_, ?_, ?_, ?_, ?_, ?_, ?_, ?_, ?_, ?_, ?_, ?_, ?_, ?_, ?_, ?_, ?_, ?_⟩ <;> rfl

@[simp] theorem State.setLink_reads (k : Nat) (l : Link) :
    (∀ n, (s.setLink k l).ctx n = s.ctx n) ∧ (∀ n, (s.setLink k l).hart n = s.hart n) ∧
    (∀ n, (s.setLink k l).pan n = s.pan n) ∧ (∀ n, (s.setLink k l).sal n = s.sal n) ∧
    (∀ n, (s.setLink k l).vec n = s.vec n) ∧ (∀ n, (s.setLink k l).flag n = s.flag n) ∧
    (∀ n, (s.setLink k l).barrier n = s.barrier n) ∧ (∀ n, (s.setLink k l).credit n = s.credit n) ∧
    (∀ n, (s.setLink k l).jobSlot n = s.jobSlot n) ∧ (∀ n, (s.setLink k l).mac n = s.mac n) ∧
    (∀ n, (s.setLink k l).fabric n = s.fabric n) ∧ (∀ n, (s.setLink k l).die n = s.die n) ∧
    (∀ n, (s.setLink k l).stack n = s.stack n) ∧ (∀ n, (s.setLink k l).sensor n = s.sensor n) ∧
    (∀ e q, (s.setLink k l).ownerOf e q = s.ownerOf e q) ∧ (∀ e q, (s.setLink k l).run e q = s.run e q) ∧
    (∀ e q, (s.setLink k l).queue e q = s.queue e q) ∧ (∀ n, (s.setLink k l).bayCtx n = s.bayCtx n) ∧
    (∀ pg off, regGet (s.setLink k l) pg off = regGet s pg off) :=
  by refine ⟨?_, ?_, ?_, ?_, ?_, ?_, ?_, ?_, ?_, ?_, ?_, ?_, ?_, ?_, ?_, ?_, ?_, ?_, ?_⟩ <;> intros <;> rfl

@[simp] theorem State.setJob_same (k : Nat) (j : Job) : (s.setJob k j).jobSlot k = j :=
  tget_tset_same _ s.jobs k j

theorem State.setJob_other {k i : Nat} (j : Job) (hi : i ≠ k) : (s.setJob k j).jobSlot i = s.jobSlot i :=
  tget_tset_other _ _ s.jobs j hi

@[simp] theorem State.setJob_fields (k : Nat) (j : Job) :
    (s.setJob k j).regs = s.regs ∧ (s.setJob k j).cnts = s.cnts ∧ (s.setJob k j).ctxs = s.ctxs ∧
    (s.setJob k j).quota = s.quota ∧ (s.setJob k j).harts = s.harts ∧ (s.setJob k j).tags = s.tags ∧
    (s.setJob k j).owner = s.owner ∧ (s.setJob k j).explicit = s.explicit ∧ (s.setJob k j).grants = s.grants ∧
    (s.setJob k j).queues = s.queues ∧ (s.setJob k j).running = s.running ∧ (s.setJob k j).rr = s.rr ∧
    (s.setJob k j).pans = s.pans ∧ (s.setJob k j).sals = s.sals ∧ (s.setJob k j).vecs = s.vecs ∧
    (s.setJob k j).mem = s.mem ∧ (s.setJob k j).memTag = s.memTag ∧ (s.setJob k j).flags = s.flags ∧
    (s.setJob k j).barriers = s.barriers ∧ (s.setJob k j).credits = s.credits ∧ (s.setJob k j).syncEvq = s.syncEvq ∧
    (s.setJob k j).nameFaults = s.nameFaults ∧ (s.setJob k j).dbgCtx = s.dbgCtx ∧ (s.setJob k j).touched = s.touched ∧
    (s.setJob k j).lends = s.lends ∧ (s.setJob k j).links = s.links ∧ (s.setJob k j).rxXfers = s.rxXfers ∧
    (s.setJob k j).txXfers = s.txXfers ∧ (s.setJob k j).colls = s.colls ∧ (s.setJob k j).macs = s.macs ∧
    (s.setJob k j).fabrics = s.fabrics ∧ (s.setJob k j).time = s.time ∧ (s.setJob k j).dies = s.dies ∧
    (s.setJob k j).gated = s.gated ∧ (s.setJob k j).sensors = s.sensors ∧ (s.setJob k j).hbms = s.hbms ∧
    (s.setJob k j).sramScrub = s.sramScrub ∧ (s.setJob k j).ceil = s.ceil ∧ (s.setJob k j).watts = s.watts ∧
    (s.setJob k j).amps = s.amps ∧ (s.setJob k j).meshFailed = s.meshFailed ∧ (s.setJob k j).crossed = s.crossed ∧
    (s.setJob k j).sec = s.sec ∧ (s.setJob k j).svc = s.svc ∧ (s.setJob k j).boot = s.boot ∧ (s.setJob k j).host = s.host ∧
    (s.setJob k j).readVal = s.readVal ∧ (s.setJob k j).waitSeq = s.waitSeq ∧ (s.setJob k j).free = s.free ∧
    (s.setJob k j).pending = s.pending :=
  by refine ⟨?_, ?_, ?_, ?_, ?_, ?_, ?_, ?_, ?_, ?_, ?_, ?_, ?_, ?_, ?_, ?_, ?_, ?_, ?_, ?_, ?_, ?_, ?_, ?_, ?_, ?_, ?_, ?_, ?_, ?_, ?_, ?_, ?_, ?_, ?_, ?_, ?_, ?_, ?_, ?_, ?_, ?_, ?_, ?_, ?_, ?_, ?_, ?_, ?_, ?_⟩ <;> rfl

@[simp] theorem State.setJob_reads (k : Nat) (j : Job) :
    (∀ n, (s.setJob k j).ctx n = s.ctx n) ∧ (∀ n, (s.setJob k j).hart n = s.hart n) ∧
    (∀ n, (s.setJob k j).pan n = s.pan n) ∧ (∀ n, (s.setJob k j).sal n = s.sal n) ∧ (∀ n, (s.setJob k j).vec n = s.vec n) ∧
    (∀ n, (s.setJob k j).flag n = s.flag n) ∧ (∀ n, (s.setJob k j).barrier n = s.barrier n) ∧
    (∀ n, (s.setJob k j).credit n = s.credit n) ∧ (∀ n, (s.setJob k j).link n = s.link n) ∧
    (∀ n, (s.setJob k j).mac n = s.mac n) ∧ (∀ n, (s.setJob k j).fabric n = s.fabric n) ∧
    (∀ n, (s.setJob k j).die n = s.die n) ∧ (∀ n, (s.setJob k j).stack n = s.stack n) ∧
    (∀ n, (s.setJob k j).sensor n = s.sensor n) ∧ (∀ e q, (s.setJob k j).ownerOf e q = s.ownerOf e q) ∧
    (∀ e q, (s.setJob k j).run e q = s.run e q) ∧ (∀ e q, (s.setJob k j).queue e q = s.queue e q) ∧
    (∀ n, (s.setJob k j).bayCtx n = s.bayCtx n) ∧ (∀ pg off, regGet (s.setJob k j) pg off = regGet s pg off) :=
  by refine ⟨?_, ?_, ?_, ?_, ?_, ?_, ?_, ?_, ?_, ?_, ?_, ?_, ?_, ?_, ?_, ?_, ?_, ?_, ?_⟩ <;> intros <;> rfl

@[simp] theorem State.setMac_same (m : Nat) (x : Mac) : (s.setMac m x).mac m = x :=
  tget_tset_same _ s.macs m x

theorem State.setMac_other {m i : Nat} (x : Mac) (hi : i ≠ m) : (s.setMac m x).mac i = s.mac i :=
  tget_tset_other _ _ s.macs x hi

@[simp] theorem State.setMac_fields (m : Nat) (x : Mac) :
    (s.setMac m x).regs = s.regs ∧ (s.setMac m x).cnts = s.cnts ∧ (s.setMac m x).ctxs = s.ctxs ∧
    (s.setMac m x).quota = s.quota ∧ (s.setMac m x).harts = s.harts ∧ (s.setMac m x).tags = s.tags ∧
    (s.setMac m x).owner = s.owner ∧ (s.setMac m x).explicit = s.explicit ∧ (s.setMac m x).grants = s.grants ∧
    (s.setMac m x).queues = s.queues ∧ (s.setMac m x).running = s.running ∧ (s.setMac m x).rr = s.rr ∧
    (s.setMac m x).pans = s.pans ∧ (s.setMac m x).sals = s.sals ∧ (s.setMac m x).vecs = s.vecs ∧
    (s.setMac m x).mem = s.mem ∧ (s.setMac m x).memTag = s.memTag ∧ (s.setMac m x).flags = s.flags ∧
    (s.setMac m x).barriers = s.barriers ∧ (s.setMac m x).credits = s.credits ∧ (s.setMac m x).syncEvq = s.syncEvq ∧
    (s.setMac m x).nameFaults = s.nameFaults ∧ (s.setMac m x).dbgCtx = s.dbgCtx ∧ (s.setMac m x).touched = s.touched ∧
    (s.setMac m x).lends = s.lends ∧ (s.setMac m x).links = s.links ∧ (s.setMac m x).jobs = s.jobs ∧
    (s.setMac m x).rxXfers = s.rxXfers ∧ (s.setMac m x).txXfers = s.txXfers ∧ (s.setMac m x).colls = s.colls ∧
    (s.setMac m x).fabrics = s.fabrics ∧ (s.setMac m x).time = s.time ∧ (s.setMac m x).dies = s.dies ∧
    (s.setMac m x).gated = s.gated ∧ (s.setMac m x).sensors = s.sensors ∧ (s.setMac m x).hbms = s.hbms ∧
    (s.setMac m x).sramScrub = s.sramScrub ∧ (s.setMac m x).ceil = s.ceil ∧ (s.setMac m x).watts = s.watts ∧
    (s.setMac m x).amps = s.amps ∧ (s.setMac m x).meshFailed = s.meshFailed ∧ (s.setMac m x).crossed = s.crossed ∧
    (s.setMac m x).sec = s.sec ∧ (s.setMac m x).svc = s.svc ∧ (s.setMac m x).boot = s.boot ∧ (s.setMac m x).host = s.host ∧
    (s.setMac m x).readVal = s.readVal ∧ (s.setMac m x).waitSeq = s.waitSeq ∧ (s.setMac m x).free = s.free ∧
    (s.setMac m x).pending = s.pending :=
  by refine ⟨?_, ?_, ?_, ?_, ?_, ?_, ?_, ?_, ?_, ?_, ?_, ?_, ?_, ?_, ?_, ?_, ?_, ?_, ?_, ?_, ?_, ?_, ?_, ?_, ?_, ?_, ?_, ?_, ?_, ?_, ?_, ?_, ?_, ?_, ?_, ?_, ?_, ?_, ?_, ?_, ?_, ?_, ?_, ?_, ?_, ?_, ?_, ?_, ?_, ?_⟩ <;> rfl

@[simp] theorem State.setMac_reads (m : Nat) (x : Mac) :
    (∀ n, (s.setMac m x).ctx n = s.ctx n) ∧ (∀ n, (s.setMac m x).hart n = s.hart n) ∧
    (∀ n, (s.setMac m x).pan n = s.pan n) ∧ (∀ n, (s.setMac m x).sal n = s.sal n) ∧ (∀ n, (s.setMac m x).vec n = s.vec n) ∧
    (∀ n, (s.setMac m x).flag n = s.flag n) ∧ (∀ n, (s.setMac m x).barrier n = s.barrier n) ∧
    (∀ n, (s.setMac m x).credit n = s.credit n) ∧ (∀ n, (s.setMac m x).link n = s.link n) ∧
    (∀ n, (s.setMac m x).jobSlot n = s.jobSlot n) ∧ (∀ n, (s.setMac m x).fabric n = s.fabric n) ∧
    (∀ n, (s.setMac m x).die n = s.die n) ∧ (∀ n, (s.setMac m x).stack n = s.stack n) ∧
    (∀ n, (s.setMac m x).sensor n = s.sensor n) ∧ (∀ e q, (s.setMac m x).ownerOf e q = s.ownerOf e q) ∧
    (∀ e q, (s.setMac m x).run e q = s.run e q) ∧ (∀ e q, (s.setMac m x).queue e q = s.queue e q) ∧
    (∀ n, (s.setMac m x).bayCtx n = s.bayCtx n) ∧ (∀ pg off, regGet (s.setMac m x) pg off = regGet s pg off) :=
  by refine ⟨?_, ?_, ?_, ?_, ?_, ?_, ?_, ?_, ?_, ?_, ?_, ?_, ?_, ?_, ?_, ?_, ?_, ?_, ?_⟩ <;> intros <;> rfl

@[simp] theorem State.setFabric_same (f : Nat) (x : Fabric) : (s.setFabric f x).fabric f = x :=
  tget_tset_same _ s.fabrics f x

theorem State.setFabric_other {f i : Nat} (x : Fabric) (hi : i ≠ f) : (s.setFabric f x).fabric i = s.fabric i :=
  tget_tset_other _ _ s.fabrics x hi

@[simp] theorem State.setFabric_fields (f : Nat) (x : Fabric) :
    (s.setFabric f x).regs = s.regs ∧ (s.setFabric f x).cnts = s.cnts ∧ (s.setFabric f x).ctxs = s.ctxs ∧
    (s.setFabric f x).quota = s.quota ∧ (s.setFabric f x).harts = s.harts ∧ (s.setFabric f x).tags = s.tags ∧
    (s.setFabric f x).owner = s.owner ∧ (s.setFabric f x).explicit = s.explicit ∧ (s.setFabric f x).grants = s.grants ∧
    (s.setFabric f x).queues = s.queues ∧ (s.setFabric f x).running = s.running ∧ (s.setFabric f x).rr = s.rr ∧
    (s.setFabric f x).pans = s.pans ∧ (s.setFabric f x).sals = s.sals ∧ (s.setFabric f x).vecs = s.vecs ∧
    (s.setFabric f x).mem = s.mem ∧ (s.setFabric f x).memTag = s.memTag ∧ (s.setFabric f x).flags = s.flags ∧
    (s.setFabric f x).barriers = s.barriers ∧ (s.setFabric f x).credits = s.credits ∧
    (s.setFabric f x).syncEvq = s.syncEvq ∧ (s.setFabric f x).nameFaults = s.nameFaults ∧
    (s.setFabric f x).dbgCtx = s.dbgCtx ∧ (s.setFabric f x).touched = s.touched ∧ (s.setFabric f x).lends = s.lends ∧
    (s.setFabric f x).links = s.links ∧ (s.setFabric f x).jobs = s.jobs ∧ (s.setFabric f x).rxXfers = s.rxXfers ∧
    (s.setFabric f x).txXfers = s.txXfers ∧ (s.setFabric f x).colls = s.colls ∧ (s.setFabric f x).macs = s.macs ∧
    (s.setFabric f x).time = s.time ∧ (s.setFabric f x).dies = s.dies ∧ (s.setFabric f x).gated = s.gated ∧
    (s.setFabric f x).sensors = s.sensors ∧ (s.setFabric f x).hbms = s.hbms ∧ (s.setFabric f x).sramScrub = s.sramScrub ∧
    (s.setFabric f x).ceil = s.ceil ∧ (s.setFabric f x).watts = s.watts ∧ (s.setFabric f x).amps = s.amps ∧
    (s.setFabric f x).meshFailed = s.meshFailed ∧ (s.setFabric f x).crossed = s.crossed ∧ (s.setFabric f x).sec = s.sec ∧
    (s.setFabric f x).svc = s.svc ∧ (s.setFabric f x).boot = s.boot ∧ (s.setFabric f x).host = s.host ∧
    (s.setFabric f x).readVal = s.readVal ∧ (s.setFabric f x).waitSeq = s.waitSeq ∧ (s.setFabric f x).free = s.free ∧
    (s.setFabric f x).pending = s.pending :=
  by refine ⟨?_, ?_, ?_, ?_, ?_, ?_, ?_, ?_, ?_, ?_, ?_, ?_, ?_, ?_, ?_, ?_, ?_, ?_, ?_, ?_, ?_, ?_, ?_, ?_, ?_, ?_, ?_, ?_, ?_, ?_, ?_, ?_, ?_, ?_, ?_, ?_, ?_, ?_, ?_, ?_, ?_, ?_, ?_, ?_, ?_, ?_, ?_, ?_, ?_, ?_⟩ <;> rfl

@[simp] theorem State.setFabric_reads (f : Nat) (x : Fabric) :
    (∀ n, (s.setFabric f x).ctx n = s.ctx n) ∧ (∀ n, (s.setFabric f x).hart n = s.hart n) ∧
    (∀ n, (s.setFabric f x).pan n = s.pan n) ∧ (∀ n, (s.setFabric f x).sal n = s.sal n) ∧
    (∀ n, (s.setFabric f x).vec n = s.vec n) ∧ (∀ n, (s.setFabric f x).flag n = s.flag n) ∧
    (∀ n, (s.setFabric f x).barrier n = s.barrier n) ∧ (∀ n, (s.setFabric f x).credit n = s.credit n) ∧
    (∀ n, (s.setFabric f x).link n = s.link n) ∧ (∀ n, (s.setFabric f x).jobSlot n = s.jobSlot n) ∧
    (∀ n, (s.setFabric f x).mac n = s.mac n) ∧ (∀ n, (s.setFabric f x).die n = s.die n) ∧
    (∀ n, (s.setFabric f x).stack n = s.stack n) ∧ (∀ n, (s.setFabric f x).sensor n = s.sensor n) ∧
    (∀ e q, (s.setFabric f x).ownerOf e q = s.ownerOf e q) ∧ (∀ e q, (s.setFabric f x).run e q = s.run e q) ∧
    (∀ e q, (s.setFabric f x).queue e q = s.queue e q) ∧ (∀ n, (s.setFabric f x).bayCtx n = s.bayCtx n) ∧
    (∀ pg off, regGet (s.setFabric f x) pg off = regGet s pg off) :=
  by refine ⟨?_, ?_, ?_, ?_, ?_, ?_, ?_, ?_, ?_, ?_, ?_, ?_, ?_, ?_, ?_, ?_, ?_, ?_, ?_⟩ <;> intros <;> rfl

@[simp] theorem State.setDie_same (d : Nat) (x : DiePower) : (s.setDie d x).die d = x :=
  tget_tset_same _ s.dies d x

theorem State.setDie_other {d i : Nat} (x : DiePower) (hi : i ≠ d) : (s.setDie d x).die i = s.die i :=
  tget_tset_other _ _ s.dies x hi

@[simp] theorem State.setDie_fields (d : Nat) (x : DiePower) :
    (s.setDie d x).regs = s.regs ∧ (s.setDie d x).cnts = s.cnts ∧ (s.setDie d x).ctxs = s.ctxs ∧
    (s.setDie d x).quota = s.quota ∧ (s.setDie d x).harts = s.harts ∧ (s.setDie d x).tags = s.tags ∧
    (s.setDie d x).owner = s.owner ∧ (s.setDie d x).explicit = s.explicit ∧ (s.setDie d x).grants = s.grants ∧
    (s.setDie d x).queues = s.queues ∧ (s.setDie d x).running = s.running ∧ (s.setDie d x).rr = s.rr ∧
    (s.setDie d x).pans = s.pans ∧ (s.setDie d x).sals = s.sals ∧ (s.setDie d x).vecs = s.vecs ∧
    (s.setDie d x).mem = s.mem ∧ (s.setDie d x).memTag = s.memTag ∧ (s.setDie d x).flags = s.flags ∧
    (s.setDie d x).barriers = s.barriers ∧ (s.setDie d x).credits = s.credits ∧ (s.setDie d x).syncEvq = s.syncEvq ∧
    (s.setDie d x).nameFaults = s.nameFaults ∧ (s.setDie d x).dbgCtx = s.dbgCtx ∧ (s.setDie d x).touched = s.touched ∧
    (s.setDie d x).lends = s.lends ∧ (s.setDie d x).links = s.links ∧ (s.setDie d x).jobs = s.jobs ∧
    (s.setDie d x).rxXfers = s.rxXfers ∧ (s.setDie d x).txXfers = s.txXfers ∧ (s.setDie d x).colls = s.colls ∧
    (s.setDie d x).macs = s.macs ∧ (s.setDie d x).fabrics = s.fabrics ∧ (s.setDie d x).time = s.time ∧
    (s.setDie d x).gated = s.gated ∧ (s.setDie d x).sensors = s.sensors ∧ (s.setDie d x).hbms = s.hbms ∧
    (s.setDie d x).sramScrub = s.sramScrub ∧ (s.setDie d x).ceil = s.ceil ∧ (s.setDie d x).watts = s.watts ∧
    (s.setDie d x).amps = s.amps ∧ (s.setDie d x).meshFailed = s.meshFailed ∧ (s.setDie d x).crossed = s.crossed ∧
    (s.setDie d x).sec = s.sec ∧ (s.setDie d x).svc = s.svc ∧ (s.setDie d x).boot = s.boot ∧ (s.setDie d x).host = s.host ∧
    (s.setDie d x).readVal = s.readVal ∧ (s.setDie d x).waitSeq = s.waitSeq ∧ (s.setDie d x).free = s.free ∧
    (s.setDie d x).pending = s.pending :=
  by refine ⟨?_, ?_, ?_, ?_, ?_, ?_, ?_, ?_, ?_, ?_, ?_, ?_, ?_, ?_, ?_, ?_, ?_, ?_, ?_, ?_, ?_, ?_, ?_, ?_, ?_, ?_, ?_, ?_, ?_, ?_, ?_, ?_, ?_, ?_, ?_, ?_, ?_, ?_, ?_, ?_, ?_, ?_, ?_, ?_, ?_, ?_, ?_, ?_, ?_, ?_⟩ <;> rfl

@[simp] theorem State.setDie_reads (d : Nat) (x : DiePower) :
    (∀ n, (s.setDie d x).ctx n = s.ctx n) ∧ (∀ n, (s.setDie d x).hart n = s.hart n) ∧
    (∀ n, (s.setDie d x).pan n = s.pan n) ∧ (∀ n, (s.setDie d x).sal n = s.sal n) ∧ (∀ n, (s.setDie d x).vec n = s.vec n) ∧
    (∀ n, (s.setDie d x).flag n = s.flag n) ∧ (∀ n, (s.setDie d x).barrier n = s.barrier n) ∧
    (∀ n, (s.setDie d x).credit n = s.credit n) ∧ (∀ n, (s.setDie d x).link n = s.link n) ∧
    (∀ n, (s.setDie d x).jobSlot n = s.jobSlot n) ∧ (∀ n, (s.setDie d x).mac n = s.mac n) ∧
    (∀ n, (s.setDie d x).fabric n = s.fabric n) ∧ (∀ n, (s.setDie d x).stack n = s.stack n) ∧
    (∀ n, (s.setDie d x).sensor n = s.sensor n) ∧ (∀ e q, (s.setDie d x).ownerOf e q = s.ownerOf e q) ∧
    (∀ e q, (s.setDie d x).run e q = s.run e q) ∧ (∀ e q, (s.setDie d x).queue e q = s.queue e q) ∧
    (∀ n, (s.setDie d x).bayCtx n = s.bayCtx n) ∧ (∀ pg off, regGet (s.setDie d x) pg off = regGet s pg off) :=
  by refine ⟨?_, ?_, ?_, ?_, ?_, ?_, ?_, ?_, ?_, ?_, ?_, ?_, ?_, ?_, ?_, ?_, ?_, ?_, ?_⟩ <;> intros <;> rfl

@[simp] theorem State.setStack_same (n : Nat) (x : Stack) : (s.setStack n x).stack n = x :=
  tget_tset_same _ s.hbms n x

theorem State.setStack_other {n i : Nat} (x : Stack) (hi : i ≠ n) : (s.setStack n x).stack i = s.stack i :=
  tget_tset_other _ _ s.hbms x hi

@[simp] theorem State.setStack_fields (n : Nat) (x : Stack) :
    (s.setStack n x).regs = s.regs ∧ (s.setStack n x).cnts = s.cnts ∧ (s.setStack n x).ctxs = s.ctxs ∧
    (s.setStack n x).quota = s.quota ∧ (s.setStack n x).harts = s.harts ∧ (s.setStack n x).tags = s.tags ∧
    (s.setStack n x).owner = s.owner ∧ (s.setStack n x).explicit = s.explicit ∧ (s.setStack n x).grants = s.grants ∧
    (s.setStack n x).queues = s.queues ∧ (s.setStack n x).running = s.running ∧ (s.setStack n x).rr = s.rr ∧
    (s.setStack n x).pans = s.pans ∧ (s.setStack n x).sals = s.sals ∧ (s.setStack n x).vecs = s.vecs ∧
    (s.setStack n x).mem = s.mem ∧ (s.setStack n x).memTag = s.memTag ∧ (s.setStack n x).flags = s.flags ∧
    (s.setStack n x).barriers = s.barriers ∧ (s.setStack n x).credits = s.credits ∧ (s.setStack n x).syncEvq = s.syncEvq ∧
    (s.setStack n x).nameFaults = s.nameFaults ∧ (s.setStack n x).dbgCtx = s.dbgCtx ∧ (s.setStack n x).touched = s.touched ∧
    (s.setStack n x).lends = s.lends ∧ (s.setStack n x).links = s.links ∧ (s.setStack n x).jobs = s.jobs ∧
    (s.setStack n x).rxXfers = s.rxXfers ∧ (s.setStack n x).txXfers = s.txXfers ∧ (s.setStack n x).colls = s.colls ∧
    (s.setStack n x).macs = s.macs ∧ (s.setStack n x).fabrics = s.fabrics ∧ (s.setStack n x).time = s.time ∧
    (s.setStack n x).dies = s.dies ∧ (s.setStack n x).gated = s.gated ∧ (s.setStack n x).sensors = s.sensors ∧
    (s.setStack n x).sramScrub = s.sramScrub ∧ (s.setStack n x).ceil = s.ceil ∧ (s.setStack n x).watts = s.watts ∧
    (s.setStack n x).amps = s.amps ∧ (s.setStack n x).meshFailed = s.meshFailed ∧ (s.setStack n x).crossed = s.crossed ∧
    (s.setStack n x).sec = s.sec ∧ (s.setStack n x).svc = s.svc ∧ (s.setStack n x).boot = s.boot ∧
    (s.setStack n x).host = s.host ∧ (s.setStack n x).readVal = s.readVal ∧ (s.setStack n x).waitSeq = s.waitSeq ∧
    (s.setStack n x).free = s.free ∧ (s.setStack n x).pending = s.pending :=
  by refine ⟨?_, ?_, ?_, ?_, ?_, ?_, ?_, ?_, ?_, ?_, ?_, ?_, ?_, ?_, ?_, ?_, ?_, ?_, ?_, ?_, ?_, ?_, ?_, ?_, ?_, ?_, ?_, ?_, ?_, ?_, ?_, ?_, ?_, ?_, ?_, ?_, ?_, ?_, ?_, ?_, ?_, ?_, ?_, ?_, ?_, ?_, ?_, ?_, ?_, ?_⟩ <;> rfl

@[simp] theorem State.setStack_reads (n : Nat) (x : Stack) :
    (∀ n, (s.setStack n x).ctx n = s.ctx n) ∧ (∀ n, (s.setStack n x).hart n = s.hart n) ∧
    (∀ n, (s.setStack n x).pan n = s.pan n) ∧ (∀ n, (s.setStack n x).sal n = s.sal n) ∧
    (∀ n, (s.setStack n x).vec n = s.vec n) ∧ (∀ n, (s.setStack n x).flag n = s.flag n) ∧
    (∀ n, (s.setStack n x).barrier n = s.barrier n) ∧ (∀ n, (s.setStack n x).credit n = s.credit n) ∧
    (∀ n, (s.setStack n x).link n = s.link n) ∧ (∀ n, (s.setStack n x).jobSlot n = s.jobSlot n) ∧
    (∀ n, (s.setStack n x).mac n = s.mac n) ∧ (∀ n, (s.setStack n x).fabric n = s.fabric n) ∧
    (∀ n, (s.setStack n x).die n = s.die n) ∧ (∀ n, (s.setStack n x).sensor n = s.sensor n) ∧
    (∀ e q, (s.setStack n x).ownerOf e q = s.ownerOf e q) ∧ (∀ e q, (s.setStack n x).run e q = s.run e q) ∧
    (∀ e q, (s.setStack n x).queue e q = s.queue e q) ∧ (∀ n, (s.setStack n x).bayCtx n = s.bayCtx n) ∧
    (∀ pg off, regGet (s.setStack n x) pg off = regGet s pg off) :=
  by refine ⟨?_, ?_, ?_, ?_, ?_, ?_, ?_, ?_, ?_, ?_, ?_, ?_, ?_, ?_, ?_, ?_, ?_, ?_, ?_⟩ <;> intros <;> rfl

@[simp] theorem State.setSensor_same (n : Nat) (x : Sensor) : (s.setSensor n x).sensor n = x :=
  tget_tset_same _ s.sensors n x

theorem State.setSensor_other {n i : Nat} (x : Sensor) (hi : i ≠ n) : (s.setSensor n x).sensor i = s.sensor i :=
  tget_tset_other _ _ s.sensors x hi

@[simp] theorem State.setSensor_fields (n : Nat) (x : Sensor) :
    (s.setSensor n x).regs = s.regs ∧ (s.setSensor n x).cnts = s.cnts ∧ (s.setSensor n x).ctxs = s.ctxs ∧
    (s.setSensor n x).quota = s.quota ∧ (s.setSensor n x).harts = s.harts ∧ (s.setSensor n x).tags = s.tags ∧
    (s.setSensor n x).owner = s.owner ∧ (s.setSensor n x).explicit = s.explicit ∧ (s.setSensor n x).grants = s.grants ∧
    (s.setSensor n x).queues = s.queues ∧ (s.setSensor n x).running = s.running ∧ (s.setSensor n x).rr = s.rr ∧
    (s.setSensor n x).pans = s.pans ∧ (s.setSensor n x).sals = s.sals ∧ (s.setSensor n x).vecs = s.vecs ∧
    (s.setSensor n x).mem = s.mem ∧ (s.setSensor n x).memTag = s.memTag ∧ (s.setSensor n x).flags = s.flags ∧
    (s.setSensor n x).barriers = s.barriers ∧ (s.setSensor n x).credits = s.credits ∧
    (s.setSensor n x).syncEvq = s.syncEvq ∧ (s.setSensor n x).nameFaults = s.nameFaults ∧
    (s.setSensor n x).dbgCtx = s.dbgCtx ∧ (s.setSensor n x).touched = s.touched ∧ (s.setSensor n x).lends = s.lends ∧
    (s.setSensor n x).links = s.links ∧ (s.setSensor n x).jobs = s.jobs ∧ (s.setSensor n x).rxXfers = s.rxXfers ∧
    (s.setSensor n x).txXfers = s.txXfers ∧ (s.setSensor n x).colls = s.colls ∧ (s.setSensor n x).macs = s.macs ∧
    (s.setSensor n x).fabrics = s.fabrics ∧ (s.setSensor n x).time = s.time ∧ (s.setSensor n x).dies = s.dies ∧
    (s.setSensor n x).gated = s.gated ∧ (s.setSensor n x).hbms = s.hbms ∧ (s.setSensor n x).sramScrub = s.sramScrub ∧
    (s.setSensor n x).ceil = s.ceil ∧ (s.setSensor n x).watts = s.watts ∧ (s.setSensor n x).amps = s.amps ∧
    (s.setSensor n x).meshFailed = s.meshFailed ∧ (s.setSensor n x).crossed = s.crossed ∧ (s.setSensor n x).sec = s.sec ∧
    (s.setSensor n x).svc = s.svc ∧ (s.setSensor n x).boot = s.boot ∧ (s.setSensor n x).host = s.host ∧
    (s.setSensor n x).readVal = s.readVal ∧ (s.setSensor n x).waitSeq = s.waitSeq ∧ (s.setSensor n x).free = s.free ∧
    (s.setSensor n x).pending = s.pending :=
  by refine ⟨?_, ?_, ?_, ?_, ?_, ?_, ?_, ?_, ?_, ?_, ?_, ?_, ?_, ?_, ?_, ?_, ?_, ?_, ?_, ?_, ?_, ?_, ?_, ?_, ?_, ?_, ?_, ?_, ?_, ?_, ?_, ?_, ?_, ?_, ?_, ?_, ?_, ?_, ?_, ?_, ?_, ?_, ?_, ?_, ?_, ?_, ?_, ?_, ?_, ?_⟩ <;> rfl

@[simp] theorem State.setSensor_reads (n : Nat) (x : Sensor) :
    (∀ n, (s.setSensor n x).ctx n = s.ctx n) ∧ (∀ n, (s.setSensor n x).hart n = s.hart n) ∧
    (∀ n, (s.setSensor n x).pan n = s.pan n) ∧ (∀ n, (s.setSensor n x).sal n = s.sal n) ∧
    (∀ n, (s.setSensor n x).vec n = s.vec n) ∧ (∀ n, (s.setSensor n x).flag n = s.flag n) ∧
    (∀ n, (s.setSensor n x).barrier n = s.barrier n) ∧ (∀ n, (s.setSensor n x).credit n = s.credit n) ∧
    (∀ n, (s.setSensor n x).link n = s.link n) ∧ (∀ n, (s.setSensor n x).jobSlot n = s.jobSlot n) ∧
    (∀ n, (s.setSensor n x).mac n = s.mac n) ∧ (∀ n, (s.setSensor n x).fabric n = s.fabric n) ∧
    (∀ n, (s.setSensor n x).die n = s.die n) ∧ (∀ n, (s.setSensor n x).stack n = s.stack n) ∧
    (∀ e q, (s.setSensor n x).ownerOf e q = s.ownerOf e q) ∧ (∀ e q, (s.setSensor n x).run e q = s.run e q) ∧
    (∀ e q, (s.setSensor n x).queue e q = s.queue e q) ∧ (∀ n, (s.setSensor n x).bayCtx n = s.bayCtx n) ∧
    (∀ pg off, regGet (s.setSensor n x) pg off = regGet s pg off) :=
  by refine ⟨?_, ?_, ?_, ?_, ?_, ?_, ?_, ?_, ?_, ?_, ?_, ?_, ?_, ?_, ?_, ?_, ?_, ?_, ?_⟩ <;> intros <;> rfl

@[simp] theorem State.setQueue_fields (e q : Nat) (l : List Op) :
    (s.setQueue e q l).regs = s.regs ∧ (s.setQueue e q l).cnts = s.cnts ∧ (s.setQueue e q l).ctxs = s.ctxs ∧
    (s.setQueue e q l).quota = s.quota ∧ (s.setQueue e q l).harts = s.harts ∧ (s.setQueue e q l).tags = s.tags ∧
    (s.setQueue e q l).owner = s.owner ∧ (s.setQueue e q l).explicit = s.explicit ∧ (s.setQueue e q l).grants = s.grants ∧
    (s.setQueue e q l).running = s.running ∧ (s.setQueue e q l).rr = s.rr ∧ (s.setQueue e q l).pans = s.pans ∧
    (s.setQueue e q l).sals = s.sals ∧ (s.setQueue e q l).vecs = s.vecs ∧ (s.setQueue e q l).mem = s.mem ∧
    (s.setQueue e q l).memTag = s.memTag ∧ (s.setQueue e q l).flags = s.flags ∧ (s.setQueue e q l).barriers = s.barriers ∧
    (s.setQueue e q l).credits = s.credits ∧ (s.setQueue e q l).syncEvq = s.syncEvq ∧
    (s.setQueue e q l).nameFaults = s.nameFaults ∧ (s.setQueue e q l).dbgCtx = s.dbgCtx ∧
    (s.setQueue e q l).touched = s.touched ∧ (s.setQueue e q l).lends = s.lends ∧ (s.setQueue e q l).links = s.links ∧
    (s.setQueue e q l).jobs = s.jobs ∧ (s.setQueue e q l).rxXfers = s.rxXfers ∧ (s.setQueue e q l).txXfers = s.txXfers ∧
    (s.setQueue e q l).colls = s.colls ∧ (s.setQueue e q l).macs = s.macs ∧ (s.setQueue e q l).fabrics = s.fabrics ∧
    (s.setQueue e q l).time = s.time ∧ (s.setQueue e q l).dies = s.dies ∧ (s.setQueue e q l).gated = s.gated ∧
    (s.setQueue e q l).sensors = s.sensors ∧ (s.setQueue e q l).hbms = s.hbms ∧ (s.setQueue e q l).sramScrub = s.sramScrub ∧
    (s.setQueue e q l).ceil = s.ceil ∧ (s.setQueue e q l).watts = s.watts ∧ (s.setQueue e q l).amps = s.amps ∧
    (s.setQueue e q l).meshFailed = s.meshFailed ∧ (s.setQueue e q l).crossed = s.crossed ∧ (s.setQueue e q l).sec = s.sec ∧
    (s.setQueue e q l).svc = s.svc ∧ (s.setQueue e q l).boot = s.boot ∧ (s.setQueue e q l).host = s.host ∧
    (s.setQueue e q l).readVal = s.readVal ∧ (s.setQueue e q l).waitSeq = s.waitSeq ∧ (s.setQueue e q l).free = s.free ∧
    (s.setQueue e q l).pending = s.pending :=
  by refine ⟨?_, ?_, ?_, ?_, ?_, ?_, ?_, ?_, ?_, ?_, ?_, ?_, ?_, ?_, ?_, ?_, ?_, ?_, ?_, ?_, ?_, ?_, ?_, ?_, ?_, ?_, ?_, ?_, ?_, ?_, ?_, ?_, ?_, ?_, ?_, ?_, ?_, ?_, ?_, ?_, ?_, ?_, ?_, ?_, ?_, ?_, ?_, ?_, ?_, ?_⟩ <;> rfl

@[simp] theorem State.setQueue_reads (e q : Nat) (l : List Op) :
    (∀ n, (s.setQueue e q l).ctx n = s.ctx n) ∧ (∀ n, (s.setQueue e q l).hart n = s.hart n) ∧
    (∀ n, (s.setQueue e q l).pan n = s.pan n) ∧ (∀ n, (s.setQueue e q l).sal n = s.sal n) ∧
    (∀ n, (s.setQueue e q l).vec n = s.vec n) ∧ (∀ n, (s.setQueue e q l).flag n = s.flag n) ∧
    (∀ n, (s.setQueue e q l).barrier n = s.barrier n) ∧ (∀ n, (s.setQueue e q l).credit n = s.credit n) ∧
    (∀ n, (s.setQueue e q l).link n = s.link n) ∧ (∀ n, (s.setQueue e q l).jobSlot n = s.jobSlot n) ∧
    (∀ n, (s.setQueue e q l).mac n = s.mac n) ∧ (∀ n, (s.setQueue e q l).fabric n = s.fabric n) ∧
    (∀ n, (s.setQueue e q l).die n = s.die n) ∧ (∀ n, (s.setQueue e q l).stack n = s.stack n) ∧
    (∀ n, (s.setQueue e q l).sensor n = s.sensor n) ∧ (∀ e q, (s.setQueue e q l).ownerOf e q = s.ownerOf e q) ∧
    (∀ e q, (s.setQueue e q l).run e q = s.run e q) ∧ (∀ n, (s.setQueue e q l).bayCtx n = s.bayCtx n) ∧
    (∀ pg off, regGet (s.setQueue e q l) pg off = regGet s pg off) :=
  by refine ⟨?_, ?_, ?_, ?_, ?_, ?_, ?_, ?_, ?_, ?_, ?_, ?_, ?_, ?_, ?_, ?_, ?_, ?_, ?_⟩ <;> intros <;> rfl

@[simp] theorem State.setRun_fields (e u : Nat) (o : Op) :
    (s.setRun e u o).regs = s.regs ∧ (s.setRun e u o).cnts = s.cnts ∧ (s.setRun e u o).ctxs = s.ctxs ∧
    (s.setRun e u o).quota = s.quota ∧ (s.setRun e u o).harts = s.harts ∧ (s.setRun e u o).tags = s.tags ∧
    (s.setRun e u o).owner = s.owner ∧ (s.setRun e u o).explicit = s.explicit ∧ (s.setRun e u o).grants = s.grants ∧
    (s.setRun e u o).queues = s.queues ∧ (s.setRun e u o).rr = s.rr ∧ (s.setRun e u o).pans = s.pans ∧
    (s.setRun e u o).sals = s.sals ∧ (s.setRun e u o).vecs = s.vecs ∧ (s.setRun e u o).mem = s.mem ∧
    (s.setRun e u o).memTag = s.memTag ∧ (s.setRun e u o).flags = s.flags ∧ (s.setRun e u o).barriers = s.barriers ∧
    (s.setRun e u o).credits = s.credits ∧ (s.setRun e u o).syncEvq = s.syncEvq ∧
    (s.setRun e u o).nameFaults = s.nameFaults ∧ (s.setRun e u o).dbgCtx = s.dbgCtx ∧ (s.setRun e u o).touched = s.touched ∧
    (s.setRun e u o).lends = s.lends ∧ (s.setRun e u o).links = s.links ∧ (s.setRun e u o).jobs = s.jobs ∧
    (s.setRun e u o).rxXfers = s.rxXfers ∧ (s.setRun e u o).txXfers = s.txXfers ∧ (s.setRun e u o).colls = s.colls ∧
    (s.setRun e u o).macs = s.macs ∧ (s.setRun e u o).fabrics = s.fabrics ∧ (s.setRun e u o).time = s.time ∧
    (s.setRun e u o).dies = s.dies ∧ (s.setRun e u o).gated = s.gated ∧ (s.setRun e u o).sensors = s.sensors ∧
    (s.setRun e u o).hbms = s.hbms ∧ (s.setRun e u o).sramScrub = s.sramScrub ∧ (s.setRun e u o).ceil = s.ceil ∧
    (s.setRun e u o).watts = s.watts ∧ (s.setRun e u o).amps = s.amps ∧ (s.setRun e u o).meshFailed = s.meshFailed ∧
    (s.setRun e u o).crossed = s.crossed ∧ (s.setRun e u o).sec = s.sec ∧ (s.setRun e u o).svc = s.svc ∧
    (s.setRun e u o).boot = s.boot ∧ (s.setRun e u o).host = s.host ∧ (s.setRun e u o).readVal = s.readVal ∧
    (s.setRun e u o).waitSeq = s.waitSeq ∧ (s.setRun e u o).free = s.free ∧ (s.setRun e u o).pending = s.pending :=
  by refine ⟨?_, ?_, ?_, ?_, ?_, ?_, ?_, ?_, ?_, ?_, ?_, ?_, ?_, ?_, ?_, ?_, ?_, ?_, ?_, ?_, ?_, ?_, ?_, ?_, ?_, ?_, ?_, ?_, ?_, ?_, ?_, ?_, ?_, ?_, ?_, ?_, ?_, ?_, ?_, ?_, ?_, ?_, ?_, ?_, ?_, ?_, ?_, ?_, ?_, ?_⟩ <;> rfl

@[simp] theorem State.setRun_reads (e u : Nat) (o : Op) :
    (∀ n, (s.setRun e u o).ctx n = s.ctx n) ∧ (∀ n, (s.setRun e u o).hart n = s.hart n) ∧
    (∀ n, (s.setRun e u o).pan n = s.pan n) ∧ (∀ n, (s.setRun e u o).sal n = s.sal n) ∧
    (∀ n, (s.setRun e u o).vec n = s.vec n) ∧ (∀ n, (s.setRun e u o).flag n = s.flag n) ∧
    (∀ n, (s.setRun e u o).barrier n = s.barrier n) ∧ (∀ n, (s.setRun e u o).credit n = s.credit n) ∧
    (∀ n, (s.setRun e u o).link n = s.link n) ∧ (∀ n, (s.setRun e u o).jobSlot n = s.jobSlot n) ∧
    (∀ n, (s.setRun e u o).mac n = s.mac n) ∧ (∀ n, (s.setRun e u o).fabric n = s.fabric n) ∧
    (∀ n, (s.setRun e u o).die n = s.die n) ∧ (∀ n, (s.setRun e u o).stack n = s.stack n) ∧
    (∀ n, (s.setRun e u o).sensor n = s.sensor n) ∧ (∀ e q, (s.setRun e u o).ownerOf e q = s.ownerOf e q) ∧
    (∀ e q, (s.setRun e u o).queue e q = s.queue e q) ∧ (∀ n, (s.setRun e u o).bayCtx n = s.bayCtx n) ∧
    (∀ pg off, regGet (s.setRun e u o) pg off = regGet s pg off) :=
  by refine ⟨?_, ?_, ?_, ?_, ?_, ?_, ?_, ?_, ?_, ?_, ?_, ?_, ?_, ?_, ?_, ?_, ?_, ?_, ?_⟩ <;> intros <;> rfl

@[simp] theorem State.clearRun_fields (e u : Nat) :
    (s.clearRun e u).regs = s.regs ∧ (s.clearRun e u).cnts = s.cnts ∧ (s.clearRun e u).ctxs = s.ctxs ∧
    (s.clearRun e u).quota = s.quota ∧ (s.clearRun e u).harts = s.harts ∧ (s.clearRun e u).tags = s.tags ∧
    (s.clearRun e u).owner = s.owner ∧ (s.clearRun e u).explicit = s.explicit ∧ (s.clearRun e u).grants = s.grants ∧
    (s.clearRun e u).queues = s.queues ∧ (s.clearRun e u).rr = s.rr ∧ (s.clearRun e u).pans = s.pans ∧
    (s.clearRun e u).sals = s.sals ∧ (s.clearRun e u).vecs = s.vecs ∧ (s.clearRun e u).mem = s.mem ∧
    (s.clearRun e u).memTag = s.memTag ∧ (s.clearRun e u).flags = s.flags ∧ (s.clearRun e u).barriers = s.barriers ∧
    (s.clearRun e u).credits = s.credits ∧ (s.clearRun e u).syncEvq = s.syncEvq ∧
    (s.clearRun e u).nameFaults = s.nameFaults ∧ (s.clearRun e u).dbgCtx = s.dbgCtx ∧ (s.clearRun e u).touched = s.touched ∧
    (s.clearRun e u).lends = s.lends ∧ (s.clearRun e u).links = s.links ∧ (s.clearRun e u).jobs = s.jobs ∧
    (s.clearRun e u).rxXfers = s.rxXfers ∧ (s.clearRun e u).txXfers = s.txXfers ∧ (s.clearRun e u).colls = s.colls ∧
    (s.clearRun e u).macs = s.macs ∧ (s.clearRun e u).fabrics = s.fabrics ∧ (s.clearRun e u).time = s.time ∧
    (s.clearRun e u).dies = s.dies ∧ (s.clearRun e u).gated = s.gated ∧ (s.clearRun e u).sensors = s.sensors ∧
    (s.clearRun e u).hbms = s.hbms ∧ (s.clearRun e u).sramScrub = s.sramScrub ∧ (s.clearRun e u).ceil = s.ceil ∧
    (s.clearRun e u).watts = s.watts ∧ (s.clearRun e u).amps = s.amps ∧ (s.clearRun e u).meshFailed = s.meshFailed ∧
    (s.clearRun e u).crossed = s.crossed ∧ (s.clearRun e u).sec = s.sec ∧ (s.clearRun e u).svc = s.svc ∧
    (s.clearRun e u).boot = s.boot ∧ (s.clearRun e u).host = s.host ∧ (s.clearRun e u).readVal = s.readVal ∧
    (s.clearRun e u).waitSeq = s.waitSeq ∧ (s.clearRun e u).free = s.free ∧ (s.clearRun e u).pending = s.pending :=
  by refine ⟨?_, ?_, ?_, ?_, ?_, ?_, ?_, ?_, ?_, ?_, ?_, ?_, ?_, ?_, ?_, ?_, ?_, ?_, ?_, ?_, ?_, ?_, ?_, ?_, ?_, ?_, ?_, ?_, ?_, ?_, ?_, ?_, ?_, ?_, ?_, ?_, ?_, ?_, ?_, ?_, ?_, ?_, ?_, ?_, ?_, ?_, ?_, ?_, ?_, ?_⟩ <;> rfl

@[simp] theorem State.clearRun_reads (e u : Nat) :
    (∀ n, (s.clearRun e u).ctx n = s.ctx n) ∧ (∀ n, (s.clearRun e u).hart n = s.hart n) ∧
    (∀ n, (s.clearRun e u).pan n = s.pan n) ∧ (∀ n, (s.clearRun e u).sal n = s.sal n) ∧
    (∀ n, (s.clearRun e u).vec n = s.vec n) ∧ (∀ n, (s.clearRun e u).flag n = s.flag n) ∧
    (∀ n, (s.clearRun e u).barrier n = s.barrier n) ∧ (∀ n, (s.clearRun e u).credit n = s.credit n) ∧
    (∀ n, (s.clearRun e u).link n = s.link n) ∧ (∀ n, (s.clearRun e u).jobSlot n = s.jobSlot n) ∧
    (∀ n, (s.clearRun e u).mac n = s.mac n) ∧ (∀ n, (s.clearRun e u).fabric n = s.fabric n) ∧
    (∀ n, (s.clearRun e u).die n = s.die n) ∧ (∀ n, (s.clearRun e u).stack n = s.stack n) ∧
    (∀ n, (s.clearRun e u).sensor n = s.sensor n) ∧ (∀ e q, (s.clearRun e u).ownerOf e q = s.ownerOf e q) ∧
    (∀ e q, (s.clearRun e u).queue e q = s.queue e q) ∧ (∀ n, (s.clearRun e u).bayCtx n = s.bayCtx n) ∧
    (∀ pg off, regGet (s.clearRun e u) pg off = regGet s pg off) :=
  by refine ⟨?_, ?_, ?_, ?_, ?_, ?_, ?_, ?_, ?_, ?_, ?_, ?_, ?_, ?_, ?_, ?_, ?_, ?_, ?_⟩ <;> intros <;> rfl

@[simp] theorem State.setRaw_fields (a : Nat) (bs : List Byte) :
    (s.setRaw a bs).regs = s.regs ∧ (s.setRaw a bs).cnts = s.cnts ∧ (s.setRaw a bs).ctxs = s.ctxs ∧
    (s.setRaw a bs).quota = s.quota ∧ (s.setRaw a bs).harts = s.harts ∧ (s.setRaw a bs).tags = s.tags ∧
    (s.setRaw a bs).owner = s.owner ∧ (s.setRaw a bs).explicit = s.explicit ∧ (s.setRaw a bs).grants = s.grants ∧
    (s.setRaw a bs).queues = s.queues ∧ (s.setRaw a bs).running = s.running ∧ (s.setRaw a bs).rr = s.rr ∧
    (s.setRaw a bs).pans = s.pans ∧ (s.setRaw a bs).sals = s.sals ∧ (s.setRaw a bs).vecs = s.vecs ∧
    (s.setRaw a bs).memTag = s.memTag ∧ (s.setRaw a bs).flags = s.flags ∧ (s.setRaw a bs).barriers = s.barriers ∧
    (s.setRaw a bs).credits = s.credits ∧ (s.setRaw a bs).syncEvq = s.syncEvq ∧ (s.setRaw a bs).nameFaults = s.nameFaults ∧
    (s.setRaw a bs).dbgCtx = s.dbgCtx ∧ (s.setRaw a bs).touched = s.touched ∧ (s.setRaw a bs).lends = s.lends ∧
    (s.setRaw a bs).links = s.links ∧ (s.setRaw a bs).jobs = s.jobs ∧ (s.setRaw a bs).rxXfers = s.rxXfers ∧
    (s.setRaw a bs).txXfers = s.txXfers ∧ (s.setRaw a bs).colls = s.colls ∧ (s.setRaw a bs).macs = s.macs ∧
    (s.setRaw a bs).fabrics = s.fabrics ∧ (s.setRaw a bs).time = s.time ∧ (s.setRaw a bs).dies = s.dies ∧
    (s.setRaw a bs).gated = s.gated ∧ (s.setRaw a bs).sensors = s.sensors ∧ (s.setRaw a bs).hbms = s.hbms ∧
    (s.setRaw a bs).sramScrub = s.sramScrub ∧ (s.setRaw a bs).ceil = s.ceil ∧ (s.setRaw a bs).watts = s.watts ∧
    (s.setRaw a bs).amps = s.amps ∧ (s.setRaw a bs).meshFailed = s.meshFailed ∧ (s.setRaw a bs).crossed = s.crossed ∧
    (s.setRaw a bs).sec = s.sec ∧ (s.setRaw a bs).svc = s.svc ∧ (s.setRaw a bs).boot = s.boot ∧
    (s.setRaw a bs).host = s.host ∧ (s.setRaw a bs).readVal = s.readVal ∧ (s.setRaw a bs).waitSeq = s.waitSeq ∧
    (s.setRaw a bs).free = s.free ∧ (s.setRaw a bs).pending = s.pending :=
  by refine ⟨?_, ?_, ?_, ?_, ?_, ?_, ?_, ?_, ?_, ?_, ?_, ?_, ?_, ?_, ?_, ?_, ?_, ?_, ?_, ?_, ?_, ?_, ?_, ?_, ?_, ?_, ?_, ?_, ?_, ?_, ?_, ?_, ?_, ?_, ?_, ?_, ?_, ?_, ?_, ?_, ?_, ?_, ?_, ?_, ?_, ?_, ?_, ?_, ?_, ?_⟩ <;> rfl

@[simp] theorem State.setRaw_reads (a : Nat) (bs : List Byte) :
    (∀ n, (s.setRaw a bs).ctx n = s.ctx n) ∧ (∀ n, (s.setRaw a bs).hart n = s.hart n) ∧
    (∀ n, (s.setRaw a bs).pan n = s.pan n) ∧ (∀ n, (s.setRaw a bs).sal n = s.sal n) ∧
    (∀ n, (s.setRaw a bs).vec n = s.vec n) ∧ (∀ n, (s.setRaw a bs).flag n = s.flag n) ∧
    (∀ n, (s.setRaw a bs).barrier n = s.barrier n) ∧ (∀ n, (s.setRaw a bs).credit n = s.credit n) ∧
    (∀ n, (s.setRaw a bs).link n = s.link n) ∧ (∀ n, (s.setRaw a bs).jobSlot n = s.jobSlot n) ∧
    (∀ n, (s.setRaw a bs).mac n = s.mac n) ∧ (∀ n, (s.setRaw a bs).fabric n = s.fabric n) ∧
    (∀ n, (s.setRaw a bs).die n = s.die n) ∧ (∀ n, (s.setRaw a bs).stack n = s.stack n) ∧
    (∀ n, (s.setRaw a bs).sensor n = s.sensor n) ∧ (∀ e q, (s.setRaw a bs).ownerOf e q = s.ownerOf e q) ∧
    (∀ e q, (s.setRaw a bs).run e q = s.run e q) ∧ (∀ e q, (s.setRaw a bs).queue e q = s.queue e q) ∧
    (∀ n, (s.setRaw a bs).bayCtx n = s.bayCtx n) ∧ (∀ pg off, regGet (s.setRaw a bs) pg off = regGet s pg off) :=
  by refine ⟨?_, ?_, ?_, ?_, ?_, ?_, ?_, ?_, ?_, ?_, ?_, ?_, ?_, ?_, ?_, ?_, ?_, ?_, ?_, ?_⟩ <;> intros <;> rfl

@[simp] theorem regPut_fields (p o : Nat) (v : Word) :
    (regPut s p o v).cnts = s.cnts ∧ (regPut s p o v).ctxs = s.ctxs ∧ (regPut s p o v).quota = s.quota ∧
    (regPut s p o v).harts = s.harts ∧ (regPut s p o v).tags = s.tags ∧ (regPut s p o v).owner = s.owner ∧
    (regPut s p o v).explicit = s.explicit ∧ (regPut s p o v).grants = s.grants ∧ (regPut s p o v).queues = s.queues ∧
    (regPut s p o v).running = s.running ∧ (regPut s p o v).rr = s.rr ∧ (regPut s p o v).pans = s.pans ∧
    (regPut s p o v).sals = s.sals ∧ (regPut s p o v).vecs = s.vecs ∧ (regPut s p o v).mem = s.mem ∧
    (regPut s p o v).memTag = s.memTag ∧ (regPut s p o v).flags = s.flags ∧ (regPut s p o v).barriers = s.barriers ∧
    (regPut s p o v).credits = s.credits ∧ (regPut s p o v).syncEvq = s.syncEvq ∧
    (regPut s p o v).nameFaults = s.nameFaults ∧ (regPut s p o v).dbgCtx = s.dbgCtx ∧ (regPut s p o v).touched = s.touched ∧
    (regPut s p o v).lends = s.lends ∧ (regPut s p o v).links = s.links ∧ (regPut s p o v).jobs = s.jobs ∧
    (regPut s p o v).rxXfers = s.rxXfers ∧ (regPut s p o v).txXfers = s.txXfers ∧ (regPut s p o v).colls = s.colls ∧
    (regPut s p o v).macs = s.macs ∧ (regPut s p o v).fabrics = s.fabrics ∧ (regPut s p o v).time = s.time ∧
    (regPut s p o v).dies = s.dies ∧ (regPut s p o v).gated = s.gated ∧ (regPut s p o v).sensors = s.sensors ∧
    (regPut s p o v).hbms = s.hbms ∧ (regPut s p o v).sramScrub = s.sramScrub ∧ (regPut s p o v).ceil = s.ceil ∧
    (regPut s p o v).watts = s.watts ∧ (regPut s p o v).amps = s.amps ∧ (regPut s p o v).meshFailed = s.meshFailed ∧
    (regPut s p o v).crossed = s.crossed ∧ (regPut s p o v).sec = s.sec ∧ (regPut s p o v).svc = s.svc ∧
    (regPut s p o v).boot = s.boot ∧ (regPut s p o v).host = s.host ∧ (regPut s p o v).readVal = s.readVal ∧
    (regPut s p o v).waitSeq = s.waitSeq ∧ (regPut s p o v).free = s.free ∧ (regPut s p o v).pending = s.pending :=
  by refine ⟨?_, ?_, ?_, ?_, ?_, ?_, ?_, ?_, ?_, ?_, ?_, ?_, ?_, ?_, ?_, ?_, ?_, ?_, ?_, ?_, ?_, ?_, ?_, ?_, ?_, ?_, ?_, ?_, ?_, ?_, ?_, ?_, ?_, ?_, ?_, ?_, ?_, ?_, ?_, ?_, ?_, ?_, ?_, ?_, ?_, ?_, ?_, ?_, ?_, ?_⟩ <;> rfl

@[simp] theorem regPut_reads (p o : Nat) (v : Word) :
    (∀ n, (regPut s p o v).ctx n = s.ctx n) ∧ (∀ n, (regPut s p o v).hart n = s.hart n) ∧
    (∀ n, (regPut s p o v).pan n = s.pan n) ∧ (∀ n, (regPut s p o v).sal n = s.sal n) ∧
    (∀ n, (regPut s p o v).vec n = s.vec n) ∧ (∀ n, (regPut s p o v).flag n = s.flag n) ∧
    (∀ n, (regPut s p o v).barrier n = s.barrier n) ∧ (∀ n, (regPut s p o v).credit n = s.credit n) ∧
    (∀ n, (regPut s p o v).link n = s.link n) ∧ (∀ n, (regPut s p o v).jobSlot n = s.jobSlot n) ∧
    (∀ n, (regPut s p o v).mac n = s.mac n) ∧ (∀ n, (regPut s p o v).fabric n = s.fabric n) ∧
    (∀ n, (regPut s p o v).die n = s.die n) ∧ (∀ n, (regPut s p o v).stack n = s.stack n) ∧
    (∀ n, (regPut s p o v).sensor n = s.sensor n) ∧ (∀ e q, (regPut s p o v).ownerOf e q = s.ownerOf e q) ∧
    (∀ e q, (regPut s p o v).run e q = s.run e q) ∧ (∀ e q, (regPut s p o v).queue e q = s.queue e q) ∧
    (∀ n, (regPut s p o v).bayCtx n = s.bayCtx n) :=
  by refine ⟨?_, ?_, ?_, ?_, ?_, ?_, ?_, ?_, ?_, ?_, ?_, ?_, ?_, ?_, ?_, ?_, ?_, ?_, ?_⟩ <;> intros <;> rfl

@[simp] theorem State.cross_fields (a b : Nat) :
    (s.cross a b).regs = s.regs ∧ (s.cross a b).cnts = s.cnts ∧ (s.cross a b).ctxs = s.ctxs ∧
    (s.cross a b).quota = s.quota ∧ (s.cross a b).harts = s.harts ∧ (s.cross a b).tags = s.tags ∧
    (s.cross a b).owner = s.owner ∧ (s.cross a b).explicit = s.explicit ∧ (s.cross a b).grants = s.grants ∧
    (s.cross a b).queues = s.queues ∧ (s.cross a b).running = s.running ∧ (s.cross a b).rr = s.rr ∧
    (s.cross a b).pans = s.pans ∧ (s.cross a b).sals = s.sals ∧ (s.cross a b).vecs = s.vecs ∧ (s.cross a b).mem = s.mem ∧
    (s.cross a b).memTag = s.memTag ∧ (s.cross a b).flags = s.flags ∧ (s.cross a b).barriers = s.barriers ∧
    (s.cross a b).credits = s.credits ∧ (s.cross a b).syncEvq = s.syncEvq ∧ (s.cross a b).nameFaults = s.nameFaults ∧
    (s.cross a b).dbgCtx = s.dbgCtx ∧ (s.cross a b).touched = s.touched ∧ (s.cross a b).lends = s.lends ∧
    (s.cross a b).links = s.links ∧ (s.cross a b).jobs = s.jobs ∧ (s.cross a b).rxXfers = s.rxXfers ∧
    (s.cross a b).txXfers = s.txXfers ∧ (s.cross a b).colls = s.colls ∧ (s.cross a b).macs = s.macs ∧
    (s.cross a b).fabrics = s.fabrics ∧ (s.cross a b).time = s.time ∧ (s.cross a b).dies = s.dies ∧
    (s.cross a b).gated = s.gated ∧ (s.cross a b).sensors = s.sensors ∧ (s.cross a b).hbms = s.hbms ∧
    (s.cross a b).sramScrub = s.sramScrub ∧ (s.cross a b).ceil = s.ceil ∧ (s.cross a b).watts = s.watts ∧
    (s.cross a b).amps = s.amps ∧ (s.cross a b).meshFailed = s.meshFailed ∧ (s.cross a b).sec = s.sec ∧
    (s.cross a b).svc = s.svc ∧ (s.cross a b).boot = s.boot ∧ (s.cross a b).host = s.host ∧
    (s.cross a b).readVal = s.readVal ∧ (s.cross a b).waitSeq = s.waitSeq ∧ (s.cross a b).free = s.free ∧
    (s.cross a b).pending = s.pending :=
  by refine ⟨?_, ?_, ?_, ?_, ?_, ?_, ?_, ?_, ?_, ?_, ?_, ?_, ?_, ?_, ?_, ?_, ?_, ?_, ?_, ?_, ?_, ?_, ?_, ?_, ?_, ?_, ?_, ?_, ?_, ?_, ?_, ?_, ?_, ?_, ?_, ?_, ?_, ?_, ?_, ?_, ?_, ?_, ?_, ?_, ?_, ?_, ?_, ?_, ?_, ?_⟩ <;> rfl

@[simp] theorem State.cross_reads (a b : Nat) :
    (∀ n, (s.cross a b).ctx n = s.ctx n) ∧ (∀ n, (s.cross a b).hart n = s.hart n) ∧ (∀ n, (s.cross a b).pan n = s.pan n) ∧
    (∀ n, (s.cross a b).sal n = s.sal n) ∧ (∀ n, (s.cross a b).vec n = s.vec n) ∧ (∀ n, (s.cross a b).flag n = s.flag n) ∧
    (∀ n, (s.cross a b).barrier n = s.barrier n) ∧ (∀ n, (s.cross a b).credit n = s.credit n) ∧
    (∀ n, (s.cross a b).link n = s.link n) ∧ (∀ n, (s.cross a b).jobSlot n = s.jobSlot n) ∧
    (∀ n, (s.cross a b).mac n = s.mac n) ∧ (∀ n, (s.cross a b).fabric n = s.fabric n) ∧
    (∀ n, (s.cross a b).die n = s.die n) ∧ (∀ n, (s.cross a b).stack n = s.stack n) ∧
    (∀ n, (s.cross a b).sensor n = s.sensor n) ∧ (∀ e q, (s.cross a b).ownerOf e q = s.ownerOf e q) ∧
    (∀ e q, (s.cross a b).run e q = s.run e q) ∧ (∀ e q, (s.cross a b).queue e q = s.queue e q) ∧
    (∀ n, (s.cross a b).bayCtx n = s.bayCtx n) ∧ (∀ pg off, regGet (s.cross a b) pg off = regGet s pg off) :=
  by refine ⟨?_, ?_, ?_, ?_, ?_, ?_, ?_, ?_, ?_, ?_, ?_, ?_, ?_, ?_, ?_, ?_, ?_, ?_, ?_, ?_⟩ <;> intros <;> rfl

@[simp] theorem State.setTime_same (t : TimeUnit) : (s.setTime t).time = t := rfl

@[simp] theorem State.setTime_fields (t : TimeUnit) :
    (s.setTime t).regs = s.regs ∧ (s.setTime t).cnts = s.cnts ∧ (s.setTime t).ctxs = s.ctxs ∧
    (s.setTime t).quota = s.quota ∧ (s.setTime t).harts = s.harts ∧ (s.setTime t).tags = s.tags ∧
    (s.setTime t).owner = s.owner ∧ (s.setTime t).explicit = s.explicit ∧ (s.setTime t).grants = s.grants ∧
    (s.setTime t).queues = s.queues ∧ (s.setTime t).running = s.running ∧ (s.setTime t).rr = s.rr ∧
    (s.setTime t).pans = s.pans ∧ (s.setTime t).sals = s.sals ∧ (s.setTime t).vecs = s.vecs ∧ (s.setTime t).mem = s.mem ∧
    (s.setTime t).memTag = s.memTag ∧ (s.setTime t).flags = s.flags ∧ (s.setTime t).barriers = s.barriers ∧
    (s.setTime t).credits = s.credits ∧ (s.setTime t).syncEvq = s.syncEvq ∧ (s.setTime t).nameFaults = s.nameFaults ∧
    (s.setTime t).dbgCtx = s.dbgCtx ∧ (s.setTime t).touched = s.touched ∧ (s.setTime t).lends = s.lends ∧
    (s.setTime t).links = s.links ∧ (s.setTime t).jobs = s.jobs ∧ (s.setTime t).rxXfers = s.rxXfers ∧
    (s.setTime t).txXfers = s.txXfers ∧ (s.setTime t).colls = s.colls ∧ (s.setTime t).macs = s.macs ∧
    (s.setTime t).fabrics = s.fabrics ∧ (s.setTime t).dies = s.dies ∧ (s.setTime t).gated = s.gated ∧
    (s.setTime t).sensors = s.sensors ∧ (s.setTime t).hbms = s.hbms ∧ (s.setTime t).sramScrub = s.sramScrub ∧
    (s.setTime t).ceil = s.ceil ∧ (s.setTime t).watts = s.watts ∧ (s.setTime t).amps = s.amps ∧
    (s.setTime t).meshFailed = s.meshFailed ∧ (s.setTime t).crossed = s.crossed ∧ (s.setTime t).sec = s.sec ∧
    (s.setTime t).svc = s.svc ∧ (s.setTime t).boot = s.boot ∧ (s.setTime t).host = s.host ∧
    (s.setTime t).readVal = s.readVal ∧ (s.setTime t).waitSeq = s.waitSeq ∧ (s.setTime t).free = s.free ∧
    (s.setTime t).pending = s.pending :=
  by refine ⟨?_, ?_, ?_, ?_, ?_, ?_, ?_, ?_, ?_, ?_, ?_, ?_, ?_, ?_, ?_, ?_, ?_, ?_, ?_, ?_, ?_, ?_, ?_, ?_, ?_, ?_, ?_, ?_, ?_, ?_, ?_, ?_, ?_, ?_, ?_, ?_, ?_, ?_, ?_, ?_, ?_, ?_, ?_, ?_, ?_, ?_, ?_, ?_, ?_, ?_⟩ <;> rfl

@[simp] theorem State.setTime_reads (t : TimeUnit) :
    (∀ n, (s.setTime t).ctx n = s.ctx n) ∧ (∀ n, (s.setTime t).hart n = s.hart n) ∧ (∀ n, (s.setTime t).pan n = s.pan n) ∧
    (∀ n, (s.setTime t).sal n = s.sal n) ∧ (∀ n, (s.setTime t).vec n = s.vec n) ∧ (∀ n, (s.setTime t).flag n = s.flag n) ∧
    (∀ n, (s.setTime t).barrier n = s.barrier n) ∧ (∀ n, (s.setTime t).credit n = s.credit n) ∧
    (∀ n, (s.setTime t).link n = s.link n) ∧ (∀ n, (s.setTime t).jobSlot n = s.jobSlot n) ∧
    (∀ n, (s.setTime t).mac n = s.mac n) ∧ (∀ n, (s.setTime t).fabric n = s.fabric n) ∧
    (∀ n, (s.setTime t).die n = s.die n) ∧ (∀ n, (s.setTime t).stack n = s.stack n) ∧
    (∀ n, (s.setTime t).sensor n = s.sensor n) ∧ (∀ e q, (s.setTime t).ownerOf e q = s.ownerOf e q) ∧
    (∀ e q, (s.setTime t).run e q = s.run e q) ∧ (∀ e q, (s.setTime t).queue e q = s.queue e q) ∧
    (∀ n, (s.setTime t).bayCtx n = s.bayCtx n) ∧ (∀ pg off, regGet (s.setTime t) pg off = regGet s pg off) :=
  by refine ⟨?_, ?_, ?_, ?_, ?_, ?_, ?_, ?_, ?_, ?_, ?_, ?_, ?_, ?_, ?_, ?_, ?_, ?_, ?_, ?_⟩ <;> intros <;> rfl

@[simp] theorem State.setBoot_same (b : Boot) : (s.setBoot b).boot = b := rfl

@[simp] theorem State.setBoot_fields (b : Boot) :
    (s.setBoot b).regs = s.regs ∧ (s.setBoot b).cnts = s.cnts ∧ (s.setBoot b).ctxs = s.ctxs ∧
    (s.setBoot b).quota = s.quota ∧ (s.setBoot b).harts = s.harts ∧ (s.setBoot b).tags = s.tags ∧
    (s.setBoot b).owner = s.owner ∧ (s.setBoot b).explicit = s.explicit ∧ (s.setBoot b).grants = s.grants ∧
    (s.setBoot b).queues = s.queues ∧ (s.setBoot b).running = s.running ∧ (s.setBoot b).rr = s.rr ∧
    (s.setBoot b).pans = s.pans ∧ (s.setBoot b).sals = s.sals ∧ (s.setBoot b).vecs = s.vecs ∧ (s.setBoot b).mem = s.mem ∧
    (s.setBoot b).memTag = s.memTag ∧ (s.setBoot b).flags = s.flags ∧ (s.setBoot b).barriers = s.barriers ∧
    (s.setBoot b).credits = s.credits ∧ (s.setBoot b).syncEvq = s.syncEvq ∧ (s.setBoot b).nameFaults = s.nameFaults ∧
    (s.setBoot b).dbgCtx = s.dbgCtx ∧ (s.setBoot b).touched = s.touched ∧ (s.setBoot b).lends = s.lends ∧
    (s.setBoot b).links = s.links ∧ (s.setBoot b).jobs = s.jobs ∧ (s.setBoot b).rxXfers = s.rxXfers ∧
    (s.setBoot b).txXfers = s.txXfers ∧ (s.setBoot b).colls = s.colls ∧ (s.setBoot b).macs = s.macs ∧
    (s.setBoot b).fabrics = s.fabrics ∧ (s.setBoot b).time = s.time ∧ (s.setBoot b).dies = s.dies ∧
    (s.setBoot b).gated = s.gated ∧ (s.setBoot b).sensors = s.sensors ∧ (s.setBoot b).hbms = s.hbms ∧
    (s.setBoot b).sramScrub = s.sramScrub ∧ (s.setBoot b).ceil = s.ceil ∧ (s.setBoot b).watts = s.watts ∧
    (s.setBoot b).amps = s.amps ∧ (s.setBoot b).meshFailed = s.meshFailed ∧ (s.setBoot b).crossed = s.crossed ∧
    (s.setBoot b).sec = s.sec ∧ (s.setBoot b).svc = s.svc ∧ (s.setBoot b).host = s.host ∧
    (s.setBoot b).readVal = s.readVal ∧ (s.setBoot b).waitSeq = s.waitSeq ∧ (s.setBoot b).free = s.free ∧
    (s.setBoot b).pending = s.pending :=
  by refine ⟨?_, ?_, ?_, ?_, ?_, ?_, ?_, ?_, ?_, ?_, ?_, ?_, ?_, ?_, ?_, ?_, ?_, ?_, ?_, ?_, ?_, ?_, ?_, ?_, ?_, ?_, ?_, ?_, ?_, ?_, ?_, ?_, ?_, ?_, ?_, ?_, ?_, ?_, ?_, ?_, ?_, ?_, ?_, ?_, ?_, ?_, ?_, ?_, ?_, ?_⟩ <;> rfl

@[simp] theorem State.setBoot_reads (b : Boot) :
    (∀ n, (s.setBoot b).ctx n = s.ctx n) ∧ (∀ n, (s.setBoot b).hart n = s.hart n) ∧ (∀ n, (s.setBoot b).pan n = s.pan n) ∧
    (∀ n, (s.setBoot b).sal n = s.sal n) ∧ (∀ n, (s.setBoot b).vec n = s.vec n) ∧ (∀ n, (s.setBoot b).flag n = s.flag n) ∧
    (∀ n, (s.setBoot b).barrier n = s.barrier n) ∧ (∀ n, (s.setBoot b).credit n = s.credit n) ∧
    (∀ n, (s.setBoot b).link n = s.link n) ∧ (∀ n, (s.setBoot b).jobSlot n = s.jobSlot n) ∧
    (∀ n, (s.setBoot b).mac n = s.mac n) ∧ (∀ n, (s.setBoot b).fabric n = s.fabric n) ∧
    (∀ n, (s.setBoot b).die n = s.die n) ∧ (∀ n, (s.setBoot b).stack n = s.stack n) ∧
    (∀ n, (s.setBoot b).sensor n = s.sensor n) ∧ (∀ e q, (s.setBoot b).ownerOf e q = s.ownerOf e q) ∧
    (∀ e q, (s.setBoot b).run e q = s.run e q) ∧ (∀ e q, (s.setBoot b).queue e q = s.queue e q) ∧
    (∀ n, (s.setBoot b).bayCtx n = s.bayCtx n) ∧ (∀ pg off, regGet (s.setBoot b) pg off = regGet s pg off) :=
  by refine ⟨?_, ?_, ?_, ?_, ?_, ?_, ?_, ?_, ?_, ?_, ?_, ?_, ?_, ?_, ?_, ?_, ?_, ?_, ?_, ?_⟩ <;> intros <;> rfl

@[simp] theorem State.setSec_same (x : Sec) : (s.setSec x).sec = x := rfl

@[simp] theorem State.setSec_fields (x : Sec) :
    (s.setSec x).regs = s.regs ∧ (s.setSec x).cnts = s.cnts ∧ (s.setSec x).ctxs = s.ctxs ∧ (s.setSec x).quota = s.quota ∧
    (s.setSec x).harts = s.harts ∧ (s.setSec x).tags = s.tags ∧ (s.setSec x).owner = s.owner ∧
    (s.setSec x).explicit = s.explicit ∧ (s.setSec x).grants = s.grants ∧ (s.setSec x).queues = s.queues ∧
    (s.setSec x).running = s.running ∧ (s.setSec x).rr = s.rr ∧ (s.setSec x).pans = s.pans ∧ (s.setSec x).sals = s.sals ∧
    (s.setSec x).vecs = s.vecs ∧ (s.setSec x).mem = s.mem ∧ (s.setSec x).memTag = s.memTag ∧ (s.setSec x).flags = s.flags ∧
    (s.setSec x).barriers = s.barriers ∧ (s.setSec x).credits = s.credits ∧ (s.setSec x).syncEvq = s.syncEvq ∧
    (s.setSec x).nameFaults = s.nameFaults ∧ (s.setSec x).dbgCtx = s.dbgCtx ∧ (s.setSec x).touched = s.touched ∧
    (s.setSec x).lends = s.lends ∧ (s.setSec x).links = s.links ∧ (s.setSec x).jobs = s.jobs ∧
    (s.setSec x).rxXfers = s.rxXfers ∧ (s.setSec x).txXfers = s.txXfers ∧ (s.setSec x).colls = s.colls ∧
    (s.setSec x).macs = s.macs ∧ (s.setSec x).fabrics = s.fabrics ∧ (s.setSec x).time = s.time ∧
    (s.setSec x).dies = s.dies ∧ (s.setSec x).gated = s.gated ∧ (s.setSec x).sensors = s.sensors ∧
    (s.setSec x).hbms = s.hbms ∧ (s.setSec x).sramScrub = s.sramScrub ∧ (s.setSec x).ceil = s.ceil ∧
    (s.setSec x).watts = s.watts ∧ (s.setSec x).amps = s.amps ∧ (s.setSec x).meshFailed = s.meshFailed ∧
    (s.setSec x).crossed = s.crossed ∧ (s.setSec x).svc = s.svc ∧ (s.setSec x).boot = s.boot ∧ (s.setSec x).host = s.host ∧
    (s.setSec x).readVal = s.readVal ∧ (s.setSec x).waitSeq = s.waitSeq ∧ (s.setSec x).free = s.free ∧
    (s.setSec x).pending = s.pending :=
  by refine ⟨?_, ?_, ?_, ?_, ?_, ?_, ?_, ?_, ?_, ?_, ?_, ?_, ?_, ?_, ?_, ?_, ?_, ?_, ?_, ?_, ?_, ?_, ?_, ?_, ?_, ?_, ?_, ?_, ?_, ?_, ?_, ?_, ?_, ?_, ?_, ?_, ?_, ?_, ?_, ?_, ?_, ?_, ?_, ?_, ?_, ?_, ?_, ?_, ?_, ?_⟩ <;> rfl

@[simp] theorem State.setSec_reads (x : Sec) :
    (∀ n, (s.setSec x).ctx n = s.ctx n) ∧ (∀ n, (s.setSec x).hart n = s.hart n) ∧ (∀ n, (s.setSec x).pan n = s.pan n) ∧
    (∀ n, (s.setSec x).sal n = s.sal n) ∧ (∀ n, (s.setSec x).vec n = s.vec n) ∧ (∀ n, (s.setSec x).flag n = s.flag n) ∧
    (∀ n, (s.setSec x).barrier n = s.barrier n) ∧ (∀ n, (s.setSec x).credit n = s.credit n) ∧
    (∀ n, (s.setSec x).link n = s.link n) ∧ (∀ n, (s.setSec x).jobSlot n = s.jobSlot n) ∧
    (∀ n, (s.setSec x).mac n = s.mac n) ∧ (∀ n, (s.setSec x).fabric n = s.fabric n) ∧ (∀ n, (s.setSec x).die n = s.die n) ∧
    (∀ n, (s.setSec x).stack n = s.stack n) ∧ (∀ n, (s.setSec x).sensor n = s.sensor n) ∧
    (∀ e q, (s.setSec x).ownerOf e q = s.ownerOf e q) ∧ (∀ e q, (s.setSec x).run e q = s.run e q) ∧
    (∀ e q, (s.setSec x).queue e q = s.queue e q) ∧ (∀ n, (s.setSec x).bayCtx n = s.bayCtx n) ∧
    (∀ pg off, regGet (s.setSec x) pg off = regGet s pg off) :=
  by refine ⟨?_, ?_, ?_, ?_, ?_, ?_, ?_, ?_, ?_, ?_, ?_, ?_, ?_, ?_, ?_, ?_, ?_, ?_, ?_, ?_⟩ <;> intros <;> rfl

@[simp] theorem State.setSvc_same (x : Svc) : (s.setSvc x).svc = x := rfl

@[simp] theorem State.setSvc_fields (x : Svc) :
    (s.setSvc x).regs = s.regs ∧ (s.setSvc x).cnts = s.cnts ∧ (s.setSvc x).ctxs = s.ctxs ∧ (s.setSvc x).quota = s.quota ∧
    (s.setSvc x).harts = s.harts ∧ (s.setSvc x).tags = s.tags ∧ (s.setSvc x).owner = s.owner ∧
    (s.setSvc x).explicit = s.explicit ∧ (s.setSvc x).grants = s.grants ∧ (s.setSvc x).queues = s.queues ∧
    (s.setSvc x).running = s.running ∧ (s.setSvc x).rr = s.rr ∧ (s.setSvc x).pans = s.pans ∧ (s.setSvc x).sals = s.sals ∧
    (s.setSvc x).vecs = s.vecs ∧ (s.setSvc x).mem = s.mem ∧ (s.setSvc x).memTag = s.memTag ∧ (s.setSvc x).flags = s.flags ∧
    (s.setSvc x).barriers = s.barriers ∧ (s.setSvc x).credits = s.credits ∧ (s.setSvc x).syncEvq = s.syncEvq ∧
    (s.setSvc x).nameFaults = s.nameFaults ∧ (s.setSvc x).dbgCtx = s.dbgCtx ∧ (s.setSvc x).touched = s.touched ∧
    (s.setSvc x).lends = s.lends ∧ (s.setSvc x).links = s.links ∧ (s.setSvc x).jobs = s.jobs ∧
    (s.setSvc x).rxXfers = s.rxXfers ∧ (s.setSvc x).txXfers = s.txXfers ∧ (s.setSvc x).colls = s.colls ∧
    (s.setSvc x).macs = s.macs ∧ (s.setSvc x).fabrics = s.fabrics ∧ (s.setSvc x).time = s.time ∧
    (s.setSvc x).dies = s.dies ∧ (s.setSvc x).gated = s.gated ∧ (s.setSvc x).sensors = s.sensors ∧
    (s.setSvc x).hbms = s.hbms ∧ (s.setSvc x).sramScrub = s.sramScrub ∧ (s.setSvc x).ceil = s.ceil ∧
    (s.setSvc x).watts = s.watts ∧ (s.setSvc x).amps = s.amps ∧ (s.setSvc x).meshFailed = s.meshFailed ∧
    (s.setSvc x).crossed = s.crossed ∧ (s.setSvc x).sec = s.sec ∧ (s.setSvc x).boot = s.boot ∧ (s.setSvc x).host = s.host ∧
    (s.setSvc x).readVal = s.readVal ∧ (s.setSvc x).waitSeq = s.waitSeq ∧ (s.setSvc x).free = s.free ∧
    (s.setSvc x).pending = s.pending :=
  by refine ⟨?_, ?_, ?_, ?_, ?_, ?_, ?_, ?_, ?_, ?_, ?_, ?_, ?_, ?_, ?_, ?_, ?_, ?_, ?_, ?_, ?_, ?_, ?_, ?_, ?_, ?_, ?_, ?_, ?_, ?_, ?_, ?_, ?_, ?_, ?_, ?_, ?_, ?_, ?_, ?_, ?_, ?_, ?_, ?_, ?_, ?_, ?_, ?_, ?_, ?_⟩ <;> rfl

@[simp] theorem State.setSvc_reads (x : Svc) :
    (∀ n, (s.setSvc x).ctx n = s.ctx n) ∧ (∀ n, (s.setSvc x).hart n = s.hart n) ∧ (∀ n, (s.setSvc x).pan n = s.pan n) ∧
    (∀ n, (s.setSvc x).sal n = s.sal n) ∧ (∀ n, (s.setSvc x).vec n = s.vec n) ∧ (∀ n, (s.setSvc x).flag n = s.flag n) ∧
    (∀ n, (s.setSvc x).barrier n = s.barrier n) ∧ (∀ n, (s.setSvc x).credit n = s.credit n) ∧
    (∀ n, (s.setSvc x).link n = s.link n) ∧ (∀ n, (s.setSvc x).jobSlot n = s.jobSlot n) ∧
    (∀ n, (s.setSvc x).mac n = s.mac n) ∧ (∀ n, (s.setSvc x).fabric n = s.fabric n) ∧ (∀ n, (s.setSvc x).die n = s.die n) ∧
    (∀ n, (s.setSvc x).stack n = s.stack n) ∧ (∀ n, (s.setSvc x).sensor n = s.sensor n) ∧
    (∀ e q, (s.setSvc x).ownerOf e q = s.ownerOf e q) ∧ (∀ e q, (s.setSvc x).run e q = s.run e q) ∧
    (∀ e q, (s.setSvc x).queue e q = s.queue e q) ∧ (∀ n, (s.setSvc x).bayCtx n = s.bayCtx n) ∧
    (∀ pg off, regGet (s.setSvc x) pg off = regGet s pg off) :=
  by refine ⟨?_, ?_, ?_, ?_, ?_, ?_, ?_, ?_, ?_, ?_, ?_, ?_, ?_, ?_, ?_, ?_, ?_, ?_, ?_, ?_⟩ <;> intros <;> rfl

@[simp] theorem State.setHost_same (x : HostPort) : (s.setHost x).host = x := rfl

@[simp] theorem State.setHost_fields (x : HostPort) :
    (s.setHost x).regs = s.regs ∧ (s.setHost x).cnts = s.cnts ∧ (s.setHost x).ctxs = s.ctxs ∧
    (s.setHost x).quota = s.quota ∧ (s.setHost x).harts = s.harts ∧ (s.setHost x).tags = s.tags ∧
    (s.setHost x).owner = s.owner ∧ (s.setHost x).explicit = s.explicit ∧ (s.setHost x).grants = s.grants ∧
    (s.setHost x).queues = s.queues ∧ (s.setHost x).running = s.running ∧ (s.setHost x).rr = s.rr ∧
    (s.setHost x).pans = s.pans ∧ (s.setHost x).sals = s.sals ∧ (s.setHost x).vecs = s.vecs ∧ (s.setHost x).mem = s.mem ∧
    (s.setHost x).memTag = s.memTag ∧ (s.setHost x).flags = s.flags ∧ (s.setHost x).barriers = s.barriers ∧
    (s.setHost x).credits = s.credits ∧ (s.setHost x).syncEvq = s.syncEvq ∧ (s.setHost x).nameFaults = s.nameFaults ∧
    (s.setHost x).dbgCtx = s.dbgCtx ∧ (s.setHost x).touched = s.touched ∧ (s.setHost x).lends = s.lends ∧
    (s.setHost x).links = s.links ∧ (s.setHost x).jobs = s.jobs ∧ (s.setHost x).rxXfers = s.rxXfers ∧
    (s.setHost x).txXfers = s.txXfers ∧ (s.setHost x).colls = s.colls ∧ (s.setHost x).macs = s.macs ∧
    (s.setHost x).fabrics = s.fabrics ∧ (s.setHost x).time = s.time ∧ (s.setHost x).dies = s.dies ∧
    (s.setHost x).gated = s.gated ∧ (s.setHost x).sensors = s.sensors ∧ (s.setHost x).hbms = s.hbms ∧
    (s.setHost x).sramScrub = s.sramScrub ∧ (s.setHost x).ceil = s.ceil ∧ (s.setHost x).watts = s.watts ∧
    (s.setHost x).amps = s.amps ∧ (s.setHost x).meshFailed = s.meshFailed ∧ (s.setHost x).crossed = s.crossed ∧
    (s.setHost x).sec = s.sec ∧ (s.setHost x).svc = s.svc ∧ (s.setHost x).boot = s.boot ∧
    (s.setHost x).readVal = s.readVal ∧ (s.setHost x).waitSeq = s.waitSeq ∧ (s.setHost x).free = s.free ∧
    (s.setHost x).pending = s.pending :=
  by refine ⟨?_, ?_, ?_, ?_, ?_, ?_, ?_, ?_, ?_, ?_, ?_, ?_, ?_, ?_, ?_, ?_, ?_, ?_, ?_, ?_, ?_, ?_, ?_, ?_, ?_, ?_, ?_, ?_, ?_, ?_, ?_, ?_, ?_, ?_, ?_, ?_, ?_, ?_, ?_, ?_, ?_, ?_, ?_, ?_, ?_, ?_, ?_, ?_, ?_, ?_⟩ <;> rfl

@[simp] theorem State.setHost_reads (x : HostPort) :
    (∀ n, (s.setHost x).ctx n = s.ctx n) ∧ (∀ n, (s.setHost x).hart n = s.hart n) ∧ (∀ n, (s.setHost x).pan n = s.pan n) ∧
    (∀ n, (s.setHost x).sal n = s.sal n) ∧ (∀ n, (s.setHost x).vec n = s.vec n) ∧ (∀ n, (s.setHost x).flag n = s.flag n) ∧
    (∀ n, (s.setHost x).barrier n = s.barrier n) ∧ (∀ n, (s.setHost x).credit n = s.credit n) ∧
    (∀ n, (s.setHost x).link n = s.link n) ∧ (∀ n, (s.setHost x).jobSlot n = s.jobSlot n) ∧
    (∀ n, (s.setHost x).mac n = s.mac n) ∧ (∀ n, (s.setHost x).fabric n = s.fabric n) ∧
    (∀ n, (s.setHost x).die n = s.die n) ∧ (∀ n, (s.setHost x).stack n = s.stack n) ∧
    (∀ n, (s.setHost x).sensor n = s.sensor n) ∧ (∀ e q, (s.setHost x).ownerOf e q = s.ownerOf e q) ∧
    (∀ e q, (s.setHost x).run e q = s.run e q) ∧ (∀ e q, (s.setHost x).queue e q = s.queue e q) ∧
    (∀ n, (s.setHost x).bayCtx n = s.bayCtx n) ∧ (∀ pg off, regGet (s.setHost x) pg off = regGet s pg off) :=
  by refine ⟨?_, ?_, ?_, ?_, ?_, ?_, ?_, ?_, ?_, ?_, ?_, ?_, ?_, ?_, ?_, ?_, ?_, ?_, ?_, ?_⟩ <;> intros <;> rfl

@[simp] theorem State.setQueue_same (e q : Nat) (l : List Op) : (s.setQueue e q l).queue e q = l :=
  tget_tset_same [] s.queues (e * 4 + q) l

@[simp] theorem State.setRun_same (e u : Nat) (o : Op) : (s.setRun e u o).run e u = some o :=
  tfind_tput_same s.running (e * 2 + u) o

@[simp] theorem State.clearRun_same (e u : Nat) : (s.clearRun e u).run e u = none :=
  tfind_tdel_same s.running (e * 2 + u)

@[simp] theorem regPut_same (p o : Nat) (v : Word) : regGet (regPut s p o v) p o = v :=
  tget_tset_same _ s.regs (p * 4096 + o) v

theorem regPut_other {p o p' o' : Nat} (v : Word) (h : p' * 4096 + o' ≠ p * 4096 + o) :
    regGet (regPut s p o v) p' o' = regGet s p' o' :=
  tget_tset_other _ _ s.regs v h

@[simp] theorem drawFree_fst : (drawFree s).1 = Config.draw s.free := rfl

end Sys2Proof.Machine
end

