-- ==== Sys2Proof/Laws/Ops.lean ====
section
/-! SUPPORT. What the shared operations do, each said once: registers, events, errors, counters, traps, accesses, and the drain of
consequences. -/

namespace Sys2Proof.Machine

open Sys2Proof

/-! ### Registers -/

@[simp] theorem regGet_regPut_same (s : State) (page off : Nat) (v : Word) : regGet (regPut s page off v) page off = v :=
  tget_tset_same _ _ _ _

theorem regGet_regPut_other (s : State) {page off page' off' : Nat} (v : Word) (h : page' * 4096 + off' ≠ page * 4096 + off) :
    regGet (regPut s page off v) page' off' = regGet s page' off' :=
  tget_tset_other _ _ _ _ h

/-- A write of a register changes the registers and nothing else. -/
theorem regPut_spec (s : State) (page off : Nat) (v : Word) : regPut s page off v = { s with regs := (regPut s page off v).regs } := rfl

theorem regOr_spec (s : State) (page off : Nat) (v : Word) : regOr s page off v = { s with regs := (regOr s page off v).regs } := rfl

/-- The interrupt that may follow an event latches a vector of the host or nothing. -/
theorem irqAfter_spec (s : State) (page : Nat) (was : Word) :
    irqAfter s page was = { s with host := { s.host with msix := s.host.msix ++ [0] } } ∨ irqAfter s page was = s := by
  unfold irqAfter
  generalize (if page = pageOf 3 0 then 1 else if page = pageOf 2 0 then 2 else if page = pageOf 5 0 then 4 else 0) = b
  by_cases h : was = 0 ∧ evtPend s page ≠ 0 ∧ (regGet s (pageOf 1 0) 0x50).toNat / b % 2 = 1 ∧ b ≠ 0
  · exact .inl (if_pos h)
  · exact .inr (if_neg h)

/-- A free advance of a counter changes the counters, the registers (an overflow bit) and the position among the free values. -/
theorem bumpFree_spec (s : State) (page idx : Nat) :
    bumpFree s page idx = { s with cnts := (bumpFree s page idx).cnts, regs := (bumpFree s page idx).regs, free := s.free + 1 } := rfl

/-- An event sets its bit of EVT_RAW, and may latch a vector of the host; nothing else changes. -/
theorem evt_spec (s : State) (page i : Nat) :
    ∃ m, evt s page i = { regOr s page 0x10 (BitVec.ofNat 32 (2 ^ i)) with host := { s.host with msix := m } } := by
  rcases irqAfter_spec (regOr s page 0x10 (BitVec.ofNat 32 (2 ^ i))) page (evtPend s page) with h | h
  · exact ⟨_, h⟩
  · exact ⟨s.host.msix, h⟩

theorem regGet_evt (s : State) (page i page' off' : Nat) :
    regGet (evt s page i) page' off' = regGet (regOr s page 0x10 (BitVec.ofNat 32 (2 ^ i))) page' off' := by
  obtain ⟨m, h⟩ := evt_spec s page i
  rw [h]; rfl

theorem regGet_evt_other (s : State) {page i page' off' : Nat} (h : page' * 4096 + off' ≠ page * 4096 + 0x10) :
    regGet (evt s page i) page' off' = regGet s page' off' := by
  rw [regGet_evt]; exact regGet_regPut_other _ _ h

theorem bit_eq_testBit (n i : Nat) : bit n i = n.testBit i := by
  simp only [bit, Nat.testBit_eq_decide_div_mod_eq]
  by_cases h : n / 2 ^ i % 2 = 1 <;> simp [h]

/-- An event stands posted. -/
theorem posted_evt (s : State) (page : Nat) {i : Nat} (h : i < 32) : Posted (evt s page i) page i := by
  unfold Posted
  rw [regGet_evt, regOr, regGet_regPut_same, bit_eq_testBit]
  simp [BitVec.toNat_or, Nat.testBit_or, Nat.mod_eq_of_lt (Nat.pow_lt_pow_right (by omega : 1 < 2) h)]

/-- A wake event starts a die's transition, with its event, or does nothing (R439). -/
theorem wakeDie_spec (s : State) (d : Nat) :
    wakeDie s d = evt (s.setDie d { s.die d with target := some 0 }) (pageOf 4 0) 4 ∨ wakeDie s d = s := by
  unfold wakeDie
  by_cases h : ((s.die d).state = 1 ∨ (s.die d).state = 2) ∧ (s.die d).target = none ∨ (s.die d).target = some 2
  · exact .inl (if_pos h)
  · exact .inr (if_neg h)

/-- What reaches a die crosses connections, may start its transition with its event and may latch a vector; nothing else changes (R24,
R439). -/
theorem reach_spec (s : State) (a b : Nat) :
    ∃ r t m, s.reach a b = { s with crossed := (s.cross a b).crossed, regs := r, dies := t, host := { s.host with msix := m } } := by
  unfold State.reach
  rcases wakeDie_spec (s.cross a b) b with h | h
  · obtain ⟨m, e⟩ := evt_spec ((s.cross a b).setDie b { (s.cross a b).die b with target := some 0 }) (pageOf 4 0) 4
    exact ⟨_, _, m, h.trans e⟩
  · exact ⟨s.regs, s.dies, s.host.msix, h⟩

@[simp] theorem reach_reads (s : State) (a b : Nat) :
    (s.reach a b).tags = s.tags ∧ (s.reach a b).free = s.free ∧ (s.reach a b).mem = s.mem ∧ (s.reach a b).harts = s.harts ∧
    (s.reach a b).queues = s.queues ∧ (s.reach a b).ctxs = s.ctxs ∧ (s.reach a b).pending = s.pending := by
  obtain ⟨r, t, m, h⟩ := reach_spec s a b
  rw [h]; simp

/-- An error writes ERR_CODE and the two INFO registers of its page and nothing else. -/
theorem pageErr_spec (s : State) (page code i0 i1 : Nat) : pageErr s page code i0 i1 = { s with regs := (pageErr s page code i0 i1).regs } := rfl

theorem pageErrOpen_spec (s : State) (page code : Nat) :
    pageErrOpen s page code = { s with regs := (pageErrOpen s page code).regs, free := s.free + 2 } := rfl

/-! ### Counters -/

/-- A count changes its counter, and at the largest value its OVF bit. -/
theorem bump_spec (s : State) (page idx n : Nat) :
    ∃ c r, bump s page idx n = { s with cnts := c, regs := r } ∧
      ∀ k, k ≠ page * 256 + idx → tget 0 c k = tget 0 s.cnts k := by
  unfold bump
  simp only
  split
  · exact ⟨_, s.regs, rfl, fun k hk => tget_tset_other _ _ _ _ hk⟩
  · split
    · exact ⟨s.cnts, s.regs, rfl, fun k _ => rfl⟩
    · exact ⟨tset 0 s.cnts (page * 256 + idx) cntMax, _, rfl, fun k hk => tget_tset_other _ _ _ _ hk⟩

theorem counted_bump (s : State) (page idx : Nat) {n : Nat} (h : 0 < n) : Counted s (bump s page idx n) page idx n := by
  unfold Counted bump
  simp only
  split
  · next hc => rw [tget_tset_same]; omega
  · next hc =>
    rw [if_neg (by omega)]
    show tget 0 (tset 0 s.cnts (page * 256 + idx) cntMax) (page * 256 + idx) = _
    rw [tget_tset_same]; omega

/-! ### Memory -/

theorem memory_wf_ownGranule {s : State} (a : Nat) (h : Memory.wf s.mem = true) : Memory.wf (ownGranule s a).mem = true := by
  unfold ownGranule
  simp only
  split
  · exact h
  · exact memory_wf_wrBytes _ _ h

theorem memory_wf_storeByte {s : State} (a : Nat) (b : Byte) (h : Memory.wf s.mem = true) : Memory.wf (storeByte s a b).mem = true := by
  unfold storeByte
  split
  · exact memory_wf_wrByte _ _ (memory_wf_ownGranule a h)
  · exact memory_wf_wrByte _ _ h

theorem memory_wf_store {s : State} (a : Nat) (bs : List Byte) (h : Memory.wf s.mem = true) : Memory.wf (store s a bs).mem = true := by
  unfold store
  generalize bs.zipIdx = l
  induction l generalizing s with
  | nil => exact h
  | cons x l ih => exact ih (memory_wf_storeByte _ _ h)

theorem memory_wf_clearMem {s : State} (lo hi : Nat) (h : Memory.wf s.mem = true) : Memory.wf (clearMem s lo hi).mem = true :=
  tblOk_filter _ h

theorem memory_wf_resetMem {m : List Host.Cell} (r : Reach) (h : Memory.wf m = true) : Memory.wf (resetMem m r) = true :=
  tblOk_filter _ h

theorem guardWrite_mem (s : State) (b off n : Nat) : (guardWrite s b off n).mem = s.mem := by
  unfold guardWrite
  simp only
  repeat' split
  all_goals rfl

theorem memory_wf_netStore {s : State} (a : Nat) (bs : List Byte) (h : Memory.wf s.mem = true) :
    Memory.wf (netStore s a bs).mem = true := by
  unfold netStore
  simp only
  split
  · exact memory_wf_store _ _ (by rw [guardWrite_mem]; exact h)
  · exact memory_wf_store _ _ h

/-! ### Harts -/

theorem wrX_frame (h : Hart) (rd : Nat) (v : Dword) : wrX h rd v = { h with x := (wrX h rd v).x } := by
  unfold wrX; split <;> rfl

@[simp] theorem wrX_zero (h : Hart) (v : Dword) : wrX h 0 v = h := rfl

theorem wrX_reads (h : Hart) {rd : Nat} (v : Dword) (hr : rd ≠ 0) : tget 0 (wrX h rd v).x rd = v := by
  unfold wrX; rw [if_neg hr]; exact tget_tset_same _ _ _ _

theorem trapHart_hart (s : State) (h : Nat) (t : Trap) : (trapHart s h t).hart h = { s.hart h with trap := some t } :=
  tget_tset_same _ _ _ _

/-! ### Accesses -/

theorem setRead_same (s : State) (a : Acc) (v : Word) : tget 0 (setRead s a v).readVal (accKey a) = v := tget_tset_same _ _ _ _

/-- A denied access of a hart does nothing; a function's is counted. -/
theorem denied_hart (s : State) (h : Nat) : denied s (.hart h) = s := rfl

theorem wardenOnly_yes {s : State} {a : Acc} (f : State → State) (h : Warden s a) : wardenOnly s a f = f s := by
  unfold wardenOnly; rw [if_pos ⟨h.1, h.2⟩]

theorem wardenOnly_no {s : State} {a : Acc} (f : State → State) (h : isWarden s a = false) : wardenOnly s a f = denied s a := by
  unfold wardenOnly; rw [if_neg (by simp [h])]

theorem hartDo_yes {s : State} {h n : Nat} (f : State → State) (hi : Issues s h n) : hartDo s h f = .next (f s) := by
  unfold hartDo; rw [if_pos hi.1]

/-! ### Consequences -/

@[simp] theorem settle_nil (s : State) : settle (s, []) = s := rfl

theorem drain_nil (n : Nat) (s : State) : drain n [] s = s := by cases n <;> rfl

theorem drain_cons (n : Nat) (w : Work) (ws : List Work) (s : State) :
    drain (n + 1) (w :: ws) s = drain n ((doWork s w).2 ++ ws) (doWork s w).1 := rfl

/-- What holds after every item of work holds after the drain. -/
theorem drain_keeps {P : State → Prop} (hw : ∀ s w, P s → P (doWork s w).1) (n : Nat) (ws : List Work) (s : State) (h : P s) :
    P (drain n ws s) := by
  induction n generalizing ws s with
  | zero => cases ws <;> exact h
  | succ n ih =>
    cases ws with
    | nil => exact h
    | cons w ws => rw [drain_cons]; exact ih _ _ (hw s w h)

theorem settle_keeps {P : State → Prop} (hw : ∀ s w, P s → P (doWork s w).1) (r : State × List Work) (h : P r.1) : P (settle r) :=
  drain_keeps hw _ _ _ h

end Sys2Proof.Machine
end

