-- ==== Sys2Proof/Laws/Push.lean ====
section
/-! SUPPORT. What taking a tag and accepting a push do. -/

namespace Sys2Proof.Machine

open Sys2Proof

theorem mem_freeTags (s : State) (d t : Nat) :
    t ∈ freeTags s d ↔ (∃ i, i < 1024 ∧ d * 1024 + i = t) ∧ tfind s.tags t = none := by
  unfold freeTags
  rw [List.mem_filter, List.mem_map]
  simp only [List.mem_range, Option.isNone_iff_eq_none]

/-- A tag that is free is taken, and nothing but the tags and the count of draws changes. -/
theorem takeTag_spec (s : State) (n h d : Nat) (hf : ∃ i, i < 1024 ∧ tfind s.tags (d * 1024 + i) = none) :
    (takeTag s n h d).1 / 1024 = d ∧ tfind s.tags (takeTag s n h d).1 = none ∧
    (takeTag s n h d).2 = { s with tags := tput s.tags (takeTag s n h d).1 { ctx := n, hart := h, recorded := false }, free := s.free + 1 } := by
  obtain ⟨i, hi, hn⟩ := hf
  have hm : d * 1024 + i ∈ freeTags s d := (mem_freeTags s d _).mpr ⟨⟨i, hi, rfl⟩, hn⟩
  have ht : (takeTag s n h d).1 ∈ freeTags s d := by
    unfold takeTag
    generalize freeTags s d = l at hm ⊢
    have := Nat.mod_lt (Config.pickTag s.free) (List.length_pos_of_mem hm)
    show l.getD (Config.pickTag s.free % l.length) 0 ∈ l
    rw [List.getD_eq_getElem?_getD, List.getElem?_eq_getElem this]
    exact List.getElem_mem _
  generalize hs : (takeTag s n h d).1 = tag at ht
  obtain ⟨⟨j, hj, he⟩, hf⟩ := (mem_freeTags s d _).mp ht
  exact ⟨by omega, hf, by rw [← hs]; simp only [takeTag]⟩

/-- A push that is accepted crosses to its engine's die and stands last in its queue with a tag that was free. -/
theorem acceptPush_spec (s : State) (n h rd : Nat) (rs1 : Dword) (desc)
    (hf : ∃ i, i < 1024 ∧ tfind s.tags (tagDie h (pushEng rs1) * 1024 + i) = none) :
    Pushed s (acceptPush s n h rd rs1.toNat desc 0) n h rd rs1 desc := by
  obtain ⟨r, u, m, hr⟩ := reach_spec s (hartEng h / 256) (pushEng rs1 / 256)
  obtain ⟨h1, h2, -⟩ := takeTag_spec (s.reach (hartEng h / 256) (pushEng rs1 / 256)) n h (tagDie h (pushEng rs1)) (by simpa using hf)
  refine ⟨_, h1, by simpa using h2, ?_⟩
  simp only [acceptPush, if_true, pushEng, pushQueue, takeTag] at hr ⊢
  rw [hr]; rfl

end Sys2Proof.Machine
end

