-- ==== Sys2Proof/WellFormed.lean ====
section
/-! DEFINITION. Well-formed commands: every operand names something that the spec gives the device (R2 to R5, R37, R48, R54, R486). An
operand that a message of the host carries is not restricted here: the meaning answers it (R502, R503). -/

namespace Sys2Proof

/-- An accessor: a hart of the device, a virtual function 1 to 63, or the physical function (R489, R499). -/
def Acc.ok : Acc → Bool
  | .hart h => decide (h < 258)
  | .vf n => decide (0 < n ∧ n < 64)
  | .host => true

/-- A waiter of R277. -/
def Waiter.ok : Waiter → Bool
  | .hart h => decide (h < 258)
  | .vec bay => decide (bay < 256)
  | .head engine queue => decide (engine < 4096 ∧ queue < 4)
  | .pan bay operand => decide (bay < 256 ∧ operand < 2)

/-- The digests that a peer sends in AGREE: its job's and those of the five groups (R300). -/
def Digest.ok (x : Digest) : Bool := decide (x.groups.length = 5)

/-- A frame holds its addresses and type (R323). -/
def Frame.ok (f : Frame) : Bool := decide (18 ≤ f.wire.length)

/-- A source of relayed events (R538). -/
def RelaySrc.ok : RelaySrc → Bool
  | .sal die => decide (die < 8)
  | .sync => true
  | .ovs fabric => decide (fabric < 4)
  | .errLog => true
  | .svc bit => decide (bit < 32)

/-- A key message: an OTK slot 0 to 3, a MAC 0 to 15 (R453, R503). -/
def KeyMsg.ok : KeyMsg → Bool
  | .otk slot _ _ => decide (slot < 4)
  | .cak mac ckn _ => decide (mac < 16) && decide (1 ≤ ckn.length) && decide (ckn.length ≤ 32)

/-- Every operand of a command is in its range. -/
def Instr.wf : Instr → Bool
  | .zstg h rd _ _ => decide (h < 258) && decide (rd < 32)
  | .zpush h rd _ => decide (h < 258) && decide (rd < 32)
  | .ztpush h rd _ => decide (h < 258) && decide (rd < 32)
  | .zpushm h rd _ _ => decide (h < 258) && decide (rd < 32)
  | .pushUnblock h => decide (h < 258)
  | .zvec h rd _ _ => decide (h < 258) && decide (rd < 32)
  | .zvend h rd _ _ => decide (h < 258) && decide (rd < 32)
  | .zsum h rd _ _ => decide (h < 258) && decide (rd < 32)
  | .zcwait h rd _ => decide (h < 258) && decide (rd < 32)
  | .zcnext h rd => decide (h < 258) && decide (rd < 32)
  | .zcack h _ => decide (h < 258)
  | .zeack h rd => decide (h < 258) && decide (rd < 32)
  | .epochIncrement ctx => decide (ctx < 64)
  | .hartLoadStore h rd addr size _ _ => decide (h < 258) && decide (rd < 32) && decide (addr < 2 ^ 52) && (size == 1 || size == 2 || size == 4 || size == 8)
  | .fset h rd _ _ => decide (h < 258) && decide (rd < 32)
  | .fclr h rd _ _ => decide (h < 258) && decide (rd < 32)
  | .ftest h rd _ _ => decide (h < 258) && decide (rd < 32)
  | .ftestc h rd _ _ => decide (h < 258) && decide (rd < 32)
  | .fwait h rd _ _ => decide (h < 258) && decide (rd < 32)
  | .fwaitc h rd _ _ => decide (h < 258) && decide (rd < 32)
  | .bconf h rd _ _ => decide (h < 258) && decide (rd < 32)
  | .barr h rd _ _ => decide (h < 258) && decide (rd < 32)
  | .bwait h rd _ _ => decide (h < 258) && decide (rd < 32)
  | .barrw h rd _ _ => decide (h < 258) && decide (rd < 32)
  | .bstat h rd _ _ => decide (h < 258) && decide (rd < 32)
  | .cconf h rd _ _ => decide (h < 258) && decide (rd < 32)
  | .cprod h rd _ _ => decide (h < 258) && decide (rd < 32)
  | .ccons h rd _ _ => decide (h < 258) && decide (rd < 32)
  | .cwait h rd _ _ => decide (h < 258) && decide (rd < 32)
  | .cwaitc h rd _ _ => decide (h < 258) && decide (rd < 32)
  | .cread h rd _ _ => decide (h < 258) && decide (rd < 32)
  | .waitTimeout w => w.ok
  | .dlDieReport die ctx => decide (die < 9) && decide (ctx < 64)
  | .deadlock ctx => decide (ctx < 64)
  | .pwrLendStart die ctx => decide (die < 8) && decide (ctx < 64)
  | .syncMapWrite a _ => a.ok
  | .snap a _ => a.ok
  | .syncEvqRead a => a.ok
  | .descHead engine queue => decide (engine < 4096) && decide (queue < 4)
  | .descStart engine queue => decide (engine < 4096) && decide (queue < 4)
  | .opComplete engine unit => decide (engine < 4096) && decide (unit < 2)
  | .opBoundaryStop engine unit => decide (engine < 4096) && decide (unit < 2)
  | .pnop bay => decide (bay < 256)
  | .pmm bay => decide (bay < 256)
  | .pmmGather bay => decide (bay < 256)
  | .panSlotReady bay => decide (bay < 256)
  | .panTileStart bay => decide (bay < 256)
  | .panTileEnd bay => decide (bay < 256)
  | .panReplay bay => decide (bay < 256)
  | .bitternWork bay => decide (bay < 256)
  | .panOutput bay => decide (bay < 256)
  | .outReconverted bay => decide (bay < 256)
  | .panSalTimeout bay => decide (bay < 256)
  | .memResidency bay => decide (bay < 256)
  | .salScaleRequest die => decide (die < 8)
  | .salFetchDone die => decide (die < 8)
  | .salObservation die => decide (die < 8)
  | .salCorrection die => decide (die < 8)
  | .lookup a die _ => a.ok && decide (die < 8)
  | .salStage a die _ => a.ok && decide (die < 8)
  | .invalidate a die _ => a.ok && decide (die < 8)
  | .clearRung a die _ => a.ok && decide (die < 8)
  | .salFree a die _ => a.ok && decide (die < 8)
  | .salExport a die _ => a.ok && decide (die < 8)
  | .salImport a die _ => a.ok && decide (die < 8)
  | .xferDone die => decide (die < 8)
  | .salEvqRead a die => a.ok && decide (die < 8)
  | .counterLoRead a page off => a.ok && decide (page < 65536) && decide (off < 4096 ∧ off % 4 = 0)
  | .vnop bay => decide (bay < 256)
  | .vshape bay => decide (bay < 256)
  | .vsetx bay => decide (bay < 256)
  | .vwait bay => decide (bay < 256)
  | .vsig bay => decide (bay < 256)
  | .vsumm bay => decide (bay < 256)
  | .vsetp bay => decide (bay < 256)
  | .vadd bay => decide (bay < 256)
  | .vsub bay => decide (bay < 256)
  | .vmul bay => decide (bay < 256)
  | .vfma bay => decide (bay < 256)
  | .vmax bay => decide (bay < 256)
  | .vmin bay => decide (bay < 256)
  | .vabs bay => decide (bay < 256)
  | .vneg bay => decide (bay < 256)
  | .vsel bay => decide (bay < 256)
  | .vmovi bay => decide (bay < 256)
  | .vmov bay => decide (bay < 256)
  | .vsfn bay => decide (bay < 256)
  | .viadd bay => decide (bay < 256)
  | .visub bay => decide (bay < 256)
  | .vimul bay => decide (bay < 256)
  | .viand bay => decide (bay < 256)
  | .vior bay => decide (bay < 256)
  | .vixor bay => decide (bay < 256)
  | .vishl bay => decide (bay < 256)
  | .vishr bay => decide (bay < 256)
  | .viota bay => decide (bay < 256)
  | .vi2f bay => decide (bay < 256)
  | .vf2i bay => decide (bay < 256)
  | .vcmp bay => decide (bay < 256)
  | .vmop bay => decide (bay < 256)
  | .vmtri bay => decide (bay < 256)
  | .vmfrom bay => decide (bay < 256)
  | .vpermr bay => decide (bay < 256)
  | .vpermc bay => decide (bay < 256)
  | .vtrans bay => decide (bay < 256)
  | .vrotc bay => decide (bay < 256)
  | .vbcr bay => decide (bay < 256)
  | .vbcc bay => decide (bay < 256)
  | .vredr bay => decide (bay < 256)
  | .vredc bay => decide (bay < 256)
  | .vredf bay => decide (bay < 256)
  | .vscan bay => decide (bay < 256)
  | .vsmx bay => decide (bay < 256)
  | .vadam bay => decide (bay < 256)
  | .vld bay => decide (bay < 256)
  | .vst bay => decide (bay < 256)
  | .vldq bay => decide (bay < 256)
  | .vstq bay => decide (bay < 256)
  | .vstqScaleAnswer bay => decide (bay < 256)
  | .vecSalTimeout bay => decide (bay < 256)
  | .vmld bay => decide (bay < 256)
  | .vmst bay => decide (bay < 256)
  | .dnop engine => decide (engine < 4096)
  | .dmove engine _ _ _ => decide (engine < 4096)
  | .dfill engine => decide (engine < 4096)
  | .credscat engine => decide (engine < 4096)
  | .callgath engine => decide (engine < 4096)
  | .callred engine => decide (engine < 4096)
  | .cbcast engine => decide (engine < 4096)
  | .scrubStack unit _ _ => decide (unit < 16)
  | .scrubSram unit _ _ => decide (unit < 256)
  | .forcedRefresh stack _ => decide (stack < 16)
  | .memRgnSel a _ => a.ok
  | .memRgnAttr a _ => a.ok
  | .stackFence a stack => a.ok && decide (stack < 16)
  | .stackFenced stack => decide (stack < 16)
  | .stackUnfence a stack => a.ok && decide (stack < 16)
  | .stackTrainDone stack _ => decide (stack < 16)
  | .hostBar2Read _ _ => true
  | .hostBar2Write _ _ => true
  | .flitReceive link image => decide (link < 12) && decide (image.length = 256)
  | .flitReplayTimeout link => decide (link < 12)
  | .lightPresent link => decide (link < 12)
  | .lightLoss engine => decide (engine < 16)
  | .calibrateDone link => decide (link < 12)
  | .trainDone link => decide (link < 12)
  | .trainTimeout link => decide (link < 12)
  | .trainRetry link => decide (link < 12)
  | .keyx link peer _ _ _ _ => decide (link < 12) && decide (peer < 2 ^ 20)
  | .keyxTimeout link => decide (link < 12)
  | .agree link peer => decide (link < 12) && peer.ok
  | .timeExchange link => decide (link < 12)
  | .time link _ _ _ => decide (link < 12)
  | .abortNotice link node _ _ => decide (link < 12) && decide (node < 2 ^ 20)
  | .grlWrite link => decide (link < 12)
  | .readReq link => decide (link < 12)
  | .readData link => decide (link < 12)
  | .grlSignal link => decide (link < 12)
  | .collData link => decide (link < 12)
  | .collTimeout engine => decide (engine < 4096)
  | .rekey a link _ => a.ok && decide (link < 12)
  | .flitCountRekey link => decide (link < 12)
  | .reagree a link _ => a.ok && decide (link < 12)
  | .recalNow a link _ => a.ok && decide (link < 12)
  | .recalPeriod link _ => decide (link < 12)
  | .recalHalfDone link _ => decide (link < 12)
  | .hold a link _ => a.ok && decide (link < 12)
  | .grlBind a link _ => a.ok && decide (link < 12)
  | .grlNodeId a _ => a.ok
  | .grlJobW3 a _ => a.ok
  | .jobAdmit a _ => a.ok
  | .timeRearm a _ => a.ok
  | .rxFrame mac frame => decide (mac < 16) && frame.ok
  | .pauseTimerExpire mac cls _ => decide (mac < 16) && decide (cls < 8)
  | .pfcRepeat mac => decide (mac < 16)
  | .napFrameDeliver mac => decide (mac < 16)
  | .txStage mac cls => decide (mac < 16) && decide (cls < 8)
  | .txFrameStart mac => decide (mac < 16)
  | .txPreemptions mac _ => decide (mac < 16)
  | .txFrameDone mac => decide (mac < 16)
  | .preemptVerify mac _ => decide (mac < 16)
  | .macLinkDown mac => decide (mac < 16)
  | .macLinkUp mac => decide (mac < 16)
  | .macGrpCfg a mac _ => a.ok && decide (mac < 16)
  | .macRingCfg a mac _ => a.ok && decide (mac < 16)
  | .macRingSwidx a mac _ => a.ok && decide (mac < 16)
  | .macSlotData a mac _ => a.ok && decide (mac < 16)
  | .onop fabric => decide (fabric < 4)
  | .oload fabric => decide (fabric < 4)
  | .oswitch fabric => decide (fabric < 4)
  | .oswitchAt fabric => decide (fabric < 4)
  | .oharvest fabric => decide (fabric < 4)
  | .omemw fabric => decide (fabric < 4)
  | .omemr fabric => decide (fabric < 4)
  | .opower fabric => decide (fabric < 4)
  | .fabricWakeDone fabric => decide (fabric < 4)
  | .dot fabric tile => decide (fabric < 4) && decide (tile < 1024)
  | .dotw fabric tile => decide (fabric < 4) && decide (tile < 1024)
  | .add2 fabric tile => decide (fabric < 4) && decide (tile < 1024)
  | .mul2 fabric tile => decide (fabric < 4) && decide (tile < 1024)
  | .fma2 fabric tile => decide (fabric < 4) && decide (tile < 1024)
  | .max2 fabric tile => decide (fabric < 4) && decide (tile < 1024)
  | .bias2 fabric tile => decide (fabric < 4) && decide (tile < 1024)
  | .func2 fabric tile => decide (fabric < 4) && decide (tile < 1024)
  | .actpack fabric tile => decide (fabric < 4) && decide (tile < 1024)
  | .unpack fabric tile => decide (fabric < 4) && decide (tile < 1024)
  | .argmax fabric tile => decide (fabric < 4) && decide (tile < 1024)
  | .thresh fabric tile => decide (fabric < 4) && decide (tile < 1024)
  | .classify fabric tile => decide (fabric < 4) && decide (tile < 1024)
  | .table fabric tile => decide (fabric < 4) && decide (tile < 1024)
  | .read fabric tile => decide (fabric < 4) && decide (tile < 1024)
  | .write fabric tile => decide (fabric < 4) && decide (tile < 1024)
  | .fifo fabric tile => decide (fabric < 4) && decide (tile < 1024)
  | .ingress fabric tile => decide (fabric < 4) && decide (tile < 1024)
  | .egress fabric tile => decide (fabric < 4) && decide (tile < 1024)
  | .mread fabric tile => decide (fabric < 4) && decide (tile < 1024)
  | .mreadAnswer fabric tile => decide (fabric < 4) && decide (tile < 1024)
  | .post fabric tile => decide (fabric < 4) && decide (tile < 1024)
  | .signal fabric tile => decide (fabric < 4) && decide (tile < 1024)
  | .endHarvest fabric tile => decide (fabric < 4) && decide (tile < 1024)
  | .steer fabric tile => decide (fabric < 4) && decide (tile < 1024)
  | .merge fabric tile => decide (fabric < 4) && decide (tile < 1024)
  | .sluRepeat fabric tile => decide (fabric < 4) && decide (tile < 1024)
  | .zip fabric tile => decide (fabric < 4) && decide (tile < 1024)
  | .count fabric tile => decide (fabric < 4) && decide (tile < 1024)
  | .rate fabric tile => decide (fabric < 4) && decide (tile < 1024)
  | .gen fabric tile => decide (fabric < 4) && decide (tile < 1024)
  | .harvestQuiesce fabric => decide (fabric < 4)
  | .ovsHarvestTmo fabric => decide (fabric < 4)
  | .reopen a fabric _ => a.ok && decide (fabric < 4)
  | .ovsForce a fabric _ => a.ok && decide (fabric < 4)
  | .forcedSwitch fabric => decide (fabric < 4)
  | .stale fabric tile port _ => decide (fabric < 4) && decide (tile < 1024) && decide (port < 3)
  | .dozeEnter fabric => decide (fabric < 4)
  | .dozeWake fabric => decide (fabric < 4)
  | .ovsStall fabric => decide (fabric < 4)
  | .ovsAssign a fabric _ => a.ok && decide (fabric < 4)
  | .ovsEvqRead a fabric => a.ok && decide (fabric < 4)
  | .steerDecision mac frame => decide (mac < 16) && frame.ok
  | .verdict fabric rec => decide (fabric < 4) && decide (rec < 64)
  | .replyStage fabric => decide (fabric < 4)
  | .replyRecord fabric tile => decide (fabric < 4) && decide (tile < 1024)
  | .timeTick => true
  | .timeRdNs a => a.ok
  | .timeRate a _ => a.ok
  | .timeSlewTicks a _ => a.ok
  | .timeStepHi a _ => a.ok
  | .timeReopen a _ => a.ok
  | .timeDom a _ => a.ok
  | .timeTb3Cfg a _ => a.ok
  | .timeTrigOwn a _ => a.ok
  | .arm a _ => a.ok
  | .trigFire trig => decide (trig < 16)
  | .trigWriteAck trig => decide (trig < 16)
  | .capture input => decide (input < 4)
  | .softCapture a _ => a.ok
  | .timeSqW0 a => a.ok
  | .dieIdle die => decide (die < 9)
  | .dieReqRun a die => a.ok && decide (die < 9)
  | .dieReqNap a die => a.ok && decide (die < 9)
  | .dieReqOff a die => a.ok && decide (die < 9)
  | .dieWake die => decide (die < 9)
  | .dieTransitionDone die => decide (die < 9)
  | .bayGate bay => decide (bay < 256)
  | .bayResume bay => decide (bay < 256)
  | .govSample _ _ _ => true
  | .overcurrent => true
  | .thermalWarn sensor _ => decide (sensor < 41)
  | .thermalTrip sensor _ => decide (sensor < 41)
  | .imageLoad a _ => a.ok
  | .imageVerify _ _ _ => true
  | .tamper sensor => decide (sensor < 5)
  | .doeMessage fn _ => decide (fn < 64)
  | .getMeasurements fn _ => decide (fn < 64)
  | .ctxOpen n => decide (0 < n ∧ n < 64)
  | .ctxSet n _ => decide (0 < n ∧ n < 64)
  | .ctxLoad n core _ _ => decide (0 < n ∧ n < 64) && decide (core < 4096)
  | .ctxSeed n _ => decide (0 < n ∧ n < 64)
  | .ctxStart n => decide (0 < n ∧ n < 64)
  | .ctxRelease n => decide (0 < n ∧ n < 64)
  | .ctxZeroise ctx => decide (ctx < 64)
  | .getEvents fn _ => decide (fn < 64)
  | .keyInstall key => key.ok
  | .svnCommit kind => decide (kind < 5)
  | .jobSet _ => true
  | .eventRelay src => src.ok
  | .ccHartCtx a inst hart _ => a.ok && decide (inst < 130) && decide (hart < 2)
  | .ccCtxTagq a ctx saltern _ => a.ok && decide (ctx < 64) && decide (saltern < 8)
  | .bayFence a part => a.ok && decide (part < 256)
  | .bayUnfence a part => a.ok && decide (part < 256)
  | .bayUnfenceDone bay => decide (bay < 256)
  | .lmodFence a part => a.ok && decide (part < 8)
  | .lmodUnfence a part => a.ok && decide (part < 8)
  | .linkFence a part => a.ok && decide (part < 12)
  | .linkUnfence a part => a.ok && decide (part < 12)
  | .apply a _ => a.ok
  | .updateInstanceQuiesced _ => true
  | .svcQuiesceTmo => true
  | .svcErrlogW0 a => a.ok
  | .meshFail conn => decide (conn < 14)
  | .retrain conn => decide (conn < 14)
  | .enable a page _ => a.ok && decide (page < 65536)
  | .quiesce a page _ => a.ok && decide (page < 65536)
  | .quiesced page => decide (page < 65536)
  | .blockReset a page _ => a.ok && decide (page < 65536)
  | .ctlLock a page _ => a.ok && decide (page < 65536)
  | .errCodeRead a page off => a.ok && decide (page < 65536) && decide (off < 4096 ∧ off % 4 = 0)
  | .registerWrite a page off size _ => a.ok && decide (page < 65536) && decide (off < 4096) && (size == 1 || size == 2 || size == 4)
  | .standbyUp => true
  | .standbyLoss => true
  | .mainRailUp => true
  | .hubPowerOn => true
  | .mainRailLoss => true
  | .romBoot _ _ _ => true
  | .perstAssert => true
  | .perstDeassert => true
  | .warmReset a _ => a.ok
  | .coldReset a _ => a.ok
  | .kick a _ => a.ok
  | .bootWdogExpire => true
  | .laserRemove m => decide (m < 8)
  | .laserInsert m => decide (m < 8)
  | .laserStable m => decide (m < 8)
  | .bootLbCtl a _ => a.ok
  | .extest => true
  | .idcode => true
  | .samplePreload => true
  | .clamp => true
  | .highz => true
  | .extestPulse => true
  | .extestTrain => true
  | .internalScan _ => true
  | .memoryBist _ => true
  | .coreDebug _ => true
  | .bypass => true
  | .thermalThrottleEnd sensor _ => decide (sensor < 41)
  | .alwaysOnReady => true
  | .hostLinkUp speed width _ _ vfs => decide (0 < speed ∧ speed ≤ 6) && decide (0 < width ∧ width ≤ 16) && decide (vfs ≤ 63)
  | .hostLinkDown => true
  | .txAnSwitch mac an pn peers => decide (mac < 16) && decide (an < 4) && decide (pn < 2 ^ 64) && decide (peers.length ≤ 8)
  | .fenceDone => true
  | .trstAssert => true
  | .lbLock engine lane => decide (engine < 16) && decide (lane < 8)
  | .lbPass engine lane => decide (engine < 16) && decide (lane < 8)

end Sys2Proof
end

