-- ==== Sys2Proof/Tests/Slice0.lean ====
section
/-! SUPPORT. Small tests: what `wf` refuses, one step of a command on a small state, and for every statement of Obligations.lean with
hypotheses a state and operands that meet them together (wit_…), mostly with a check of what the command then does. -/

namespace Sys2Proof.Tests

set_option Elab.async false

open Sys2Proof Sys2Proof.Machine

/-- The state after a command. -/
def after (i : Instr) (s : State) : State := match exec i s with | .next t => t | _ => s

/-- A table lookup meets a test. -/
theorem some_of_any {α : Type} {o : Option α} {p : α → Bool} (h : o.any p = true) : ∃ x, o = some x ∧ p x = true := by
  cases o with
  | none => simp at h
  | some x => exact ⟨x, rfl, by simpa using h⟩

/-- A device after boot: every die in RUN; context 3 in RUN with harts 0 and 1, bay 0, queue 0 of DMA engine 0x030 and fabric 0, flag 5,
barrier 0 and credit channel 0 of saltern 0 under names 0, 4,096 and 8,192, and a region of hub SRAM. -/
def w : State :=
  { State.reset with
    boot := { standby := true, alwaysOn := true, mainRail := true, hub := true, romDone := true, portOn := true, stage := 3, wdnRun := 2 }
    dies := (List.range 8).map fun d => (d, { req := 0, state := 0 })
    ctxs := [(3, { st := .run, epoch := 5, seed := some 7, map := [(0, 0x400A1), (4096, 1), (8192, 1)],
                   region := [(0, { valid := true, base := BitVec.ofNat 52 hubSramBase, limit := BitVec.ofNat 52 (hubSramBase + 0x1FFFFF),
                                    attr := 0x37 })] })]
    harts := [(0, { bound := true, ctx := 3 }), (1, { bound := true, ctx := 3 })]
    quota := [(24, 64)]
    owner := [(0, 3), (0xC0, 3), (0x2000, 3)]
    grants := [(0, 16), (0xC0 * 258, 16), (0x2000 * 258, 16)] }

/-! ### Pushes, records, epochs -/

theorem wit_StagingAndPushes_ready : Issues w 0 3 ∧ PushReady w 3 0 0x30 ∧
    ((0x40 : Dword).toNat % 64 = 0 ∧ (0x40 : Dword).toNat ≤ 0xBFC0) :=
  ⟨by unfold Issues; decide, ⟨by decide, by decide +kernel, 0, by decide, by decide⟩, by decide⟩

/-- ZSTG (R42): a doubleword of the staging buffer, or a trap where imm[11:3] is not 0. -/
theorem test_zstg : (after (.zstg 0 0 0x1122 7) w).hart 0 = { w.hart 0 with staging := [(7, 0x1122)] } ∧
    ((after (.zstg 0 0 0x1122 8) w).hart 0).trap = some .illegal := by decide +kernel

theorem wit_StagingAndPushes_unblock :
    let s := w.setHart 0 { w.hart 0 with blocked := some (.push 5 0x30 []) }
    hartCtx s 0 = some 3 ∧ (s.hart 0).stopped = false ∧ pushStatus s 3 0 0x30 = 0 ∧ pushRoom s 3 0 0x30 0 = true := by decide +kernel

/-- Without a free tag the push holds the hart, and ZTPUSH returns REFUSED (R43, R44). -/
theorem wit_StagingAndPushes_noRoom : let s := { w with quota := [] }
    Issues s 0 3 ∧ pushRoom s 3 0 0x30 (pushStatus s 3 0 0x30) = false ∧
    ((after (.zpush 0 5 0x30) s).hart 0).blocked.isSome = true ∧ tget 0 ((after (.ztpush 0 5 0x30) s).hart 0).x 5 = 0x8000000000000000 :=
  ⟨by unfold Issues; decide, by decide, by decide +kernel, by decide +kernel⟩

/-- A push to an engine that does not exist completes at once (R43). -/
theorem wit_StagingAndPushes_atOnce : Issues w 0 3 ∧ pushStatus w 3 0 0x40 ≠ 0 ∧ pushRoom w 3 0 0x40 (pushStatus w 3 0 0x40) = true ∧
    (∃ i, i < 1024 ∧ tfind w.tags (tagDie 0 (pushEng 0x40) * 1024 + i) = none) ∧
    bit (fieldLE (stagingBytes (w.hart 0)) 0 8) 31 = false :=
  ⟨by unfold Issues; decide, by decide, by decide +kernel, ⟨0, by decide, by decide⟩, by decide⟩

theorem wit_VectorBlockPushes : Issues w 0 3 ∧ vecBay w 3 0 = some 0 ∧ vecRefuses w 3 0 = 0 ∧ (w.vec 0).owner = none ∧ (w.vec 0).stop = 0 ∧
    vecWords (w.vec 0) < 512 ∧ enabled w (pageOf 11 0) = true ∧ tagFree w 3 0 (tagDie 0 (pushEng 0)) = true ∧
    (after (.zvec 0 0 0 0x19) w).vec 0 = { w.vec 0 with owner := some 0, q := [.word 0x19] } ∧ vecBay w 3 1 = none :=
  ⟨by unfold Issues; decide, by decide +kernel⟩

/-- ZSUM (R68): the largest value of the latest block. -/
theorem wit_RecordsAndSummaries_sum : let s := w.setVec 0 { w.vec 0 with last := some { max := 0x3F80 } }
    Issues s 0 3 ∧ engKind (pushEng 0) = .bay ∧ s.bayCtx 0 = some 3 ∧ tget 0 ((after (.zsum 0 5 0 0) s).hart 0).x 5 = 0x3F80 :=
  ⟨by unfold Issues; decide, by decide +kernel⟩

/-- ZCACK of the record at index 255 (R58): its tag is free and the expected phase flips. -/
theorem wit_RecordsAndSummaries_ack :
    let s := { w with tags := [(9, { ctx := 3, hart := 0, recorded := true })] }.setHart 0 { w.hart 0 with ring := [9], head := 255 }
    Issues s 0 3 ∧ ringIndex (s.hart 0) 9 = some 255 ∧ ((after (.zcack 0 1) s).hart 0).phase = false ∧ (after (.zcack 0 1) s).tags = [] ∧
    ((after (.zcack 0 2) s).hart 0).trap = some .illegal ∧ ((after (.zcwait 0 5 8) s).hart 0).blocked = some (.cwait 5 8) :=
  ⟨by unfold Issues; decide, by decide +kernel⟩

/-- An acknowledged abort (R66): the next epoch, and the flag is clear. -/
theorem wit_EpochAcknowledgement :
    let s := w.setCtx 3 { w.ctx 3 with st := .aborted, ackPending := true }
    let s := s.setFlag 5 { set := true }
    Issues s 0 3 ∧ (s.ctx 3).st = .aborted ∧ (s.ctx 3).ackPending = true ∧ ctxIdle s 3 = true ∧
    ((after (.epochIncrement 3) s).ctx 3).epoch = 6 ∧ ((after (.epochIncrement 3) s).flag 5).set = false ∧
    ((after (.zeack 0 5) w).hart 0).x = [(5, 5)] :=
  ⟨by unfold Issues; decide, by decide +kernel⟩

/-! ### Mladaz -/

theorem wit_ZsyncRefusals : Issues w 0 3 ∧ bits (1 : Dword).toNat 16 8 = (flagForm 0 false).code ∧ syncCheck w 3 (flagForm 0 false) 1 0 ≠ 0 ∧
    (after (.fset 0 5 1 0) w).flags = [] :=
  ⟨by unfold Issues; decide, by decide +kernel⟩

theorem wit_FlagOperationsAndWaits : SyncReaches w 0 3 0 0 (flagForm 0 false) 5 ∧ (w.flag 5).set = false ∧ (w.flag 5).waiters = [] ∧
    (w.ctx 3).st = .run ∧ (w.flag 5).mark = false ∧ ((after (.fset 0 5 0 0) w).flag 5).set = true ∧
    SyncReaches w 0 3 0x40000 0 (flagForm 4 true) 5 ∧ ((after (.fwait 0 5 0x40000 0) w).flag 5).waiters.length = 1 :=
  ⟨by unfold SyncReaches Issues; decide, by decide, by decide, by decide, by decide, by decide +kernel,
   by unfold SyncReaches Issues; decide, by decide +kernel⟩

/-- A second set of a flag counts in COALESCE, which stops at 0xFFFF (R258). -/
theorem wit_FlagOperationsAndWaits_again : let s := w.setFlag 5 { set := true, coalesce := 0xFFFF }
    SyncReaches s 0 3 0 0 (flagForm 0 false) 5 ∧ (s.flag 5).set = true ∧ ((after (.fset 0 5 0 0) s).flag 5).coalesce = 0xFFFF ∧
    ((after (.fwaitc 0 5 0x50000 0) s).flag 5).set = false :=
  ⟨by unfold SyncReaches Issues; decide, by decide +kernel⟩

def flagWait (h seq : Nat) (clears : Bool) : WaitEnt :=
  { who := .hart h, ctx := 3, vid := 0, clears := clears, arg := 0, noTmo := false, seq := seq }

/-- A set releases the WAIT_SET waiter and the oldest clearing waiter, which clears the flag (R259). -/
theorem wit_WaitsEnd_handsOver : let s := w.setFlag 5 { waiters := [flagWait 0 0 true, flagWait 1 1 false, flagWait 1 2 true] }
    (s.flag 5).set = false ∧ (s.flag 5).waiters.find? (·.clears) = some (flagWait 0 0 true) ∧
    (((flagSet s 5 3 { eng := 0, op := 0 }).1.flag 5).waiters = [flagWait 1 2 true]) := by decide +kernel

theorem wit_WaitsEnd_timeout :
    let s := (w.setFlag 5 { waiters := [flagWait 0 0 true] }).setHart 0 { w.hart 0 with blocked := some (.sync 5) }
    (allWaits s).find? (fun x => x.who == .hart 0 && !x.noTmo) = some (flagWait 0 0 true) ∧ (s.hart 0).blocked = some (.sync 5) ∧
    (∀ p ∈ s.credits, ∀ v ∈ p.2.waiters, v.who ≠ .hart 0) ∧ ((after (.waitTimeout (.hart 0)) s).hart 0).blocked = none := by decide +kernel

/-- Nine quiet reports make a round (R278). -/
theorem wit_WaitsEnd_round : let s := w.setCtx 3 { w.ctx 3 with dlQuiet := [0, 1, 2, 3, 4, 5, 6, 7] }
    dieQuiet s 8 3 = true ∧ 8 * 64 + 3 ∉ s.touched ∧ 8 ∉ (s.ctx 3).dlQuiet ∧ (s.ctx 3).dlQuiet.length = 8 ∧
    ((after (.dlDieReport 8 3) s).ctx 3).dlRun = 1 ∧ dieQuiet w 1 3 = true ∧ 1 * 64 + 3 ∉ w.touched ∧
    ((after (.dlDieReport 1 3) w).ctx 3).dlQuiet = [1] := by decide +kernel

theorem wit_WaitsEnd_deadlock : let s := w.setCtx 3 { w.ctx 3 with dlRun := 100 }
    (s.ctx 3).st = .run ∧ (s.ctx 3).stopped = false ∧ (s.ctx 3).dlWindow.toNat ≤ (s.ctx 3).dlRun ∧ (s.ctx 3).dlPolicy = false ∧
    s.syncEvq.length < 256 ∧ ((after (.deadlock 3) s).ctx 3).stopped = true ∧ (after (.deadlock 3) s).syncEvq.length = 1 := by
  decide +kernel

theorem wit_WaitsEnd_lend : 0 * 64 + 3 ∉ w.lends ∧ (∃ b, b / 32 = 0 ∧ w.bayCtx b = some 3 ∧ b ∉ w.svc.bays) ∧
    (after (.pwrLendStart 0 3) w).lends = [3] ∧ ∀ b, b / 32 = 0 → w.bayCtx b = some 3 → b ∉ w.svc.bays → bayIdle w b = true :=
  ⟨by decide, ⟨0, by decide⟩, by decide +kernel, fun b hb hc _ => by
    have : ∀ b, b < 32 → w.bayCtx b = some 3 → bayIdle w b = true := by decide +kernel
    exact this b (by omega) hc⟩

/-- A configuration block of a barrier of cores 0 and 1 of saltern 0 (R261): GEN_INIT 4, indices 32 and 33 of word 0 of the mask. -/
def barBlock : List Byte := toLE 16 4 ++ toLE 8 (3 * 2 ^ 32) ++ List.replicate 232 0

theorem wit_Barriers_conf : let s := w.setRaw (coreMemAddr 0 0x100) barBlock
    SyncReaches s 0 3 0x101000 0x100 (barForm 0x10 16 false) 0 ∧ (s.barrier 0).waiters = [] ∧
    parseBarConf s 3 (s.raw (coreMemAddr (hartCore 0) 0x100) 256) = some (4, { mask := [32, 33] }) ∧
    ((after (.bconf 0 5 0x101000 0x100) s).barrier 0).gen = 4 :=
  ⟨by unfold SyncReaches Issues; decide +kernel, by decide +kernel⟩

/-- The last arrival makes the next generation (R264); a second one of the same core goes one lap ahead (R263). -/
theorem wit_Barriers_arrive :
    let s := w.setBarrier 0 { conf := { mask := [32, 33] }, gen := 4, arr := [33] }
    let u := w.setBarrier 0 { conf := { mask := [32, 33] }, gen := 4, arr := [32] }
    SyncReaches s 0 3 0x111000 0 (barForm 0x11 0 false) 0 ∧ isParticipant (s.barrier 0).conf (participant (hartEng 0)) = true ∧
    (s.barrier 0).arr.length + 1 = expected (s.barrier 0).conf ∧ ((after (.barr 0 5 0x111000 0) s).barrier 0).gen = 5 ∧
    ((after (.barr 0 5 0x111000 0) u).barrier 0).lap = [32] ∧ ((after (.bwait 0 5 0x121000 4) u).hart 0).blocked = some (.sync 5) ∧
    1 ≤ genDiff (s.barrier 0).gen 3 ∧ ((after (.bwait 0 5 0x121000 3) u).hart 0).blocked = none :=
  ⟨by unfold SyncReaches Issues; decide +kernel, by decide +kernel⟩

/-- Produce and consume (R268, R269): the bounds 0 and CAPACITY, and a fault beyond them. -/
theorem wit_CreditChannels : let s := w.setCredit 0 { cap := 4, p := 3 }
    SyncReaches s 0 3 0x212000 1 (credForm 0x21 31 false true) 0 ∧ (s.credit 0).faulted = false ∧ (s.credit 0).waiters = [] ∧
    ((after (.cprod 0 5 0x212000 1) s).credit 0).p = 4 ∧ ((after (.cprod 0 5 0x212000 2) s).credit 0).faulted = true ∧
    ((after (.cprod 0 5 0x212000 2) s).credit 0).p = 3 ∧ ((after (.ccons 0 5 0x222000 3) s).credit 0).c = 3 ∧
    ((after (.cwaitc 0 5 0x242000 4) s).hart 0).blocked = some (.sync 5) ∧ ((after (.cwaitc 0 5 0x242000 2) s).credit 0).c = 2 ∧
    SyncReaches s 0 3 0x202000 9 (credForm 0x20 30 false false) 0 ∧ ((after (.cconf 0 5 0x202000 9) s).credit 0).cap = 9 :=
  ⟨by unfold SyncReaches Issues; decide +kernel, by decide +kernel, by decide +kernel, by decide +kernel, by decide +kernel,
   by decide +kernel, by decide +kernel, by decide +kernel, by decide +kernel, by unfold SyncReaches Issues; decide +kernel,
   by decide +kernel⟩

theorem wit_SyncRegisters : isWarden w (.hart 256) = true ∧ accLive w (.hart 256) = true ∧ mapBad w 0 0 0x21 = false ∧
    tget 0 ((after (.syncMapWrite (.hart 256) 0x21) w).ctx 0).map 0 = 0x21 ∧ mapBad w 0 0 0x80021 = true ∧
    (after (.syncMapWrite (.hart 256) 0x80021) w).ctxs = w.ctxs ∧ accCtx w (.hart 0) = some 3 ∧ isWarden w (.hart 0) = false ∧
    regGet (after (.snap (.hart 0) 0x80000000) w) syncPage 0x64 = 0x80000000 := by decide +kernel

theorem wit_SyncRegisters_queue : let s := { w with syncEvq := [{ ctx := 3, code := 2, info := 7 }] }
    isWarden s (.hart 256) = true ∧ accLive s (.hart 256) = true ∧ (after (.syncEvqRead (.hart 256)) s).syncEvq = [] ∧
    tget 0 (after (.syncEvqRead (.hart 256)) s).readVal 256 = 7 := by decide +kernel

/-! ### Operations -/

/-- A block product of 1 × 1 over one crust, operands stored in F8W form (codes 9), D in BF16 (R113); `w1x` adds bits to word 1. -/
def pmmBody (op w1x : Nat) : List Byte :=
  toLE 8 op ++ toLE 8 (0x99 + 2 ^ 40 + w1x) ++ toLE 8 (512 * 2 ^ 16 + 1024 * 2 ^ 32) ++ toLE 40 0

def anOp (e hdr : Nat) (body : List Byte) : Op :=
  { tag := 7, ctx := 3, hart := 0, epoch := 5, engine := e, hdr := BitVec.ofNat 64 hdr, body := body }

/-- A pan descriptor that the checks of R117 accept, and one with a reserved bit set. -/
theorem test_panCheck : panCheck (pmmBody 1 0) = 0 ∧ panCheck (pmmBody 1 (2 ^ 19)) = 2 ∧ panCheck (pmmBody 3 0) = 1 := by decide +kernel

/-- A DNOP of engine 0x030 at the head of queue 0. -/
def dnopOp (hdr : Nat) : Op := anOp 0x30 hdr (toLE 64 0)

theorem wit_DescriptorHeads : let s := w.setQueue 0x30 0 [dnopOp 0]
    engineServes s 0x30 = true ∧ s.queue 0x30 0 = dnopOp 0 :: [] ∧ (dnopOp 0).phase = 0 ∧ headerOk51 (dnopOp 0).hdr = true ∧
    engineCheck s (dnopOp 0) = 0 ∧ bit (dnopOp 0).hdr.toNat 31 = false ∧ bit (dnopOp 0).hdr.toNat 30 = false ∧
    bit (dnopOp 0).hdr.toNat 28 = false ∧ ((after (.descHead 0x30 0) s).queue 0x30 0).map (·.phase) = [2] := by decide +kernel

/-- A fenced head waits while an earlier descriptor of its queue runs (R49, R52). -/
theorem wit_DescriptorHeads_fence : let s := (w.setQueue 0x30 0 [dnopOp (2 ^ 28)]).setRun 0x30 0 (dnopOp 0)
    headerOk51 (dnopOp (2 ^ 28)).hdr = true ∧ engineCheck s (dnopOp (2 ^ 28)) = 0 ∧ bit (dnopOp (2 ^ 28)).hdr.toNat 28 = true ∧
    fenceHolds s 0x30 0 = true ∧ ((after (.descHead 0x30 0) s).queue 0x30 0).map (·.phase) = [1] := by decide +kernel

/-- A head with WAIT_EN on flag 0 of the context (R49, R52): it waits while the flag is clear. -/
theorem wit_DescriptorHeads_wait : let s := w.setQueue 0x30 0 [dnopOp (2 ^ 30)]
    headerOk51 (dnopOp (2 ^ 30)).hdr = true ∧ engineCheck s (dnopOp (2 ^ 30)) = 0 ∧ waitStatus s 3 = 0 ∧
    translate s 3 (bits (dnopOp (2 ^ 30)).hdr.toNat 32 14) = some 5 ∧ homeOff s (bits (dnopOp (2 ^ 30)).hdr.toNat 32 14) 5 = false ∧
    (s.flag 5).set = false ∧ ((after (.descHead 0x30 0) s).queue 0x30 0).map (·.phase) = [3] ∧
    ((after (.descHead 0x30 0) (s.setFlag 5 { set := true })).queue 0x30 0).map (·.phase) = [2] := by decide +kernel

/-- A reserved bit of the header ends the descriptor at the head (R51). -/
theorem wit_DescriptorHeads_bad : let s := w.setQueue 0x30 0 [dnopOp (2 ^ 27)]
    engineServes s 0x30 = true ∧ headerOk51 (dnopOp (2 ^ 27)).hdr = false ∧ bit (dnopOp (2 ^ 27)).hdr.toNat 31 = false ∧
    (after (.descHead 0x30 0) s).queue 0x30 0 = [] ∧ ((after (.descHead 0x30 0) s).hart 0).ring = [7] := by decide +kernel

theorem wit_DescriptorHeads_start : let s := w.setQueue 0x30 0 [{ dnopOp 0 with phase := 2 }]
    engineServes s 0x30 = true ∧ s.run 0x30 0 = none ∧ 0 < queueCount 0x30 ∧ turnOf s 0x30 0 = true ∧ fabricDozes s 0x30 = false ∧
    (after (.descStart 0x30 0) s).queue 0x30 0 = [] ∧ ((after (.descStart 0x30 0) s).run 0x30 0).isSome = true ∧
    tget 0 (after (.descStart 0x30 0) s).rr 0x30 = 1 := by decide +kernel

/-- Completion: the record at index 0 of the ring of hart 0 carries tag 7, KIND 2 and status 0 (R58, R60, R61). -/
theorem wit_OperationEnds : let s := w.setRun 0x30 0 { dnopOp 0 with kind := 2, done := true }
    s.run 0x30 0 = some { dnopOp 0 with kind := 2, done := true } ∧ ((after (.opComplete 0x30 0) s).hart 0).ring = [7] ∧
    fieldLE ((after (.opComplete 0x30 0) s).raw (ringAddr 0 0) 32) 0 2 = 7 := by decide +kernel

/-- CREC_ERR_ONLY suppresses the record of a success (R57): the tag is free. -/
theorem wit_OperationEnds_quiet :
    let s := { w with tags := [(7, { ctx := 3, hart := 0, recorded := false })] }.setRun 0x30 0 { dnopOp (2 ^ 29) with done := true }
    bit (dnopOp (2 ^ 29)).hdr.toNat 29 = true ∧ (after (.opComplete 0x30 0) s).tags = [] ∧
    ((after (.opComplete 0x30 0) s).hart 0).ring = [] := by decide +kernel

/-- The trailer of a block at the head, and a stopped block whose words go (R174, R177). -/
theorem wit_OperationEnds_block : let o := { anOp 0 0 (toLE 8 0) with kind := 1 }
    let s := w.setVec 0 { w.vec 0 with q := [.close o], sum := { max := 1 } }
    let u := w.setVec 0 { w.vec 0 with q := [.word 0, .word 1, .close o], stop := 0x4001 }
    engKind 0 = .bay ∧ (s.vec 0).q = [.close o] ∧ (s.vec 0).fault = none ∧ ((after (.opComplete 0 1) s).vec 0).last = some { max := 1 } ∧
    (u.vec 0).stop ≠ 0 ∧ (u.vec 0).q ≠ [] ∧ ((after (.opBoundaryStop 0 1) u).vec 0).q = [.close o] := by decide +kernel

theorem wit_OperationEnds_stop : let o := { dnopOp 0 with kind := 2, stop := 9 }
    let s := w.setRun 0x30 0 o
    s.run 0x30 0 = some o ∧ o.done = false ∧ o.stop ≠ 0 ∧ bit o.hdr.toNat 31 = false ∧ (after (.opBoundaryStop 0x30 0) s).run 0x30 0 = none := by
  decide +kernel

/-! ### Pans -/

/-- Bay 0 runs a pan operation at a stage. -/
def panS (body : List Byte) (p : Pan) : State := (w.setRun 0 0 { anOp 0 1 body with phase := 2 }).setPan 0 p

/-- The planes of A and of B hold one element of 1.0, flake scales of 1 and crust scales of 1. -/
def pmmMem (s : State) : State :=
  -- A(0, 0) = B(0, 0) = 1.0 in E5M2 (0x3C), flake scales 0x7F, crust scales 1.0 (0x3F80)
  let d := panDesc (pmmBody 1 0)
  let pa := operandPlanes fF8W true false false 1 128 d.aBase
  let pb := operandPlanes fF8W true true false 1 128 d.bBase
  let put := fun (s : State) (p : Planes) => (((s.setRaw (bayAddr 0 p.elems) [0x3C]).setRaw (bayAddr 0 p.flakes) [0x78]).setRaw
    (bayAddr 0 p.crusts) [0x80, 0x3F])
  put (put s pa) pb

/-- The run of the one tile: 1.0 × 1.0 in the accumulator (R102, R104). -/
theorem test_pmm : ((after (.pmm 0) (after (.panTileStart 0) (pmmMem (panS (pmmBody 1 0) { stage := 1, acc := [0], bit := [0] })))).pan 0).acc =
    [0x3F800000] := by decide +kernel

theorem wit_PanOpensAndRunsATile :
    ∃ x, panOp (panS (pmmBody 1 0) { stage := 1 }) 0 = some x ∧
      (decide (x.2.op ≠ 0 ∧ x.2.op = 1 ∧ x.2.aStream = false ∧ x.2.bStream = false ∧ x.2.evict = false) &&
       scalesKnown (w.pan 0) && ((after (.panTileStart 0) (panS (pmmBody 1 0) { stage := 1 })).pan 0).stage == 2) = true :=
  some_of_any (by decide +kernel)

theorem wit_PanOpensAndRunsATile_gather :
    ∃ x, panOp (panS (pmmBody 2 2048) { stage := 2 }) 0 = some x ∧ (decide (x.2.op = 2 ∧ x.2.evict = true)) = true :=
  some_of_any (by decide +kernel)

/-- A streamed operand of A: R118. -/
theorem wit_PanOpensAndRunsATile_stream :
    let s := panS (toLE 8 1 ++ toLE 8 (0x99 + 2 ^ 40) ++ toLE 8 0 ++ toLE 8 (2 ^ 12) ++ toLE 32 0) { stage := 1 }
    ∃ x, panOp s 0 = some x ∧ (decide (x.2.op ≠ 0 ∧ x.2.aStream = true) && ((after (.panSlotReady 0) s).pan 0).ready) = true :=
  some_of_any (by decide +kernel)

/-- The ends of a tile: a saturated crust asks for a replay; a tile without an event is the last of one crust (R127). -/
theorem wit_PanTilesAndOperationsEnd :
    let sat : SatCrust := { operand := 0, crust := 0, amax := 0x7F000000 }
    let s := panS (pmmBody 1 0) { stage := 3, a := { sat := [sat] } }
    let u := panS (pmmBody 1 0) { stage := 3 }
    ∃ x, panOp s 0 = some x ∧ (decide (x.2.op ≠ 0 ∧ (s.pan 0).a.sat ≠ [] ∧ (u.pan 0).capMiss = false ∧ (u.pan 0).outliers = [] ∧
      x.2.tiles ≤ (u.pan 0).tile + 1) && ((after (.panTileEnd 0) s).pan 0).stage == 4 && ((after (.panTileEnd 0) u).pan 0).stage == 6) = true :=
  some_of_any (by decide +kernel)

theorem wit_PanTilesAndOperationsEnd_more :
    let s := panS (toLE 8 1 ++ toLE 8 (0x99 + 2 * 2 ^ 40) ++ toLE 48 0) { stage := 3 }
    ∃ x, panOp s 0 = some x ∧ (decide ((s.pan 0).tile + 1 < x.2.tiles) && ((after (.panTileEnd 0) s).pan 0).stage == 1) = true :=
  some_of_any (by decide +kernel)

/-- A replay due, with its corrected scale known. -/
theorem wit_PanTilesAndOperationsEnd_replay :
    let s := panS (pmmBody 1 0) { stage := 4, a := { sat := [{ operand := 0, crust := 0, amax := 0, scale := some 0x4000 }] } }
    ∃ x, panOp s 0 = some x ∧ (decide (x.2.op ≠ 0) && crustsKnown (s.pan 0).a.sat && crustsKnown (s.pan 0).b.sat) = true :=
  some_of_any (by decide +kernel)

/-- A PNOP, a dense output, a scale that does not come, and a guarded granule (R105, R129, R230). -/
theorem wit_PanTilesAndOperationsEnd_ends :
    let o := panS (pmmBody 0 0) { stage := 1 }
    let u := panS (pmmBody 1 0) { stage := 6, acc := [0x3F800000], bit := [0] }
    let t := panS (toLE 8 1 ++ toLE 8 (0x90 + 2 ^ 40) ++ toLE 48 0) { stage := 2, a := { scale := { asked := true } } }
    let g := panS (pmmBody 1 0) { stage := 2, guardHit := true }
    (∃ x, panOp o 0 = some x ∧ (x.2.op == 0 && (after (.pnop 0) o).pan 0 == { stage := 9 }) = true) ∧
    (∃ x, panOp u 0 = some x ∧ (decide (x.2.dFmt < 2 ∧ (u.pan 0).d.scale.asked = false) &&
      rdByte (after (.panOutput 0) u).mem (bayAddr 0 0x10001) == 0x3F) = true) ∧
    (∃ x, panOp t 0 = some x ∧ (panAsks (t.pan 0) && ((after (.panSalTimeout 0) t).run 0 0).any (·.status == 0x2001)) = true) ∧
    ∃ x, panRun g 0 = some x ∧ ((g.pan 0).guardHit && ((after (.memResidency 0) g).run 0 0).any (·.status == 0x5003)) = true :=
  ⟨some_of_any (by decide +kernel), some_of_any (by decide +kernel), some_of_any (by decide +kernel), some_of_any (by decide +kernel)⟩

/-- A quantised output: at stage 6 with a known scale, and at stage 8 with every corrected scale known (R131). -/
theorem wit_PanTilesAndOperationsEnd_quant :
    let body := toLE 8 1 ++ toLE 8 (0x99 + 2 ^ 40) ++ toLE 8 (512 * 2 ^ 16 + 1024 * 2 ^ 32) ++ toLE 8 3 ++ toLE 32 0
    let s := panS body { stage := 6, d := { scale := { asked := true, known := true } } }
    let u := panS body { stage := 8 }
    (∃ x, panOp s 0 = some x ∧ decide (2 ≤ x.2.dFmt ∧ (outFmt x.2.dFmt).2.1 = false ∧ (s.pan 0).d.scale.known = true) = true) ∧
    ∃ x, panOp u 0 = some x ∧ (decide (x.2.op ≠ 0) && crustsKnown (u.pan 0).d.sat) = true :=
  ⟨some_of_any (by decide +kernel), some_of_any (by decide +kernel)⟩

/-! ### Salinometers -/

def anEntry : SalEntry := { step := 4, hist := [0x4000], headroom := 1, histLen := 4, policy := 0, zeroFrac := 255, uflow := 1, satSteps := 2 }

def aReq (unit operand : Nat) : SalReq := { engine := 0, unit := unit, operand := operand, ctx := 3, tid := 8, step := 4, fmt := 1 }

def salS (x : Sal) : State := w.setSal 0 { x with entries := [(salKey 3 8, anEntry)] }

/-- R151 with E = 2.0 and H = 1 in E4M3: 4.0 ≤ 61,440 × 448 × 2^C, the smallest C is −22, whose BF16 code is 0x3480. -/
theorem wit_SalinometerAnswers : let s := salS { reqs := [aReq 0 0] }
    salServes s 0 = true ∧ nextRequest s 0 = some (0, aReq 0 0, []) ∧ tfind (s.sal 0).entries (salKey 3 8) = some anEntry ∧
    (after (.salScaleRequest 0) s).sal 0 = { s.sal 0 with reqs := [] } ∧
    ((after (.salScaleRequest 0) s).pan 0).a.scale = { c := 0x3480, eff := 1, cold := false, asked := true, known := true } := by
  decide +kernel

theorem wit_SalinometerAnswers_more :
    let f := { aReq 1 0 with answer := some (0x3F80, 1, true) }
    let o : SalObs := { ctx := 3, tid := 8, step := 4, obs := { amax := 0x40400000, n := 5 }, corr := false, replayed := 1, late := 0,
                        cold := false, statOnly := false }
    let c := { aReq 0 0 with crust := 2, amax := 0x7F000000, base := 0x3F80 }
    let s := salS { reqs := [f], obs := [o], corr := [c] }
    takeFirst (fun r : SalReq => r.answer.isSome) (s.sal 0).reqs = some (f, []) ∧ (s.sal 0).obs = o :: [] ∧ (s.sal 0).corr = c :: [] ∧
    ((after (.salFetchDone 0) s).vec 0).stqScale.c = 0x3F80 ∧
    (tfind ((after (.salObservation 0) s).sal 0).entries (salKey 3 8)).any (fun e => e.pendN == 5 && e.pendAmax == 0x40400000) = true ∧
    ((after (.salCorrection 0) s).sal 0).corr = [] := by decide +kernel

/-- A step closes with a pending amax of 3.0 (R147, R150): 3.0 joins the history. -/
theorem wit_ClosingAStep : let e := { anEntry with pend := true, pendAmax := 0x40400000, pendN := 5 }
    e.pend = true ∧ e.staged = none ∧ e.invalidate = false ∧ e.clearRung = false ∧ e.headroom ≤ 7 ∧
    (closeStep e 5).1.hist = [0x4040, 0x4000] ∧ (closeStep anEntry 5).1.hist = [0x4000] ∧
    (closeStep { anEntry with invalidate := true } 5).1.hist = [] := by decide +kernel

/-- A command of context 3 on its tensor 8 at salinometer 0. -/
theorem wit_SalinometerCommandsAndTransfers : let s := regPut (salS {}) (salPage 0) 0x4C 8
    let a := Acc.hart 0
    accLive s a = true ∧ salCtx s a 0 = some 3 ∧ (s.sal 0).xfer = none ∧ salHome (regGet s (salPage 0) 0x4C) = 0 ∧
    tfind (s.sal 0).entries (salKey 3 8) = some anEntry ∧ bits (0x100 : Word).toNat 8 3 = 1 ∧
    ((after (.lookup a 0 0x100) s).sal 0).window = some (salKey 3 8) ∧
    (tfind ((after (.invalidate a 0 0x300) s).sal 0).entries (salKey 3 8)).any (·.invalidate) = true ∧
    (tfind ((after (.clearRung a 0 0x400) s).sal 0).entries (salKey 3 8)).any (·.clearRung) = true ∧
    ((after (.salFree a 0 0x500) s).sal 0).entries = [] ∧
    (tfind ((after (.salStage a 0 0x200) s).sal 0).entries (salKey 3 8)).any (·.staged.isSome) = true := by decide +kernel

/-- An export to hub SRAM, one to an address that is not aligned, and the end of a transfer (R164, R167). -/
theorem wit_SalinometerCommandsAndTransfers_xfer :
    let a := Acc.hart 0
    let s := regPut (regPut (salS {}) (salPage 0) 0xA8 0x40) (salPage 0) 0xAC 0x1100
    let u := regPut s (salPage 0) 0xA8 0x41
    let addr := (regGet s (salPage 0) 0xA8).toNat + (regGet s (salPage 0) 0xAC).toNat * 2 ^ 32
    bit (0x10000 : Word).toNat 16 = true ∧ bit (0x10000 : Word).toNat 0 = false ∧ addr % 64 = 0 ∧
    salCtx s a (regField s (salPage 0) 0x50 0 6) = some 3 ∧
    extCheck (plainWrite s (salPage 0) 0xB0 0x10000) 3 [{ addr := addr, len := 64 + 64 * (entriesOf s 0 3).length, write := true }] = 0 ∧
    ((after (.salExport a 0 0x10000) s).sal 0).xfer = some (3, true) ∧
    ((after (.salExport a 0 0x10000) u).sal 0).xfer = some (3, false) ∧
    regField (after (.xferDone 0) (after (.salExport a 0 0x10000) u)) (salPage 0) 0xB4 0 2 = 3 := by decide +kernel

/-- An import of the block that an export of the entry has left (R165, R166): the entry comes back at its next step. -/
theorem wit_SalinometerCommandsAndTransfers_import :
    let a := Acc.hart 0
    let e := { anEntry with step := 5 }
    let s := regPut (regPut (w.setRaw (hubSramBase + 0x40) (blockHeader 0 1 ++ recordOf 8 e)) (salPage 0) 0xA8 0x40) (salPage 0) 0xAC 0x1100
    let h := load (plainWrite s (salPage 0) 0xB0 0x10001) (hubSramBase + 0x40) 64
    fieldLE h 0 2 = 1 ∧ bits (fieldLE h 0 4) 16 4 = 0 ∧ fieldLE h 4 4 ≤ 16384 ∧ crc32c (h.take 60) = BitVec.ofNat 32 (fieldLE h 0x3C 4) ∧
    ((after (.salImport a 0 0x10001) s).sal 0).xfer = some (3, true) ∧
    tfind ((after (.salImport a 0 0x10001) s).sal 0).entries (salKey 3 8) = some e := by decide +kernel

/-! ### The spec's worked examples of formats -/

/-- The flake of chapter 03: C = 0.125, eight BF16 values and 24 zeros; RNE to F4. -/
def exFlake : List (Val × Nat) :=
  ([0x3ED0, 0xBF98, 0x3D80, 0x4010, 0xBF40, 0x3EA0, 0x3FC0, 0xBD40].map fun c => (decodeFmt fBF16 c, 0x1F40)) ++
    List.replicate 24 (Val.zero, 0)

theorem test_flake_example : quantFlake fF4 .rne 0x3E00 (exFlake.map (·.1)) exFlake =
    { s8 := 0x84, codes := [2, 0xD, 0, 7, 0xC, 2, 6, 8] ++ List.replicate 24 0, sat := false, nonfin := false } := by decide +kernel

/-- Under SR with the bits 0x1F40, element 0 takes code 3. -/
theorem test_flake_sr : (quantFlake fF4 .sr 0x3E00 (exFlake.map (·.1)) exFlake).codes.head? = some 3 := by decide +kernel

/-- R77: 0x08, 0x78, 0x84 and 0xF7. -/
theorem test_s8 : (s8Val 0x08).eq (Val.pow2 (-14)) = true ∧ (s8Val 0x78).eq (Val.ofInt 1) = true ∧ (s8Val 0x84).eq (Val.ofInt 3) = true ∧
    (s8Val 0xF7).eq (Val.ofInt 61440) = true := by decide +kernel

/-- Chapter 07: 13.5 under C = 2^−5 (0x3D00) in CRUST_ONLY F8 is the tie 432, code 0x7E. -/
theorem test_crust_only : quantCrust fF8 .rne 0x3D00 (decodeFmt fBF16 0x4158) 0 = (0x7E, false) := by decide +kernel

/-- Chapter 04: the first engine word 0x0000_5AFF_D231_4260 of the up-projection block. -/
theorem test_pan_fields : let d := panDesc (toLE 8 1 ++ toLE 8 0x00005AFFD2314260 ++ toLE 48 0)
    d.aFmt = 0 ∧ d.bFmt = 6 ∧ d.bT = true ∧ d.fallback = 0 ∧ d.outEn = true ∧ d.rot = 1 ∧ d.kseg = 512 ∧ d.m = 211 ∧ d.n = 256 ∧
    d.crusts = 90 ∧
    d.tiles = 23 ∧ slotBytes 0 false false 256 512 = 262144 := by decide +kernel

/-- Chapter 02: six harts on a queue of 64 entries have 11, 11, 11, 11, 10 and 10. -/
theorem test_grants : (defaultGrants 64 [0, 1, 2, 3, 4, 5]).map (·.2) = [11, 11, 11, 11, 10, 10] := by decide

/-- Chapter 18: PAGE_ID of the vector page of bay 113; and the participant index of the time unit (R4). -/
theorem test_page_id : bayEng 113 = 0x311 ∧ pageOf 11 113 * 4096 = 0x2C71000 ∧ regView w (.hart 256) (pageOf 11 113) 0 = 0x000B0071 ∧
    participant 0x830 = 560 := by decide +kernel

/-- Chapter 14: the steering term for 20 ppm is 171,799 units. -/
theorem test_slew : slewUnits 20 = 171799 := by decide

/-- Chapter 09: wrap and fault of a credit channel with CAPACITY 4. -/
theorem test_credit_wrap : let s := w.setCredit 0 { cap := 4, p := 0xFFFFFFFE, c := 0xFFFFFFFC }
    ((after (.cprod 0 5 0x212000 3) s).credit 0).faulted = true ∧ ((after (.cprod 0 5 0x212000 2) s).credit 0).p = 0 ∧
    ((after (.ccons 0 5 0x222000 4) (after (.cprod 0 5 0x212000 2) s)).credit 0).c = 0 := by decide +kernel

/-! ### Vector words -/

/-- Bay 0 with one word at the head of its queue. -/
def vS (word : Nat) (v : Vec) : State := w.setVec 0 { v with q := [.word (BitVec.ofNat 64 word)] }

/-- A word of form V. -/
def wV (opc vd vs1 vs2 vs3 m imm : Nat) : Nat := opc + vd * 2 ^ 8 + vs1 * 2 ^ 13 + vs2 * 2 ^ 18 + vs3 * 2 ^ 23 + m * 2 ^ 28 + imm * 2 ^ 32

/-- A tile register of one value. -/
def filled (x : Word) : List Word := List.replicate 1024 x

theorem wit_VectorControlAndMaskWords :
    (∀ o ∈ [wV 0 0 0 0 0 0 0, wV 1 0 0 0 0 0 0x3FF, wV 5 0 1 0 0 0 0], vecHead (vS o {}) 0 = some o) ∧
    formV (wV 0 0 0 0 0 0 0) false false false false 0 = true ∧ formV (wV 1 0 0 0 0 0 0x3FF) false false false false 10 = true ∧
    formX (wV 2 0 12 0 0 0 7 % 2 ^ 64) = true ∧ formV (wV 5 0 1 0 0 0 0) false true false false 0 = true ∧
    ((after (.vshape 0) (vS (wV 1 0 0 0 0 0 0x23) {})).vec 0).rows = 4 ∧
    ((after (.vshape 0) (vS (wV 1 0 0 0 0 0 0x23) {})).vec 0).cols = 2 ∧
    slotF ((after (.vsetx 0) (vS (wV 2 0 12 0 0 0 7) {})).vec 0) 0 12 = 7 := by decide +kernel

/-- Masks: a comparison of equal lanes, an OR, the lower triangle, and the lanes that are not 0 (R183, R184). -/
theorem wit_VectorControlAndMaskWords_masks : let v : Vec := { v := [(1, filled 0x3F800000), (2, filled 0x40000000)], k := [(2, 5)] }
    (∀ o ∈ [wV 0x40 3 1 2 0 0 2, wV 0x41 3 1 2 0 0 1, wV 0x42 3 0 0 0 0 0, wV 0x43 3 1 0 0 0 0],
      vecHead (vS o v) 0 = some o ∧ maskDst o = true) ∧
    kreg ((after (.vmtri 0) (vS (wV 0x42 3 0 0 0 0 0) v)).vec 0) 3 =
      BitVec.ofNat 1024 ((List.range 32).map fun i => (2 ^ (i + 1) - 1) * 2 ^ (32 * i)).sum := by decide +kernel

theorem wit_VectorArithmeticWords : let v : Vec := { v := [(1, filled 0x3F800000), (2, filled 0x40000000)], rows := 2, cols := 2 }
    (∀ o ∈ [0x10, 0x11, 0x12, 0x14, 0x15, 0x18, 0x30, 0x31, 0x32, 0x33, 0x34, 0x35],
      vecHead (vS (wV o 3 1 2 0 0 0) v) 0 = some (wV o 3 1 2 0 0 0) ∧ formV (wV o 3 1 2 0 0 0) true true true false 0 = true ∧
      wOpc (wV o 3 1 2 0 0 0) = o) ∧
    (∀ o ∈ [0x16, 0x17, 0x1A, 0x39, 0x3A], formV (wV o 3 1 0 0 0 0) true true false false 0 = true) ∧
    formV (wV 0x13 3 1 2 1 0 0) true true true true 0 = true ∧
    (formV (wV 0x20 3 1 0 0 0 12) true true false false 4 && decide (wImm (wV 0x20 3 1 0 0 0 12) ≤ 12)) = true ∧
    formV (wV 0x19 3 0 0 0 0 0xFFFFFFFF) true false false false 32 = true ∧ formV (wV 0x36 3 1 0 0 0 31) true true false false 5 = true ∧
    ((after (.vadd 0) (vS (wV 0x10 3 1 2 0 0 0) v)).vec 0).v.length = 3 ∧
    laneOf ((after (.vadd 0) (vS (wV 0x10 3 1 2 0 0 0) v)).vec 0) 3 33 = 0x40400000 ∧
    laneOf ((after (.vadd 0) (vS (wV 0x10 3 1 2 0 0 0) v)).vec 0) 3 2 = 0 := by decide +kernel

/-- VFMA rounds once (R179): (1 + 2^−23)² − 1 − 2^−22 is 2^−46. -/
theorem test_vfma : let v : Vec := { v := [(1, filled 0x3F800001), (2, filled 0xBF800002)], rows := 1, cols := 1 }
    laneOf ((after (.vfma 0) (vS (wV 0x13 3 1 1 2 8 0) v)).vec 0) 3 0 = 0x28800000 := by decide +kernel

/-- Integer words wrap at 32 bits, and VISHR fills with zeros (R180). -/
theorem test_integer_words : let v : Vec := { v := [(1, filled 0xFFFFFFFF), (2, filled 2)], rows := 1, cols := 1 }
    laneOf ((after (.viadd 0) (vS (wV 0x30 3 1 2 0 0 0) v)).vec 0) 3 0 = 1 ∧
    laneOf ((after (.vimul 0) (vS (wV 0x32 3 1 2 0 0 0) v)).vec 0) 3 0 = 0xFFFFFFFE ∧
    laneOf ((after (.vishr 0) (vS (wV 0x37 3 1 0 0 0 31) v)).vec 0) 3 0 = 1 ∧
    laneOf ((after (.vi2f 0) (vS (wV 0x39 3 1 0 0 0 0) v)).vec 0) 3 0 = 0xBF800000 := by decide +kernel

theorem wit_VectorPermutations : let v : Vec := { v := [(1, (List.range 1024).map fun i => BitVec.ofNat 32 (0x3F800000 + i)), (2, filled 2)], rows := 2, cols := 2 }
    (∀ o ∈ [wV 0x50 3 1 2 0 0 0, wV 0x51 3 1 2 0 0 0, wV 0x52 3 1 0 0 0 0, wV 0x53 3 1 0 0 0 1, wV 0x54 3 1 0 0 0 1, wV 0x55 3 1 0 0 0 1],
      vecHead (vS o v) 0 = some o) ∧
    formV (wV 0x50 3 1 2 0 0 0) true true true false 0 = true ∧ formV (wV 0x53 3 1 0 0 0 1) true true false false 5 = true ∧
    laneOf ((after (.vrotc 0) (vS (wV 0x53 3 1 0 0 0 1) v)).vec 0) 3 33 = 0x3F800020 ∧
    laneOf ((after (.vtrans 0) (vS (wV 0x52 3 1 0 0 0 0) v)).vec 0) 3 1 = 0x3F800020 := by decide +kernel

theorem wit_VectorPermutationsReductionsAndUpdates : let v : Vec := { v := [(1, filled 0x3F800000), (2, filled 0)], rows := 2, cols := 4 }
    (∀ o ∈ [wV 0x60 3 1 0 0 0 0, wV 0x61 3 1 0 0 0 0, wV 0x62 3 1 0 0 0 0], vecHead (vS o v) 0 = some o ∧ redLegal o = true) ∧
    v.rows ≤ 32 ∧ v.cols ≤ 32 ∧
    laneOf ((after (.vredr 0) (vS (wV 0x60 3 1 0 0 0 0) v)).vec 0) 3 32 = 0x40800000 ∧
    laneOf ((after (.vredf 0) (vS (wV 0x62 3 1 0 0 0 0) v)).vec 0) 3 0 = 0x41000000 ∧
    formV (wV 0x70 3 1 2 0 0 8) true true true false 4 = true ∧ bits (wImm (wV 0x70 3 1 2 0 0 8)) 0 2 ≠ 3 ∧
    bit (wImm (wV 0x70 3 1 2 0 0 8)) 2 = false ∧ formV (wV 0x80 3 1 2 0 0 0) true true true false 1 = true ∧
    wVs2 (wV 0x80 3 1 2 0 0 0) ≠ wVd (wV 0x80 3 1 2 0 0 0) ∧ formV (wV 0x90 3 1 2 4 0 0) true true true true 1 = true ∧
    laneOf ((after (.vscan 0) (vS (wV 0x70 3 1 2 0 0 8) v)).vec 0) 3 3 = 0x40800000 ∧
    tget 0 ((after (.vscan 0) (vS (wV 0x70 3 1 2 0 0 8) v)).vec 0).carry 1 = 0x40800000 := by decide +kernel

/-- A dense BF16 slot of one 2 × 2 piece at offset 0x1000. -/
def denseV (fmt : Nat) : Vec :=
  { rows := 2, cols := 2, v := [(1, filled 0x3F800000)],
    slots := [(0, 0x1000), (3, BitVec.ofNat 32 (1 + 2 ^ 16)), (4, BitVec.ofNat 32 fmt), (8, 2), (9, 2)] }

theorem wit_VectorLoadsAndStores : let v := denseV 0
    let s := (vS (wV 0xA0 3 0 0 0 0 0) v).setRaw (bayAddr 0 0x1006) [0x80, 0x3F]
    vecHead s 0 = some (wV 0xA0 3 0 0 0 0 0) ∧ formM (wV 0xA0 3 0 0 0 0 0) false = true ∧ slotDense (slotOf v 0) false = true ∧
    slotDense (slotOf v 0) true = true ∧ denseFault v (slotOf v 0) (wV 0xA0 3 0 0 0 0 0) = none ∧
    laneOf ((after (.vld 0) s).vec 0) 3 33 = 0x3F800000 ∧
    ofLE ((after (.vst 0) (vS (wV 0xA1 1 0 0 0 0 0) v)).raw (bayAddr 0 0x1006) 2) = 0x3F80 := by decide +kernel

/-- A quantised slot in CRUST_ONLY F8 (code 5): its planes hold lane (0, 0); VSTQ asks salinometer 0 for its crust. -/
theorem wit_VectorLoadsAndStores_quant : let v := { denseV 5 with slots := (denseV 5).slots.take 1 ++ [(2, 0x8000)] ++ (denseV 5).slots.drop 1 }
    let t := slotOf v 0
    let o := wV 0xA3 1 0 0 0 0 0
    slotQuant t false = true ∧ slotQuant t true = true ∧ crustIn (slotPlanes t) (128 * wTr o) (128 * wTc o) = true ∧ wVd o ≤ 16 ∧ o < 2 ^ 64 ∧
    (∀ l ∈ [0, 1, 32, 33], planesIn (slotPlanes t) (tileElem o l).1 (tileElem o l).2 = true) ∧
    ((after (.vstq 0) (vS o v)).sal 0).reqs.length = 1 := by decide +kernel

theorem wit_VectorLoadsAndStores_answer :
    let s := w.setVec 0 { denseV 5 with stq := some 0xA3, stqScale := { asked := true, known := true, c := 0x3F80, eff := 1 }, q := [.word 0xA3] }
    let u := w.setVec 0 { denseV 5 with stq := some 0xA3, q := [.word 0xA3] }
    (s.vec 0).stq = some (BitVec.ofNat 64 0xA3) ∧ (s.vec 0).stqScale.known = true ∧ (s.vec 0).stop = 0 ∧ (u.vec 0).stq.isSome = true ∧
    (u.vec 0).stqScale.known = false ∧ ((after (.vecSalTimeout 0) u).vec 0).stop = 0x4004 := by decide +kernel

theorem wit_VectorWaitsSignalsAndIllegalWords : let wait := wV 3 0 0 0 0 0 0
    let s := (vS wait {}).setFlag 5 { set := true }
    vecHead s 0 = some wait ∧ s.bayCtx 0 = some 3 ∧ formV wait false false false false 16 = true ∧ vidClass (bits (wImm wait) 0 14) = 0 ∧
    translate s 3 (bits (wImm wait) 0 14) = some 5 ∧ homeOff s (bits (wImm wait) 0 14) 5 = false ∧ bits (wImm wait) 14 2 = 0 ∧
    ((after (.vwait 0) s).vec 0).q = [] ∧ ((after (.vwait 0) (vS wait {})).vec 0).held = true ∧
    ((after (.vsig 0) (vS (wV 4 0 0 0 0 0 0) {})).flag 5).set = true := by decide +kernel

/-- A reserved opcode, and a field that VADD does not use (R173). -/
theorem wit_IllegalWords : reservedOpc (wOpc 0x07) = true ∧ vecHead (vS 0x07 {}) 0 = some 0x07 ∧
    ((after (.vnop 0) (vS 0x07 {})).vec 0).stop = 0x4001 ∧ formV (wV 0x10 3 1 2 1 0 0) true true true false 0 = false ∧
    ((after (.vadd 0) (vS (wV 0x10 3 1 2 1 0 0) {})).vec 0).stop = 0x4001 := by decide +kernel

theorem wit_ParameterWrites : let o := wV 6 1 8 0 0 0 0x3F800000
    vecHead (vS o {}) 0 = some o ∧ wOpc o = 6 ∧ formX o = true ∧ wSlotX o = 1 ∧ wField o = 8 ∧
    ((after (.vsetp 0) (vS o {})).vec 0).params = [(40, 0x3F800000)] ∧ formX (wV 6 1 9 0 0 0 1) = true ∧ wField (wV 6 1 9 0 0 0 1) = 9 ∧
    ((after (.vsetp 0) (vS (wV 6 1 9 0 0 0 1) {})).vec 0).stop = 0x4001 := by decide +kernel

/-- A mask register from the last 128 bytes of the slice, and one byte further. -/
theorem wit_MaskMoves : let v : Vec := { slots := [(0, BitVec.ofNat 32 (sliceBytes - 128)), (8, 1), (9, 1)] }
    let o := wV 0xA4 2 0 0 0 0 0
    vecHead (vS o v) 0 = some o ∧ formM o true = true ∧ slotPlace (slotOf v (wSlotM o)) = true ∧ bits o 8 3 ≠ 0 ∧
    slotF v (wSlotM o) 0 + 128 * wImm o + 128 ≤ sliceBytes ∧ kreg ((after (.vmld 0) (vS o v)).vec 0) 2 = 0 ∧
    sliceBytes < slotF v 0 0 + 128 * wImm (wV 0xA4 2 0 0 0 0 1) + 128 ∧
    ((after (.vmld 0) (vS (wV 0xA4 2 0 0 0 0 1) v)).vec 0).stop = 0x4002 ∧
    slotPlace (slotOf { v with slots := [] } 0) = false ∧ ((after (.vmst 0) (vS (wV 0xA5 0 0 0 0 0 0) {})).vec 0).stop = 0x4003 ∧
    rdByte (after (.vmst 0) (vS (wV 0xA5 0 0 0 0 0 0) v)).mem (bayAddr 0 (sliceBytes - 1)) = 0xFF := by decide +kernel

/-! ### DMA and memory -/

/-- A DMA operation that runs on engine 0x030: words 0 to 7 of its descriptor. -/
def dmaS (w0 w1 w2 w3 w4 w6 w7 : Nat) : State :=
  w.setRun 0x30 0 { anOp 0x30 w0 (toLE 8 w0 ++ toLE 8 w1 ++ toLE 8 w2 ++ toLE 8 w3 ++ toLE 8 w4 ++ toLE 8 0 ++ toLE 8 w6 ++ toLE 8 w7) with
    kind := 2, phase := 2, rgn := (w.ctx 3).region }

/-- One row of 8 bytes from hub SRAM to hub SRAM. -/
def aMove : State := (dmaS 1 (hubSramBase + 0x100) (hubSramBase + 0x203) 0 (8 + 2 ^ 32) 0 0).setRaw (hubSramBase + 0x100) (toLE 8 0x1122334455667788)

theorem wit_DmaOperations : ∃ x, dmaOp aMove 0x30 = some x ∧
    (decide (x.2.rsigEn = false ∧ x.2.op = 1 ∧ startCheck aMove x.1 x.2 = 0 ∧ x.2.remote = 0 ∧ x.2.crypt = 0 ∧ x.2.sfmt = 0 ∧ x.2.dfmt = 0 ∧
      x.2.rows = 1 ∧ x.2.cols = 8) && (after (.dmove 0x30 .clean 0 none) aMove).rawLE (hubSramBase + 0x203) 8 == 0x1122334455667788) = true :=
  some_of_any (by decide +kernel)

theorem wit_DmaOperations_hub : InHub (hubSramBase + 0x100) 8 ∧ InHub (hubSramBase + 0x203) 8 :=
  ⟨fun i hi => (by decide : ∀ i, i < 8 → rangeOf (hubSramBase + 0x100 + i) = .hubSram) i hi,
   fun i hi => (by decide : ∀ i, i < 8 → rangeOf (hubSramBase + 0x203 + i) = .hubSram) i hi⟩

/-- A move from an address that no range holds ends with MEM_UNMAPPED; a fill repeats its pattern; a DNOP ends (R224, R242, R245). -/
theorem wit_DmaOperations_others :
    let bad := dmaS 1 0x4000_0000_0000 (hubSramBase + 0x203) 0 (8 + 2 ^ 32) 0 0
    let fill := dmaS 2 0 (hubSramBase + 0x203) 0 (6 + 2 ^ 32) 0xA1B2C3D4 0
    let nop := dmaS 0 0 0 0 0 0 0
    (∃ x, dmaOp bad 0x30 = some x ∧ (decide (x.2.op = 1 ∧ x.2.rsigEn = false ∧ startCheck bad x.1 x.2 ≠ 0)) = true) ∧
    (∃ x, dmaOp fill 0x30 = some x ∧ (decide (x.2.op = 2 ∧ startCheck fill x.1 x.2 = 0 ∧ x.2.dfmt = 0) &&
      (after (.dfill 0x30) fill).rawLE (hubSramBase + 0x203) 7 == 0xC3D4A1B2C3D4) = true) ∧
    ∃ x, dmaOp nop 0x30 = some x ∧ (x.2.op == 0 && ((after (.dnop 0x30) nop).run 0x30 0).any (·.done)) = true :=
  ⟨some_of_any (by decide +kernel), some_of_any (by decide +kernel), some_of_any (by decide +kernel)⟩

/-- A remote signal without a neighbour, and a read and a signal of a neighbour that no job knows (R301). -/
theorem wit_DmaOperations_remote :
    let lone := dmaS 0 0 0 0 0 0 (2 ^ 32)
    let sig := dmaS 0 0 0 (9 + 2 ^ 20) 0 0 (2 ^ 32)
    let rd := dmaS 1 (hubSramBase + 0x100) (hubSramBase + 0x203) (9 + 2 ^ 20) (8 + 2 ^ 32) 0 0
    (∃ x, dmaOp lone 0x30 = some x ∧ (x.2.op == 0 && x.2.rsigEn && x.2.remote == 0) = true) ∧
    (∃ x, dmaOp sig 0x30 = some x ∧ (x.2.op == 0 && x.2.rsigEn && x.2.remote != 0 &&
      (match route sig 3 x.2.node with | .inl _ => true | .inr _ => false)) = true) ∧
    ∃ x, dmaOp rd 0x30 = some x ∧ (x.2.op == 1 && x.2.remote == 1 && startCheck rd x.1 x.2 == 0 &&
      (match route (crossSides rd 0x30 3 x.2) 3 x.2.node with | .inl _ => true | .inr _ => false)) = true :=
  ⟨some_of_any (by decide +kernel), some_of_any (by decide +kernel), some_of_any (by decide +kernel)⟩

/-- A warden hart. -/
abbrev wd : Acc := .hart 256

/-- Region entry 1 of context 4 over 64 KiB of hub SRAM at 0x1100_0020_0000; the same over context 3's region is refused (R226). -/
theorem wit_RegionsAndStackFences :
    let stage := fun (lo : Word) => regPut (regPut (regPut (regPut (regPut w (memPage 8) 0x90 0x104) (memPage 8) 0x94 lo) (memPage 8) 0x98 0x1100)
      (memPage 8) 0x9C lo) (memPage 8) 0xA0 0x1100
    let s := stage 0x200000
    let u := stage 0
    Warden s wd ∧ rgnCtx s = 4 ∧ rgnIdx s = 1 ∧ regionBad s 4 (stagedRegion s 7) = false ∧
    tfind ((after (.memRgnAttr wd 7) s).ctx 4).region 1 = some (stagedRegion s 7) ∧ regionBad u 4 (stagedRegion u 7) = true ∧
    (after (.memRgnAttr wd 7) u).ctxs = u.ctxs ∧ isWarden w (.hart 0) = false ∧
    regGet (after (.memRgnSel wd 0x003) w) (memPage 8) 0xA4 = 0x37 :=
  ⟨⟨by decide, by decide⟩, by decide +kernel⟩

/-- Fence, end of the fence, retraining of stack 2 (R247, R248). -/
theorem wit_RegionsAndStackFences_stack : let s := after (.stackFence wd 2) w
    let u := after (.stackFenced 2) s
    let t := after (.stackUnfence wd 2) u
    Warden w wd ∧ (w.stack 2).training = false ∧ (s.stack 2).fenceReq = true ∧ (s.stack 2).fenced = false ∧ stackOwners s 2 = [] ∧
    (u.stack 2).fenced = true ∧ (t.stack 2).training = true ∧ after (.stackFence wd 2) t = t ∧
    (after (.stackTrainDone 2 true) t).stack 2 = {} ∧ ((after (.stackTrainDone 2 false) t).stack 2).trainFail = true :=
  ⟨⟨by decide, by decide⟩, by decide +kernel⟩

theorem wit_StoresAndPatrols : (w.stack 0).fenced = false ∧ (w.stack 0).fenceReq = false ∧ (w.stack 0).training = false ∧
    rangeOf (0 * stackBytes + (w.stack 0).scrub * 64) = .stack 0 ∧ entryOwner w (0 * stackBytes + (w.stack 0).scrub * 64) = none ∧
    w.svc.log.length < 1024 ∧ (5 : Nat) ∉ w.svc.bays ∧ rangeOf (bayAddr 5 (tget 0 w.sramScrub 5 * 64)) = .slice 5 0 ∧
    ((after (.scrubStack 0 .clean false) w).stack 0).scrub = 1 ∧
    ((after (.scrubStack 0 (.uncorrectable 2) false) w).svc.log.map (·.words.headD 0)) = [0x5007] ∧
    tget 0 (after (.scrubSram 5 .clean false) w).sramScrub 5 = 1 := by decide +kernel

/-- BAR2 with a HOSTW region of 2 MiB of stack 0 for context 4, whose stored bytes are no ciphertext (CLEAR). -/
theorem wit_StoresAndPatrols_bar2 :
    let s := w.setCtx 4 { st := .run, region := [(0, { valid := true, base := 0, limit := 0x1FFFFF, attr := 0x1F })] }
    let b : List Byte := [1, 2]
    bar2Addr s 0x100 = 0x100 ∧ (∀ x ∈ blocks 0x100 2, hostWritable s x = true ∧ fencedAt s x = false) ∧
    (∀ i, i < 2 → keyAt s (0x100 + i) = 0 ∧ tget 0 s.memTag ((0x100 + i) / 64) = 0) ∧ b ≠ [] ∧
    (after (.hostBar2Write 0x100 b) s).rawLE 0x100 2 = 0x201 ∧ (∃ x ∈ blocks (bar2Addr s 0x200000) 2, hostWritable s x = false) ∧
    (after (.hostBar2Write 0x200000 b) s).mem = s.mem ∧
    (after (.hostBar2Read 0x100 2) (after (.hostBar2Write 0x100 b) s)).host.lastRead = [1, 2] :=
  ⟨by decide +kernel, by decide +kernel, by decide +kernel, by decide, by decide +kernel, ⟨0x200000, by decide +kernel⟩, by decide +kernel,
   by decide +kernel⟩

/-- A BAR2 read beyond the stacks: the window base 23 × 64 GiB and the offset reach 0x180_0000_0000. -/
theorem wit_StoresAndPatrols_beyond : let s := regPut w (pageOf 1 0) 0x4C 0x18
    0x180_0000_0000 < bar2Addr s 0 + 4 ∧ (after (.hostBar2Read 0 4) s).host.lastRead = [0, 0, 0, 0] := by decide +kernel

/-! ### Griros -/

/-- Link 0 at a state, lit by module 0, its page enabled, of node 7. -/
def linkS (l : Link) : State :=
  let s := regPut (regPut w (grlPage 0) 8 1) jobPage 0x40 7
  { s with boot := { s.boot with stable := [0], lit := [0] } }.setLink 0 l

theorem wit_LinkBringUp : LinkMayRise (linkS {}) 0 ∧ ((linkS {}).link 0).state = 0 ∧ (0 : Nat) ∉ (linkS {}).boot.engCal ∧
    ((after (.lightPresent 0) (linkS {})).link 0).state = 1 ∧ ((after (.calibrateDone 0) (linkS { state := 1 })).link 0).state = 2 ∧
    ((after (.trainDone 0) (linkS { state := 2 })).link 0).state = 3 ∧
    ((after (.trainTimeout 0) (linkS { state := 2 })).link 0).retryWait = true ∧
    policyMissing { linkS { state := 3 } with sec := { w.sec with lc := 1 } } = false ∧
    ((after (.keyx 0 9 0 false true true) (linkS { state := 3 })).link 0).cause = 3 ∧
    ((after (.lightLoss 0) (linkS { state := 6 })).link 0).cause = 1 ∧ linkHold (regPut (linkS {}) (grlPage 0) 0x48 1) 0 = true ∧
    ((after (.trainRetry 0) (linkS { retryWait := true })).link 0).retryWait = false := by
  refine ⟨by unfold LinkMayRise; decide +kernel, ?_⟩; decide +kernel

/-- A calibrated engine of a link that was dark goes straight to training, and an engine of the MACs is calibrated as it is lit (R31). -/
theorem wit_LinkBringUp_engines : let s := { linkS {} with boot := { (linkS {}).boot with engCal := [0], stable := [0, 6], lit := [0, 6] } }
    LinkMayRise s 0 ∧ (0 : Nat) ∈ s.boot.engCal ∧ ((after (.lightPresent 0) s).link 0).state = 2 ∧ engineFed s 12 = true ∧
    (12 : Nat) ∉ s.boot.engCal ∧ (after (.calibrateDone 12) s).boot.engCal = [0, 12] := by
  refine ⟨by unfold LinkMayRise; decide +kernel, ?_⟩; decide +kernel

/-- The peer's digest equals this side's, or differs from it (R300). -/
theorem wit_LinkBringUp_agree : let s := linkS { state := 4 }
    (s.link 0).state = 4 ∧ (∃ p : Digest, p.d = (ownDigest s 0).d) ∧ ∃ p : Digest, p.d ≠ (ownDigest s 0).d :=
  ⟨by decide +kernel, ⟨_, rfl⟩, ⟨{ d := ~~~(ownDigest (linkS { state := 4 }) 0).d, groups := [] }, fun h =>
    absurd (congrArg (BitVec.getLsbD · 0) h) (by rw [BitVec.getLsbD_not]; simp)⟩⟩

/-- The image of a management flit with sequence number `seq`, in clear. -/
def aFlit (seq : BitVec 24) : Flit := { ftype := 0, seq := seq, ack := 0xFFFFFF, payload := [0] }
def flitOf (f : Flit) : List Byte := flitImage none 0 f

/-- Images that pass the CRC: one in order, one out of order, one of a reserved type; and one that does not (R288, R294). -/
theorem wit_LinkFlitsAndRegisters : let s := linkS { state := 3 }
    let b : List Byte := List.replicate 252 0
    3 ≤ (s.link 0).state ∧ (∀ f, flitCrcOk (flitOf f) = true) ∧ flitCrcOk (b ++ toLE 4 ((crc32c b).toNat + 1)) = false ∧
    (opened s 0 (flitOf (aFlit 5))).any (fun f => f.seq != (s.link 0).rxSeq) = true ∧
    (opened s 0 (flitOf (aFlit 0))).any (fun f => f.seq == (s.link 0).rxSeq && f.ftype == 0 && !f.reservedBits && !f.nak &&
      decide (f.crCount.toNat ≤ tget 0 (s.link 0).spent f.crVc.toNat)) = true ∧
    (opened s 0 (flitOf { aFlit 0 with ftype := 4 })).any (fun f => f.seq == (s.link 0).rxSeq && decide (4 ≤ f.ftype.toNat)) = true := by
  refine ⟨by decide +kernel, fun f => flitCrcOk_flitImage 0 f, ?_, by decide +kernel, by decide +kernel, by decide +kernel⟩
  rw [flitCrcOk_append List.length_replicate]
  have := (crc32c (List.replicate 252 0)).isLt
  simp only [beq_eq_false_iff_ne]; omega

/-- A flit in clear under keys: its tag is wrong (R288). -/
theorem wit_LinkFlitsAndRegisters_tag : let s := linkS { state := 6, keyTx := some ⟨0, 0⟩, keyRx := some ⟨0, 0⟩ }
    (s.link 0).keyed = true ∧ opened s 0 (flitOf (aFlit 0)) = none := by decide +kernel

/-- Replays up to the limit of GRL_CFG, recalibration in two halves, and the warden's writes to an UP link. -/
theorem wit_LinkFlitsAndRegisters_regs :
    let f : SentFlit := { hdr := aFlit 3, mtype := 1 }
    let s := linkS { state := 6, lanes := 0xFF, retryBuf := [f], peer := 9 }
    (s.link 0).retryBuf ≠ [] ∧ (s.link 0).replays + 1 < retryLimit s 0 ∧ ((after (.flitReplayTimeout 0) s).link 0).replays = 1 ∧
    retryLimit s 0 ≤ ((s.setLink 0 { s.link 0 with replays := 15 }).link 0).replays + 1 ∧
    ((after (.rekey wd 0 8) s).link 0).rekeying = true ∧ ((after (.reagree wd 0 2) s).link 0).state = 4 ∧
    ((after (.hold wd 0 1) s).link 0).cause = 7 ∧ ((after (.recalNow wd 0 4) s).link 0).lanes = 0xF0 ∧
    regField (regPut s (grlPage 0) 0x48 0x10000) (grlPage 0) 0x48 16 16 ≠ 0 ∧ nodeId s ≤ (s.link 0).peer.toNat ∧
    ((after (.recalHalfDone 0 true) (linkS { state := 7, recalHalf := 2, lanes := 0x0F })).link 0).lanes = 0xFF ∧
    ((after (.recalHalfDone 0 true) (linkS { state := 7, recalHalf := 2, lanes := 0x0F, agreeDue := true })).link 0).state = 4 ∧
    ((after (.recalHalfDone 0 false) (linkS { state := 7, recalHalf := 1, lanes := 0xF0 })).link 0).degraded = true ∧
    ((after (.flitCountRekey 0) (linkS { state := 6, txCount := 2 ^ 48 })).link 0).rekeying = true := by decide +kernel

theorem wit_LinkFlitsAndRegisters_warden : let s := linkS { state := 6, lanes := 0xFF }
    Warden s wd ∧ isWarden s .host = false ∧ (s.link 0).rekeying = false :=
  ⟨⟨by decide +kernel, by decide +kernel⟩, by decide +kernel⟩

/-- Link 0 is UP and belongs to job slot 1 of context 3, with neighbour node 9; a ring of two members. -/
def jobS (msgs : List Msg) : State :=
  let s := regPut (linkS { state := 6, lanes := 0xFF, peer := 9, rxMsgs := msgs }) (grlPage 0) 0x4C 0x41
  s.setJob 1 { valid := true, ctx := 3, tag := 0x55, abortProp := true, timeOk := true, waitUp := some [], nbrNode := [(0, 9)], nbrLinks := [(0, 1)],
               rings := [(0, { size := 2, pos := 0, prev := 9, next := 9 })] }

def aMsg (vc mt : Nat) : Msg := { vc := vc, mtype := mt, jobTag := 0x55, addr := hubSramBase + 0x40, len := 4, data := [1, 2, 3, 4] }

theorem wit_MessagesOfAJob_write : let s := jobS [aMsg 1 1]
    MsgHere s 0 1 (aMsg 1 1) 1 ∧ (aMsg 1 1).sigEn = false ∧ (rxXfer s (s.link 0).peer.toNat 1 (aMsg 1 1)).refused = false ∧
    extCheck s (linkCtx s 1) [{ addr := (aMsg 1 1).addr, len := (aMsg 1 1).len, write := true }] = 0 ∧
    (after (.grlWrite 0) s).rawLE (hubSramBase + 0x40) 4 = 0x04030201 :=
  ⟨⟨by decide +kernel, by decide +kernel⟩, by decide +kernel⟩

/-- An extent that no region covers is refused before any data (R301). -/
theorem wit_MessagesOfAJob_extent : let m := { aMsg 1 1 with addr := hubSramBase + 0x400000, len := 0, data := [], xferBytes := 64 }
    let s := jobS [m]
    MsgHere s 0 1 m 1 ∧ extCheck s (linkCtx s 1) [{ addr := m.addr, len := m.xferBytes, write := true }] ≠ 0 ∧
    (rxXfer (after (.grlWrite 0) s) (s.link 0).peer.toNat 1 m).refused = true :=
  ⟨⟨by decide +kernel, by decide +kernel⟩, by decide +kernel⟩

theorem wit_MessagesOfAJob_read : let m := { aMsg 1 2 with data := [] }
    let s := jobS [m]
    MsgHere s 0 2 m 1 ∧ m.len ≠ 0 ∧ (rxXfer s (s.link 0).peer.toNat 1 m).refused = false ∧
    extCheck s (linkCtx s 1) [{ addr := m.addr, len := m.len, write := false }] = 0 :=
  ⟨⟨by decide +kernel, by decide +kernel⟩, by decide +kernel⟩

theorem wit_MessagesOfAJob_data : let m := { aMsg 2 3 with xfer := 7 }
    let x : TxXfer := { engine := 0x30, xfer := 7, slot := 1, node := 9, links := [0], read := true, want := [(m.addr, 4, 0), (m.addr + 4, 4, 0)] }
    let s := { jobS [m] with txXfers := [x] }
    MsgHere s 0 3 m 1 ∧ s.txXfers = [x] ∧ x.read = true ∧ x.slot = 1 ∧ x.xfer = m.xfer ∧
    (∃ p ∈ x.want, ¬(p.1 = m.addr ∧ p.2.1 = m.len)) ∧ (after (.readData 0) s).txXfers.map (·.want.length) = [1] :=
  ⟨⟨by decide +kernel, by decide +kernel⟩, rfl, rfl, rfl, rfl, ⟨(hubSramBase + 0x44, 4, 0), by decide, by decide⟩, by decide +kernel⟩

theorem wit_MessagesOfAJob_signal : let m := { aMsg 1 4 with data := [], len := 0, addr := 0, mark := true }
    let s := jobS [m]
    let u := jobS [{ m with jobTag := 0x56 }]
    MsgHere s 0 4 m 1 ∧ translate s (linkCtx s 1) m.sigId = some 5 ∧ mapRemote s (linkCtx s 1) m.sigId = true ∧ homeOff s m.sigId 5 = false ∧
    (s.flag 5).set = false ∧ ((after (.grlSignal 0) s).flag 5).mark = true ∧
    headMsg (u.link 0) 4 = some { m with jobTag := 0x56 } ∧ msgSlot (popMsg u 0 { m with jobTag := 0x56 }) 0 { m with jobTag := 0x56 } = none ∧
    (after (.grlSignal 0) u).flags = [] :=
  ⟨⟨by decide +kernel, by decide +kernel⟩, by decide +kernel⟩

/-- TIME: stamps 0, 100, 200, 220 give offset (100 − 20) / 2 = 40 and round trip 220 − 100 = 120 (R303). -/
theorem wit_JobsOfGriros : let s := jobS []
    let x := { s with time := { s.time with tb := [(3, { ns := 220 })] } }.setLink 0 { s.link 0 with t1 := some 0 }
    (s.link 0).state = 6 ∧ linkSlot s 0 = some 1 ∧ (s.jobSlot 1).valid = true ∧ (s.jobSlot 1).abortProp = true ∧ (s.ctx 3).st = .run ∧
    (s.ctx 3).epoch = 5 ∧ grlStamp x = 220 ∧ ((after (.time 0 true 100 200) x).link 0).offset = 40 ∧
    ((after (.time 0 true 100 200) x).link 0).rtt = 120 ∧ ((after (.timeExchange 0) s).link 0).t1 = some (grlStamp s) ∧
    ((after (.time 0 true 3000 3000) x).jobSlot 1).timeOk = false ∧ ((after (.abortNotice 0 9 0x55 5) s).ctx 3).st = .aborted ∧
    after (.abortNotice 0 9 0x55 4) s = s ∧ nodeId (after (.grlNodeId wd 0x12345) w) = 0x12345 ∧ after (.grlNodeId wd 0x12345) s = s := by
  decide +kernel

/-- A ring entry of slot 1: position 2 of 2 is refused (R320). -/
theorem wit_JobsOfGriros_ring :
    let s := fun (p : Word) => regPut (regPut (regPut (regPut (jobS []) jobPage 0x44 0x181) jobPage 0x48 2) jobPage 0x4C p) jobPage 0x50 9
    Warden (s 1) wd ∧ regField (s 1) jobPage 0x44 0 6 = 1 ∧ regField (s 1) jobPage 0x44 6 2 = 2 ∧
    tfind ((after (.grlJobW3 wd 9) (s 1)).jobSlot 1).rings 1 = some { size := 2, pos := 1, prev := 9, next := 9 } ∧
    (after (.grlJobW3 wd 9) (s 2)).jobs = (s 2).jobs ∧
    ((after (.jobAdmit wd 2) (s 1)).link 0).state = 4 ∧
    ((after (.timeRearm wd 1) ((s 1).setJob 1 { (s 1).jobSlot 1 with timeOk := false })).jobSlot 1).rearm = true :=
  ⟨⟨by decide +kernel, by decide +kernel⟩, by decide +kernel⟩

/-- A collective over 64 bytes each of hub SRAM on engine 0x030, ring 0. -/
def collS (op : Nat) : State :=
  { jobS [] with running := (dmaS op hubSramBase (hubSramBase + 0x1000) 0 (64 + 2 ^ 32) 0 0).running }

/-- Collective `op` can begin with its one operation under way. -/
def Begins (op : Nat) : Prop := ∃ x, dmaOp (collS op) 0x30 = some x ∧
    (x.2.op == op && !x.2.rsigEn && (collView (collS op) x.1 x.2).any fun v =>
      decide (collCheck (collS op) x.1 v = 0 ∧ collRoute (collS op) x.1.ctx v = 0 ∧ 2 ≤ v.size ∧ v.pos = 0 ∧ v.seals = false ∧
        (v.reads && (sealsObject v.d v.d.src || sealsPages v.d v.d.src)) = false ∧
        (v.chunk ((v.pos + 2 * v.size - 2) % v.size)).2 ≠ 0 ∧ (v.chunk ((v.pos + v.size - 1) % v.size)).2 ≠ 0)) = true

theorem wit_Collectives : Begins 0x10 ∧ Begins 0x11 ∧ Begins 0x12 ∧ Begins 0x13 :=
  ⟨some_of_any (by decide +kernel), some_of_any (by decide +kernel), some_of_any (by decide +kernel), some_of_any (by decide +kernel)⟩

/-- A broadcast at position 1, an output that no region covers, and a ring whose links are not up. -/
theorem wit_Collectives_others :
    let at1 := (collS 0x13).setJob 1 { (collS 0x13).jobSlot 1 with rings := [(0, { size := 2, pos := 1, prev := 9, next := 9 })] }
    let out := { jobS [] with running := (dmaS 0x10 hubSramBase (hubSramBase + 0x400000) 0 (64 + 2 ^ 32) 0 0).running }
    let dark := (collS 0x10).setLink 0 { state := 5, peer := 9 }
    (∃ x, dmaOp at1 0x30 = some x ∧ ((collView at1 x.1 x.2).any fun v => v.pos != 0 && collCheck at1 x.1 v == 0 &&
      collRoute at1 3 v == 0) = true) ∧
    (∃ x, dmaOp out 0x30 = some x ∧ ((collView out x.1 x.2).any fun v => collCheck out x.1 v != 0) = true) ∧
    ∃ x, dmaOp dark 0x30 = some x ∧ ((collView dark x.1 x.2).any fun v => collCheck dark x.1 v == 0 && collRoute dark 3 v != 0) = true :=
  ⟨some_of_any (by decide +kernel), some_of_any (by decide +kernel), some_of_any (by decide +kernel)⟩

theorem wit_Collectives_ends : let c : Coll := { engine := 0x30, slot := 1, ring := 0, phase := 0, hop := 1 }
    let m := { aMsg 1 5 with addr := 0, xferBytes := 1 }
    let s := { collS 0x10 with colls := [c] }.setLink 0 { state := 6, rxMsgs := [m], peer := 9 }
    let u := { w with running := (collS 0x10).running }
    MsgHere s 0 5 m 1 ∧ (∃ x, dmaOp u 0x30 = some x ∧ (collView u x.1 x.2).isNone = true) ∧ (s.ctx 3).tmo ≠ 0 ∧
    (s.run 0x30 0).any (fun op => !op.done && m.xferBytes != (collCrc (dmaDesc op.body)).toNat) = true ∧
    (after (.collData 0) s).colls = [] ∧ ((after (.collData 0) s).run 0x30 0).any (·.status == 0x7006) = true ∧
    ((after (.collTimeout 0x30) s).run 0x30 0).any (·.status == 0x6003) = true ∧
    ((after (.credscat 0x30) u).run 0x30 0).any (·.status == 0x7001) = true :=
  ⟨⟨by decide +kernel, by decide +kernel⟩, some_of_any (by decide +kernel), by decide +kernel⟩

/-! ### MACs -/

/-- MAC 0 of a group of one port, assigned to context 3, its page enabled; MAC_CFG `cfg`, frames of at most 1,522 bytes. -/
def macS (cfg : Nat) (x : Mac) : State :=
  (regPut (regPut (regPut w (macPage 0) 8 1) (macPage 0) 0x44 0x80000003) (macPage 0) 0x48 (BitVec.ofNat 32 (cfg + 1522 * 2 ^ 16))).setMac 0 x

/-- A frame of 64 bytes to a destination address, of an EtherType, with what follows; and its bytes before the FCS. -/
def aData (da et rest : List Byte) : List Byte := padTo 0 60 (da ++ [2, 0, 0, 0, 0, 9] ++ et ++ rest)
def aFrame (da et rest : List Byte) : Frame := { wire := withFcs (aData da et rest), lag := 0 }

def broadcast : List Byte := List.replicate 6 0xFF

/-- A MAC with receive ring 0 at hub SRAM, one buffer posted at hub SRAM + 0x2000. -/
def rxRing : MacRing := { base := BitVec.ofNat 52 hubSramBase, en := true, sw := 1 }
def rxMac (cfg : Nat) : State :=
  (macS cfg { up := true, rings := [(8, rxRing)] }).setRaw hubSramBase (toLE 8 (hubSramBase + 0x2000))

theorem wit_MacReceives : let s := rxMac 0x0A
    let f := aFrame broadcast [0x08, 0x00] []
    let d := aData broadcast [0x08, 0x00] []
    FrameArrives s 0 ∧ frameData f = d ∧ rxFail s 0 f = none ∧ portTag s 0 f = none ∧ (etherType d).1 ≠ 0x8808 ∧ macCfgBit s 0 2 = false ∧
    steerDecide s 0 f = (s, arrive s 0 f) ∧ hashAccepts s 0 d = true ∧ ptpEvent d = none ∧ (s.mac 0).held = [] ∧
    regField s (macPage 0) 0x48 13 3 = 0 ∧ ((after (.rxFrame 0 f) s).mac 0).ring 1 0 = { rxRing with hw := 1 } ∧
    (after (.rxFrame 0 f) s).rawLE (hubSramBase + 0x2000) 6 = 0xFFFFFFFFFFFF ∧ (after (.rxFrame 0 f) s).rawLE (hubSramBase + 8) 2 = 60 ∧
    hashAccepts (rxMac 2) 0 d = false ∧ ((after (.rxFrame 0 f) (rxMac 2)).mac 0).ring 1 0 = rxRing := by
  refine ⟨by unfold FrameArrives; decide +kernel, ?_⟩; decide +kernel

theorem wit_MacReceives_buffer : MacAlone (rxMac 0x0A) 0 ∧ BufferPosted (rxMac 0x0A) 0 0 60 hubSramBase (hubSramBase + 0x2000) := by
  refine ⟨by unfold MacAlone; decide +kernel, ?_⟩; unfold BufferPosted; decide +kernel

/-- PAUSE with 0x0100 quanta sets the timers of the eight classes; a short frame and a bad FCS are counted under their causes (R330, R333). -/
theorem wit_MacReceives_pause : let s := rxMac 0x12
    let f := aFrame [1, 0x80, 0xC2, 0, 0, 1] [0x88, 0x08] [0, 1, 1, 0]
    let d := aData [1, 0x80, 0xC2, 0, 0, 1] [0x88, 0x08] [0, 1, 1, 0]
    let bad := { f with wire := d ++ [0, 0, 0, 0] }
    (etherType d).1 = 0x8808 ∧ ofBE (slice d (etherType d).2 2) = 1 ∧ macCfgBit s 0 4 = true ∧
    tget 0 ((after (.rxFrame 0 f) s).mac 0).timers 7 = 0x100 ∧ rxFail s 0 { f with wire := f.wire.drop 1 } = some 3 ∧
    rxFail s 0 bad = some 2 ∧ rxFail s 0 { f with wire := List.replicate 1523 0 } = some 4 ∧
    (after (.rxFrame 0 bad) s).cnts.map (·.2) = [1] := by decide +kernel

/-- A frame of a STEER slot that a fabric took (R391, R398): what its checks found is noted with the request, and no ring has it. -/
theorem wit_MacReceives_steered : let f := aFrame broadcast [8, 0] []
    let a : Arrival := { slot := some 2, action := 1, offered := true, recd := some 0 }
    let s := (macS 6 { up := true, steer := some a }).setFabric 0 { recs := [(0, { mac := 0, req := 0, port := 0, stamp := 0, bytes := [] })] }
    rxOpen s 0 = true ∧ (s.mac 0).steer = some a ∧ rxFail s 0 f = none ∧ portTag s 0 f = none ∧ macPair s 0 = none ∧
    ((after (.rxFrame 0 f) s).fabric 0).recs.map (·.2.ended) = [some 0] ∧ ((after (.rxFrame 0 f) s).mac 0).held = [] ∧
    ((after (.rxFrame 0 { f with wire := f.wire.take 60 }) s).fabric 0).recs.map (·.2.ended) = [some 3] := by decide +kernel

/-- A frame of a RING slot in SLOTS mode: slot 0, enabled, whose zero mask matches everything, sends it to ring 0 (R337). -/
theorem wit_MacReceives_slots : let f := aFrame broadcast [8, 0] []
    let s := rxMac 6
    let s := s.setMac 0 { s.mac 0 with slots := [(36, 1)] }
    matchSlot (s.mac 0) (frameData f) = some 0 ∧ slotAction (s.mac 0) 0 = 0 ∧ slotRing (s.mac 0) 0 = 0 ∧ macCfgBit s 0 2 = true ∧
    steerDecide s 0 f = (s, arrive s 0 f) ∧ ((after (.rxFrame 0 f) s).mac 0).ring 1 0 = { rxRing with hw := 1 } := by decide +kernel

/-- A port with MACsec whose SC 0 is the sender's own (R340, R341): what it sends it accepts, in HASH mode with a filter that drops it. -/
def secMac : State :=
  let s := regPut (macS 2 { up := true, txAn := some 1, txPn := 7, txSak := some { key := 5, iv := 0 } }) (macPage 0) 0xA0 1
  s.setMac 0 { s.mac 0 with rxSc := [(0, { sci := txSci s 0, pn := [(1, 7)], sak := [(1, { key := 5, iv := 0 })] })] }

theorem wit_MacReceives_sec : let s := secMac
    let d := protect s 0 (aData broadcast [8, 0] [])
    let g : SecTag := { an := 1, sci := none, pn := 7, enc := true, size := 8 }
    secTag d = some g ∧ (tagSc (s.mac 0) g).isSome = true ∧ (frameSa s 0 g).isSome = true ∧ icvOk s 0 d g = true ∧
    hashAccepts s 0 (d.take 12 ++ secText s 0 d g) = false := by decide +kernel

theorem wit_MacReceives_more : let s := regPut (regPut (macS 0x43 { up := true, xoff := true }) (macPage 0) 0x7C 0x00010002) (macPage 0) 0x78 0xFFFF0001
    let h : HeldFrame := { bytes := aData broadcast [8, 0] [], len := 64, dest := 0, slot := none, sec := false, stamp := 0, cls := 0,
                           ingress := 0, nap := true }
    let u := rxMac 0x0A
    let u := u.setMac 0 { u.mac 0 with held := [h] }
    pfcOn s 0 = some (128, 64) ∧ macUsed s 0 = true ∧ (s.mac 0).xoff = true ∧ fifoBytes (s.mac 0) ≤ 64 ∧ after (.pfcRepeat 0) s = s ∧
    (u.mac 0).held = [h] ∧ (u.die 8).state = 0 ∧ h.dest < 8 ∧ ((after (.napFrameDeliver 0) u).mac 0).held = [] ∧
    fifoRoom (u.setMac 0 { u.mac 0 with held := [{ h with len := 131072 }] }) 0 = false ∧
    ((after (.pauseTimerExpire 0 3 true) (macS 3 { timers := [(11, 5)] })).mac 0).timers = [] := by decide +kernel

/-- MAC 0 with transmit ring 2 of class 2 at hub SRAM, entry 0 naming 60 bytes at hub SRAM + 0x3000. -/
def txRing : MacRing := { base := BitVec.ofNat 52 hubSramBase, en := true, sw := 1 }
def txMac (len : Nat) (x : Mac) : State :=
  (macS 0x81 { x with up := true, rings := [(2, txRing)] }).setRaw hubSramBase (toLE 8 (hubSramBase + 0x3000) ++ toLE 8 len)

theorem wit_MacSends : let s := txMac 60 {}
    MacAlone s 0 ∧ EntryFetched s 0 2 ∧ StatusWritable s 0 2 ∧ (txCheck s 0 (nextEntry s 0 2)).1 = 0 ∧
    ((after (.txStage 0 2) s).mac 0).staged.map (·.cls) = [2] ∧ (txCheck (txMac 13 {}) 0 (nextEntry (txMac 13 {}) 0 2)).1 = 0x8004 ∧
    ((after (.txStage 0 2) (txMac 13 {})).mac 0).staged = [] ∧ inFlight ((txMac 13 {}).mac 0) 2 = 0 ∧
    (after (.txStage 0 2) (txMac 13 {})).rawLE (hubSramBase + 12) 2 = 0x8004 := by
  refine ⟨by unfold MacAlone; decide +kernel, by unfold EntryFetched; decide +kernel, by unfold StatusWritable; decide +kernel, ?_⟩
  decide +kernel

def txF (cls : Nat) : TxFrame := { cls := cls, bytes := aData broadcast [8, 0] [], src := 0 }

/-- A frame of 196 bytes and its FCS on its way. -/
def longF : TxFrame := { txF 2 with bytes := padTo 0 196 (aData broadcast [8, 0] []), wire := List.replicate 200 0 }

/-- At a frame boundary: PFC first, then class 7, then the rest of a cut frame; a frame that is done; an express frame that cuts (R332). -/
theorem wit_MacSends_order : let s := txMac 60 { staged := [txF 2, txF 7] }
    let d := txMac 60 { cur := some (txF 2) }
    txOpen s 0 = true ∧ (s.mac 0).cur = none ∧ (s.mac 0).pfcPend = [] ∧ eligible s 0 7 = some (txF 7) ∧ (txF 7).ts = false ∧
    ptpEvent (txF 7).bytes = none ∧ (txF 7).reply = none ∧ (∀ g ∈ (s.mac 0).staged, g.status = 0) ∧ (s.mac 0).back = [] ∧
    ((after (.txFrameStart 0) s).mac 0).cur.map (·.cls) = some 7 ∧ ((after (.txFrameStart 0) s).mac 0).staged = [txF 2] ∧
    ((after (.txFrameStart 0) (txMac 60 { staged := [txF 2], cut := some (txF 1) })).mac 0).cur = some (txF 1) ∧
    (txF 2).entry = ((d.mac 0).ring 0 2).hw.toNat ∧ (((after (.txFrameDone 0) d).mac 0).ring 0 2).hw = 1 ∧
    ((after (.txFrameStart 0) (txMac 60 { pfcPend := [5], staged := [txF 7] })).mac 0).pfcPend = [] ∧
    ((after (.preemptVerify 0 true) s).mac 0).preempt = true ∧ ((after (.txAnSwitch 0 1 9 [5]) s).mac 0).txAn = some 1 ∧
    ((after (.txAnSwitch 0 1 9 [5]) s).mac 0).rxSc.map (·.2.sci) = [5] := by decide +kernel

/-- A long frame is cut at byte 64 of its fragment; one of which fewer than 64 bytes would be left is not (R332). -/
theorem wit_MacSends_cut : let u := txMac 60 { staged := [txF 7], cur := some longF, preempt := true }
    cutPoint longF (regField u (macPage 0) 0x48 9 2) 10 = some 64 ∧ cutPoint longF (regField u (macPage 0) 0x48 9 2) 140 = none ∧
    txOpen u 0 = true ∧ longF.cls < 7 ∧ (u.mac 0).cut = none ∧ preemptActive u 0 = true ∧ (eligible u 0 7).isSome = true ∧
    ((after (.txPreemptions 0 10) u).mac 0).cut = some { longF with sent := 64 } ∧ after (.txPreemptions 0 140) u = u := by decide +kernel

theorem wit_MacLinksAndRegisters : let s := { macS 0x800 {} with boot := { w.boot with stable := [6], lit := [6], engCal := [12] } }
    let u := txMac 60 { staged := [txF 2] }
    let u := regPut u (macPage 0) 0x48 (regGet u (macPage 0) 0x48 ||| 0x800)
    macPair s 0 = none ∧ macUsed s 0 = true ∧ (s.mac 0).up = false ∧ engineFed s 12 = true ∧ ((after (.macLinkUp 0) s).mac 0).up = true ∧
    after (.macLinkUp 0) { s with boot := { s.boot with engCal := [] } } = { s with boot := { s.boot with engCal := [] } } ∧
    (u.mac 0).up = true ∧ (u.mac 0).steer = none ∧ (u.mac 0).cut = none ∧ macCfgBit u 0 11 = true ∧
    (((after (.macLinkDown 0) u).mac 0).ring 0 2).hw = 1 ∧ (after (.macLinkDown 0) u).rawLE (hubSramBase + 12) 2 = 0x8003 ∧
    (∀ p, p < 4 → macCfgBit s p 0 = false ∧ macCfgBit s p 1 = false ∧ (s.mac p).up = false) ∧
    regGet (after (.macGrpCfg wd 0 2) s) (macPage 0) 0x40 = 2 ∧
    macCfgBit u 0 0 = true := by decide +kernel

theorem wit_MacLinksAndRegisters_rings : let s := regPut (macS 3 { up := true }) (macPage 0) 0x80 0xA
    let u := (regPut (macS 3 { up := true }) (macPage 0) 0x80 0xA).setMac 0 { up := true, rings := [(10, { rxRing with sw := 0 })] }
    Warden s wd ∧ ringSel s 0 = (1, 2) ∧ ((s.mac 0).ring 1 2).en = false ∧ (((after (.macRingCfg wd 0 1) s).mac 0).ring 1 2).en = true ∧
    translate s (macCtx s 0) (bits (0x9401 : Word).toNat 12 14) = none ∧ (((after (.macRingCfg wd 0 0x9401) s).mac 0).ring 1 2).en = false ∧
    ((BitVec.ofNat 16 64 - ((u.mac 0).ring 1 2).hw).toNat ≤ ((u.mac 0).ring 1 2).size) ∧
    (((after (.macRingSwidx wd 0 64) u).mac 0).ring 1 2).sw = 64 ∧ (((after (.macRingSwidx wd 0 65) u).mac 0).ring 1 2).sw = 0 :=
  ⟨⟨by decide +kernel, by decide +kernel⟩, by decide +kernel⟩

/-- The CRC of 148 zero bytes, in five parts. -/
theorem crc_zeros : crc32c (List.replicate 148 0) = 0x6C353498 := by
  have h1 : (List.replicate 37 (0 : Byte)).foldl crcByte 0xFFFFFFFF = 0x9F901BD4 := by decide +kernel
  have h2 : (List.replicate 37 (0 : Byte)).foldl crcByte 0x9F901BD4 = 0xAC8F26E4 := by decide +kernel
  have h3 : (List.replicate 37 (0 : Byte)).foldl crcByte 0xAC8F26E4 = 0xBC58BEA5 := by decide +kernel
  have h4 : (List.replicate 37 (0 : Byte)).foldl crcByte 0xBC58BEA5 = 0x93CACB67 := by decide +kernel
  have e : List.replicate 148 (0 : Byte) =
      List.replicate 37 0 ++ List.replicate 37 0 ++ List.replicate 37 0 ++ List.replicate 37 0 := by decide +kernel
  unfold crc32c
  rw [e, List.foldl_append, List.foldl_append, List.foldl_append, h1, h2, h3, h4]; decide +kernel

/-- The all-zero slot 0 whose word 37 is its CRC, CTL 1 written: it is enabled; CTL 9 (no such length code) is refused (R338). -/
theorem wit_MacLinksAndRegisters_slots : let x : Mac := { slots := [(37, 0x6C353498)] }
    let s := regPut (macS 3 x) (macPage 0) 0x98 0x2400
    regField s (macPage 0) 0x98 0 5 = 0 ∧ regField s (macPage 0) 0x98 8 6 = 36 ∧ bit (slotCtl (s.mac 0) 0) 0 = false ∧
    slotRefused (s.mac 0) 0 1 = false ∧ slotRefused (s.mac 0) 0 9 = true := by
  refine ⟨by decide +kernel, by decide +kernel, by decide +kernel, ?_, ?_⟩
  · have e : slotImage { slots := [(37, 0x6C353498)] } 0 1 = List.replicate 148 0 := by decide +kernel
    show slotRefused { slots := [(37, 0x6C353498)] } 0 1 = false
    unfold slotRefused
    rw [e, crc_zeros]; decide +kernel
  · have e : (decide (4 ≤ bits 9 1 3)) = true := by decide +kernel
    unfold slotRefused
    rw [e, Bool.or_true, Bool.true_or]

/-! ### Ouvvos -/

def tok (v : Nat) (ctrl last : Bool) : Token := { payload := BitVec.ofNat 64 v, epoch := 0, ctrl := ctrl, last := last }

/-- Fabric 0 of context 3 with one configured tile 5, whose outputs 0 and 1 lead to inputs a and b of tile 6. -/
def tileS (tl : Tile) : State :=
  w.setFabric 0 { ctx := some 3, active := some 0, ingress := true, tiles := [(5, { tl with conf := true }), (6, { qa := 8, qb := 8, conf := true })],
                  dests := [{ src := 5, port := 0, tile := 6, inPort := 0, way := 5 }, { src := 5, port := 1, tile := 6, inPort := 1, way := 5 }] }

/-- The tokens that reach input a, input b of tile 6. -/
def outA (s : State) : List Token := ((s.fabric 0).tile 6).a
def outB (s : State) : List Token := ((s.fabric 0).tile 6).b

/-- Two DOT tokens of INT8 (R355): codes 1 and 2 times weights 3 and 4; and the ten other MUL and SFN operations. -/
theorem wit_MulSfnAndMemTiles : ∀ p ∈ [(0, 1), (0, 2), (0, 3), (0, 4), (0, 5), (0, 6), (0, 7), (1, 1), (1, 2), (1, 3), (1, 4), (1, 5), (1, 6),
      (2, 1), (2, 2), (2, 3)],
    let tl : Tile := { ttype := p.1, op := p.2, a := [tok 1 false true], b := [tok 2 false true], c := [tok 3 false true], p0 := 0x00010100,
                       scales := [0x3F80, 0x3F80], conf := true }
    let s := tileS tl
    armed s 0 5 p.1 p.2 = true ∧ (s.fabric 0).tile 5 = tl ∧ tl.room 0 = true ∧ tl.room 1 = true ∧ dropCtrl tl.b = tl.b ∧ dropCtrl tl.c = tl.c ∧
    dotLenBad tl (bits tl.p0.toNat 8 8) (tok 1 false true) = false ∧ dotLenBad tl (bits tl.p0.toNat 8 8) (tok 1 false false) = true := by
  decide +kernel

theorem wit_TileReady : TileReady (tileS { ttype := 0, op := 3, a := [tok 0x3F800000 false true], b := [tok 0x40000000 false true] }) 0 5 0 3
    { ttype := 0, op := 3, a := [tok 0x3F800000 false true], b := [tok 0x40000000 false true], conf := true } (tok 0x3F800000 false true) [] := by
  unfold TileReady; decide +kernel

/-- ADD2 of 1.0 and 2.0, and a control token that goes through (R353, R356). -/
theorem test_add2 :
    let s := tileS { ttype := 0, op := 3, a := [tok 0x3F800000 false true], b := [tok 0x40000000 false true] }
    outA (after (.add2 0 5) s) = [tok 0x40400000 false true] ∧
    outA (after (.add2 0 5) (tileS { ttype := 0, op := 3, a := [tok 5 true false] })) = [tok 5 true false] := by
  decide +kernel

/-- TABLE reads the word of its region that the token names, and +0 beyond it (R358). -/
theorem test_table :
    let s := tileS { ttype := 2, op := 1, p1 := 4, a := [tok 3 false false] }
    let s := s.setFabric 0 { s.fabric 0 with mems := [(5 * 4096 + 3, 0xABCD)] }
    let u := tileS { ttype := 2, op := 1, p1 := 3, a := [tok 3 false false] }
    outA (after (.table 0 5) s) = [tok 0xABCD false false] ∧
    outA (after (.table 0 5) u) = [tok 0 false false] := by decide +kernel

/-- Sluices: STEER to both outputs, MERGE of input 1, REPEAT of 2, COUNT of an element, RATE with a full bucket, GEN (R361 to R364). -/
theorem wit_Sluices :
    let steer : Tile := { ttype := 4, op := 1, a := [tok 9 false true], c := [tok 0x301 true false], conf := true }
    let merge : Tile := { ttype := 4, op := 2, b := [tok 9 false true], c := [tok 0x101 true false], conf := true }
    let rep : Tile := { ttype := 4, op := 3, a := [tok 9 false true], c := [tok 0x202 true false], conf := true }
    SluiceReady (tileS steer) 0 5 1 steer ∧ steer.sel = none ∧ ctlCode (tok 0x301 true false) = 1 ∧ ctlSel (tok 0x301 true false) = 3 ∧
    outB (after (.steer 0 5) (tileS steer)) = [tok 9 false true] ∧
    SluiceReady (tileS merge) 0 5 2 merge ∧ ctlSel (tok 0x101 true false) < 2 ∧ merge.inq 1 = [tok 9 false true] ∧
    outA (after (.merge 0 5) (tileS merge)) = [tok 9 false true] ∧
    SluiceReady (tileS rep) 0 5 3 rep ∧ repeatN rep (tok 0x202 true false) = some 2 ∧
    (((after (.sluRepeat 0 5) (tileS rep)).fabric 0).tile 5).rep = 1 := by
  refine ⟨by unfold SluiceReady; decide +kernel, by decide +kernel, by decide +kernel, by decide +kernel, by decide +kernel,
    by unfold SluiceReady; decide +kernel, by decide +kernel, by decide +kernel, by decide +kernel,
    by unfold SluiceReady; decide +kernel, by decide +kernel, by decide +kernel⟩

theorem wit_Sluices_more :
    let again : Tile := { ttype := 4, op := 3, rep := 1, group := [tok 9 false true], conf := true }
    let zip : Tile := { ttype := 4, op := 4, p0 := 1, p1 := 1, a := [tok 9 false true], conf := true }
    let count : Tile := { ttype := 4, op := 5, p0 := 1, a := [tok 9 false true], conf := true }
    let rate : Tile := { ttype := 4, op := 6, p0 := 4, bucket := 1, a := [tok 9 false true], conf := true }
    let gen : Tile := { ttype := 4, op := 7, p1 := 2, c := [tok 0x302 true false], conf := true }
    SluiceReady (tileS again) 0 5 3 again ∧ SluiceReady (tileS zip) 0 5 4 zip ∧ SluiceReady (tileS count) 0 5 5 count ∧
    SluiceReady (tileS rate) 0 5 6 rate ∧ SluiceReady (tileS gen) 0 5 7 gen ∧ again.rep ≠ 0 ∧ repeatN gen (tok 0x302 true false) = some 3 ∧
    outA (after (.sluRepeat 0 5) (tileS again)) = [tok 9 false true] ∧
    (((after (.zip 0 5) (tileS zip)).fabric 0).tile 5).zipA = 1 ∧
    outB (after (.count 0 5) (tileS count)) = [tok 0x104 true false] ∧
    (((after (.gen 0 5) (tileS gen)).fabric 0).tile 5).rep = 2 := by
  refine ⟨by unfold SluiceReady; decide +kernel, by unfold SluiceReady; decide +kernel, by unfold SluiceReady; decide +kernel,
    by unfold SluiceReady; decide +kernel, by unfold SluiceReady; decide +kernel, ?_⟩
  decide +kernel

/-- IO tiles (R360, R396): a token of a request, a read and its answer, a post that produces one credit, a signal, the end of a harvest. -/
theorem wit_IoTiles :
    let ing : Tile := { ttype := 3, op := 1, deliver := [tok 9 false true], conf := true }
    let rd : Tile := { ttype := 3, op := 3, p2 := 2, a := [tok (hubSramBase + 8) false true], conf := true }
    let post : Tile := { ttype := 3, op := 4, p0 := 0x100, p1 := 0x1100, p2 := 2, p3 := 0x2000, a := [tok 0xAB false true], conf := true }
    let sig : Tile := { ttype := 3, op := 5, a := [tok 0 false true], conf := true }
    let endh : Tile := { ttype := 3, op := 6, a := [tok 4 true true], conf := true }
    let ps := (tileS post).setCredit 0 { cap := 4, p := 3 }
    armed (tileS ing) 0 5 3 1 = true ∧ IoReady (tileS rd) 0 5 3 rd (tok (hubSramBase + 8) false true) [] ∧
    ioAllowed (tileS rd) 3 (hubSramBase + 8) (8 * mreadWords rd) false = true ∧
    (((after (.mread 0 5) (tileS rd)).fabric 0).tile 5).reads = [hubSramBase + 8] ∧ ChannelTakes ps 3 0x2000 4 0 ∧
    ioAllowed ps 3 (hubSramBase + 0x100) 8 true = true ∧ ((after (.post 0 5) ps).credit 0).p = 4 ∧
    (after (.post 0 5) ps).rawLE (hubSramBase + 0x100) 8 = 0xAB ∧ after (.post 0 5) (after (.post 0 5) (tileS post |>.setCredit 0 { cap := 4, p := 4 })) =
      ((tileS post).setCredit 0 { cap := 4, p := 4 }) ∧
    ((after (.signal 0 5) (tileS sig)).flag 5).set = true ∧ ((after (.endHarvest 0 5) (tileS endh)).fabric 0).harvesting = true ∧
    (let ans := { rd with a := [], reads := [hubSramBase + 8] }
     let s := tileS ans
     let forced := s.setFabric 0 { s.fabric 0 with force := some 2 }
     (s.fabric 0).tile 5 = ans ∧ (s.fabric 0).force = none ∧ (s.fabric 0).pstate = 0 ∧ ans.room 0 = true ∧ mreadWords ans = 2 ∧
       (((after (.mreadAnswer 0 5) forced).fabric 0).tile 5).reads = []) := by
  refine ⟨by decide +kernel, by unfold IoReady; decide +kernel, by decide +kernel, by decide +kernel, by unfold ChannelTakes; decide +kernel, ?_⟩
  decide +kernel

/-- A descriptor of fabric 0 under way. -/
def ovsS (x : Fabric) (w0 w1 w2 w3 : Nat) (phase : Nat) : State :=
  (w.setFabric 0 { x with ctx := some 3 }).setRun 0x800 0
    { anOp 0x800 w0 (toLE 8 w0 ++ toLE 8 w1 ++ toLE 8 w2 ++ toLE 8 w3 ++ toLE 32 0) with
      kind := 3, phase := phase, rgn := (w.ctx 3).region }

/-- An image of two MREAD tiles that feed each other (R368 to R370), with CRC `crc`. -/
def loopImg (crc : Nat) : List Byte :=
  toLE 16 (0x5A4F5631 + 2 ^ 32 + 2 * 2 ^ 96) ++ toLE 8 2 ++ toLE 4 192 ++ toLE 32 0 ++ toLE 4 crc ++
  toLE 32 (3 * 2 ^ 10 + 3 * 2 ^ 16 + 4 * 2 ^ 32 + 2 ^ 128) ++ toLE 32 (32 + 3 * 2 ^ 10 + 3 * 2 ^ 16 + 4 * 2 ^ 32 + 2 ^ 128) ++
  toLE 32 (32 * 2 ^ 32) ++ toLE 32 32

/-- Its CRC, in four parts. -/
theorem loopImg_crc : crc32c (loopImg 0) = 0xD7F27C99 := by
  have h1 : ((loopImg 0).take 48).foldl crcByte 0xFFFFFFFF = 0x13491BE0 := by decide +kernel
  have h2 : (slice (loopImg 0) 48 48).foldl crcByte 0x13491BE0 = 0xCE9EAA68 := by decide +kernel
  have h3 : (slice (loopImg 0) 96 48).foldl crcByte 0xCE9EAA68 = 0xA91D5B71 := by decide +kernel
  have h4 : (slice (loopImg 0) 144 48).foldl crcByte 0xA91D5B71 = 0x280D8366 := by decide +kernel
  have e : loopImg 0 = (loopImg 0).take 48 ++ slice (loopImg 0) 48 48 ++ slice (loopImg 0) 96 48 ++ slice (loopImg 0) 144 48 := by
    decide +kernel
  unfold crc32c
  rw [e, List.foldl_append, List.foldl_append, List.foldl_append, h1, h2, h3, h4]; decide +kernel

/-- The loader takes it, and another CRC is reason 2 (R371). -/
theorem wit_FabricDescriptors_image : imageBad (loopImg 0xD7F27C99) = none ∧ imageBad (loopImg 0xD7F27C98) = some (2, 0) := by
  have same : ∀ c ∈ [0xD7F27C99, 0xD7F27C98], (loopImg c).take 0x3C ++ toLE 4 0 ++ (loopImg c).drop 0x40 = loopImg 0 := by decide +kernel
  have good : imageCrcBad (loopImg 0xD7F27C99) = false := by
    unfold imageCrcBad; rw [same _ (by decide), loopImg_crc]; decide +kernel
  have bad : imageCrcBad (loopImg 0xD7F27C98) = true := by
    unfold imageCrcBad; rw [same _ (by decide), loopImg_crc]; decide +kernel
  constructor
  · unfold imageBad; rw [good]; decide +kernel
  · unfold imageBad; rw [bad]; decide +kernel

/-- Switches that do not happen at once, and a fabric that sleeps (R375, R380, R387). -/
theorem wit_FabricDescriptors_others :
    let busy := ovsS { active := some 1, images := [(2, [1])] } 2 0 (2 * 2 ^ 32) 0 2
    let empty := ovsS { harvested := true } 2 0 (2 * 2 ^ 32) 0 2
    let later := ovsS { harvested := true, images := [(2, [1])] } 2 0 (2 * 2 ^ 32) (2 ^ 16 + 5 * 2 ^ 32) 2
    let due := ovsS { harvested := true, images := [(2, [1])] } 2 0 (2 * 2 ^ 32) (2 ^ 16) 4
    let wake := ovsS { pstate := 2 } 6 0 0 0 2
    let slept := ovsS { pstate := 2 } 3 0 0 0 2
    let woken := ovsS { pstate := 3 } 6 0 0 0 4
    (∃ x, ovsOp busy 0 false = some x ∧ (!(busy.fabric 0).isHarvested && ((after (.oswitch 0) busy).run 0x800 0).any (·.status == 0x9001)) = true) ∧
    (∃ x, ovsOp empty 0 false = some x ∧ (((empty.fabric 0).image x.2.slot).isNone && (empty.fabric 0).isHarvested) = true) ∧
    (∃ x, ovsOp later 0 false = some x ∧ (x.2.atEn && !atReached later x.2 false && !untimed later x.1.ctx &&
      ((after (.oswitch 0) later).run 0x800 0).any (·.phase == 4)) = true) ∧
    (∃ x, ovsOp due 0 true = some x ∧ (x.2.op == 2 && atReached due x.2 false && ((after (.oswitchAt 0) due).fabric 0).active == some 2) = true) ∧
    (∃ x, ovsOp wake 0 false = some x ∧ (x.2.op == 6 && x.2.pstate == 0 && ((after (.opower 0) wake).fabric 0).pstate == 3) = true) ∧
    (∃ x, ovsOp slept 0 false = some x ∧ (x.2.op == 3 && ((after (.oharvest 0) slept).run 0x800 0).any (·.status == 0x900B)) = true) ∧
    ∃ x, ovsOp woken 0 true = some x ∧ (x.2.op == 6 && ((after (.fabricWakeDone 0) woken).fabric 0).pstate == 0) = true :=
  ⟨some_of_any (by decide +kernel), some_of_any (by decide +kernel), some_of_any (by decide +kernel), some_of_any (by decide +kernel),
   some_of_any (by decide +kernel), some_of_any (by decide +kernel), some_of_any (by decide +kernel)⟩

theorem wit_FabricDescriptors :
    let nop := ovsS {} 0 0 0 0 2
    let load := ovsS { active := some 1 } 1 hubSramBase (8 + 2 ^ 32) 0 2
    let bad := ovsS {} 1 hubSramBase 8 0 2
    let sw := ovsS { harvested := true, images := [(2, [1])] } 2 0 (2 * 2 ^ 32) 0 2
    let hv := ovsS {} 3 0 0 0 2
    let mw := (ovsS {} 4 hubSramBase (8 + 1026 * 2 ^ 40) 16 2).setRaw hubSramBase (toLE 8 0x77)
    let mr := (ovsS { mems := [(1026 * 4096 + 2, 0x99)] } 5 hubSramBase (8 + 1026 * 2 ^ 40) 16 2)
    let pw := ovsS { harvested := true } 6 0 0 (2 ^ 17) 2
    (∃ x, ovsOp nop 0 false = some x ∧ (x.2.op == 0 && ((after (.onop 0) nop).run 0x800 0).any (·.done)) = true) ∧
    (∃ x, ovsOp load 0 false = some x ∧ (decide (x.2.op = 1 ∧ (load.fabric 0).active = some x.2.slot) &&
      ((after (.oload 0) load).run 0x800 0).any (·.status == 0x9004)) = true) ∧
    (∃ x, ovsOp bad 0 false = some x ∧ (decide (extCheck bad x.1.ctx [{ addr := x.2.addr, len := x.2.len, write := false }] = 0) &&
      (imageBad (load.raw x.2.addr x.2.len)).isSome && ((after (.oload 0) bad).run 0x800 0).any (·.status == 0x9002)) = true) ∧
    (∃ x, ovsOp sw 0 false = some x ∧ (decide (x.2.op = 2 ∧ ((sw.fabric 0).image x.2.slot).isSome = true ∧ x.2.atEn = false) &&
      ((after (.oswitch 0) sw).fabric 0).active == some 2) = true) ∧
    (∃ x, ovsOp hv 0 false = some x ∧ (x.2.op == 3 && ((after (.oharvest 0) hv).fabric 0).harvesting) = true) ∧
    (∃ x, ovsOp mw 0 false = some x ∧ (x.2.op == 4 && memWord ((after (.omemw 0) mw).fabric 0) 2 2 == 0x77) = true) ∧
    (∃ x, ovsOp mr 0 false = some x ∧ (x.2.op == 5) = true) ∧
    ∃ x, ovsOp pw 0 false = some x ∧ (decide (x.2.op = 6 ∧ x.2.pstate = 1) && ((after (.opower 0) pw).fabric 0).pstate == 2) = true :=
  ⟨some_of_any (by decide +kernel), some_of_any (by decide +kernel), some_of_any (by decide +kernel), some_of_any (by decide +kernel),
   some_of_any (by decide +kernel), some_of_any (by decide +kernel), some_of_any (by decide +kernel), some_of_any (by decide +kernel)⟩

/-- Fabric 0 of context 3 with two loaded slots, slot 0 active, and two tokens at tile 5. -/
def fabS (x : Fabric) : State :=
  w.setFabric 0 { x with ctx := some 3, active := some 0, images := [(0, [1]), (2, [1])],
                         tiles := [(5, { conf := true, ttype := 2, op := 4, qa := 4, a := [tok 1 false false, tok 2 false true], fault := true })] }

theorem wit_FabricControl : let still := fabS { ingress := true, harvesting := true }
    let still := still.setFabric 0 { still.fabric 0 with tiles := [(5, { conf := true, ttype := 4, op := 4 })] }
    let held := fabS { harvested := false }
    let due := fabS { force := some 2 }
    (still.fabric 0).harvesting = true ∧ fabricStill still 0 = true ∧ ioOutstanding (still.fabric 0) = false ∧
    ((after (.harvestQuiesce 0) still).fabric 0).harvested = true ∧ (still.fabric 0).reopenDue = false ∧
    ((after (.ovsHarvestTmo 0) still).fabric 0).harvested = false ∧ ((after (.ovsHarvestTmo 0) still).fabric 0).ingress = true ∧
    fabricOpen held wd 0 = true ∧ fabricOpen held (.hart 0) 0 = true ∧ fabricOpen held (.vf 5) 0 = false ∧ (held.fabric 0).pstate = 0 ∧
    ((after (.reopen wd 0 1) held).fabric 0).ingress = true ∧ (((after (.reopen wd 0 1) held).fabric 0).tile 5).fault = false ∧
    ((held.fabric 0).image 2).isSome = true ∧ (held.fabric 0).image 3 = none ∧
    ((after (.ovsForce wd 0 0x80000002) held).fabric 0).force = some 2 ∧ ((after (.ovsForce wd 0 0x80000003) held).fabric 0).force = none ∧
    (due.fabric 0).pstate < 2 ∧ ioOutstanding (due.fabric 0) = false ∧ 0 < ((due.fabric 0).tiles.map fun p => tileTokens p.2).sum ∧
    ((after (.forcedSwitch 0) due).fabric 0).active = some 2 ∧ ((after (.forcedSwitch 0) due).fabric 0).epoch = 1 ∧
    tget 0 (after (.forcedSwitch 0) due).cnts (ovsPage 0 * 256 + 4) = 2 := by decide +kernel

theorem wit_FabricControl_more : let old : Token := { payload := 7, epoch := 3, ctrl := false, last := true }
    let s := fabS { stray := [(5, 0, old)] }
    let z := regPut (s.setFabric 0 { s.fabric 0 with stray := [], tiles := [(5, { conf := true, ttype := 4, op := 4 })] }) (ovsPage 0) 0x84 1
    let q := (fabS { pstate := 1 }).setQueue (fabEng 0) 0 [anOp 0x800 0 []]
    let stall := regPut (s.setFabric 0 { s.fabric 0 with stray := [], tiles := [(5, { conf := true, ttype := 4, op := 4, a := [tok 1 false false] })] }) (ovsPage 0) 0x88 1
    let e : PageEvent := { ctx := 3, code := 2, info := 0x1234 }
    (s.fabric 0).stray.contains (5, 0, old) = true ∧ ((after (.stale 0 5 0 old) s).fabric 0).staleSeen = true ∧
    bit (regGet (after (.stale 0 5 0 old) s) (ovsPage 0) 0x10).toNat 6 = true ∧ (s.fabric 0).stray.contains (5, 1, old) = false ∧
    bit (regGet z (ovsPage 0) 0x84).toNat 0 = true ∧ fabricStill z 0 = true ∧ fabricRuns z 0 = false ∧ (z.fabric 0).pstate = 0 ∧
    ((after (.dozeEnter 0) z).fabric 0).pstate = 1 ∧ (q.fabric 0).pstate = 1 ∧ q.queue (fabEng 0) 0 ≠ [] ∧
    ((after (.dozeWake 0) q).fabric 0).pstate = 0 ∧
    regGet stall (ovsPage 0) 0x88 ≠ 0 ∧ tokensQueued (stall.fabric 0) = true ∧ fabricStill stall 0 = true ∧
    (∀ p ∈ (stall.fabric 0).tiles, p.2.reads = []) ∧ builderHeld stall 0 = false ∧
    ((after (.ovsAssign wd 1 0x80000003) s).fabric 1).ctx = some 3 ∧ (after (.ovsAssign wd 1 0x80000003) s).ownerOf (fabEng 1) 0 = some 3 ∧
    ((after (.ovsEvqRead wd 0) (fabS { evq := [e] })).fabric 0).evq = [] ∧
    ((after (.ovsEvqRead (.hart 0) 0) (fabS { evq := [e] })).fabric 0).evq = [e] := by decide +kernel

/-- MAC 0 with slot 0 enabled for every frame with ACTION 1, and fabric 0 with an INGRESS tile that serves it and an EGRESS tile 6. -/
def pathS (x : Fabric) (mc : Mac) : State :=
  let u := (macS 7 { mc with up := true, slots := [(36, 3)] })
  u.setFabric 0 { x with ctx := some 3, active := some 0, ingress := true,
                         tiles := [(5, { conf := true, ttype := 3, op := 1, p0 := 1, p2 := 0xF }),
                                   (6, { conf := true, ttype := 3, op := 2, p0 := 0x00002003, p1 := 0x20000000, p2 := BitVec.ofNat 32 hubSramBase,
                                         p3 := BitVec.ofNat 32 (hubSramBase / 2 ^ 32 + 2 ^ 21) })] }

def aRec : ReqRec := { mac := 0, req := 4, port := 0, stamp := 0, bytes := aData broadcast [8, 0] [] }

theorem wit_AnsweringOnTheWire : let fr := aFrame broadcast [8, 0] []
    let s := pathS {} {}
    let closed := s.setFabric 0 { s.fabric 0 with ingress := false }
    let v := pathS { recs := [(2, aRec)] } { open_ := [2] }
    let c := pathS { recs := [(2, { aRec with reply := 3, head := [1, 2] })] } { open_ := [2] }
    rxOpen s 0 = true ∧ (s.mac 0).steer = none ∧ macCfgBit s 0 2 = true ∧ fifoRoom s 0 = true ∧ secFail s 0 fr false = none ∧
    64 ≤ frameLen fr ∧ matchSlot (s.mac 0) (frameData fr) = some 0 ∧ slotAction (s.mac 0) 0 = 1 ∧ hubNaps s = false ∧
    ((after (.steerDecision 0 fr) closed).mac 0).steer = some { arrive closed 0 fr with offered := true } ∧
    (s.fabric 0).pstate < 2 ∧ recResolved (s.fabric 0) (s.fabric 0).next = true ∧
    (((s.fabric 0).tiles.filter fun t => ingressServes t.2 0 0).find? (fun t => t.2.deliver.isEmpty)).isSome = true ∧
    ((after (.steerDecision 0 fr) s).mac 0).open_ = [0] ∧
    tfind (v.fabric 0).recs 2 = some aRec ∧ dueVerdict aRec = none ∧ after (.verdict 0 2) v = v := by decide +kernel

/-- Verdicts (R398): passed, failed, too long; the reply in the builder is dropped, the committed one recalled (R402, R403). -/
theorem wit_AnsweringOnTheWire_verdicts :
    let v := fun (r : ReqRec) (b : List Reply) => pathS { recs := [(2, r)], builder := b } { open_ := [2] }
    let pass := { aRec with ended := some 0 }
    let fail := { aRec with ended := some 3 }
    let e : Reply := { recd := 2, req := aRec, tile := 6, payload := [9] }
    let built := v { fail with reply := 1 } [e]
    let c := v { fail with reply := 3, head := [1, 2] } []
    dueVerdict pass = some 0 ∧ dueVerdict fail = some 3 ∧ dueVerdict { aRec with long := true } = some 2 ∧
    ((v pass []).mac (recMac 0 pass)).open_ = [2] ∧ pass.verdict = none ∧ pass.lost = false ∧
    ((after (.verdict 0 2) (v pass [])).mac 0).lastFinal = 4 ∧ ((after (.verdict 0 2) (v pass [])).mac 0).open_ = [] ∧
    tget 0 (after (.verdict 0 2) (v fail [])).cnts (pathPage 0 * 256 + 5) = 1 ∧
    ((after (.verdict 0 2) built).fabric 0).builder = [] ∧ (c.mac 0).up = true ∧ bufRoom (c.mac 0) 7 18 = true ∧
    tget 0 (after (.verdict 0 2) c).cnts (pathPage 0 * 256 + 8) = 1 ∧
    ((after (.verdict 0 2) c).mac 0).staged.map (·.cls) = [7] := by decide +kernel

/-- The EGRESS tile: a MARK, a word, the last word; the reply in the builder is staged; its record is written on a good verdict (R396, R401, R408). -/
theorem wit_AnsweringOnTheWire_egress :
    let mk := tok (5 + 4 * 2 ^ 8 + 2 * 2 ^ 26) true false
    let egress : Fabric → List Token → Option Token → State := fun x a m =>
      let s := pathS { x with recs := [(2, aRec)] } { open_ := [2] }
      s.setFabric 0 { s.fabric 0 with tiles := (s.fabric 0).tiles.map fun p => if p.1 = 6 then (6, { p.2 with a := a, mark := m }) else p }
    let begin_ := egress {} [mk] none
    let bad := egress {} [tok 9 false false] none
    let mid := egress {} [tok 9 false false] (some mk)
    let fin := egress {} [tok 9 false true] (some mk)
    let gone := (fin.setFabric 0 { fin.fabric 0 with recs := [] })
    let e : Reply := { recd := 2, req := aRec, tile := 6, payload := [9] }
    let staging := egress { builder := [e] } [] none
    let good := staging.setFabric 0 { staging.fabric 0 with recs := [(2, { aRec with verdict := some 0, reply := 1 })] }
    let rc := good.setFabric 0 { good.fabric 0 with builder := [], memq := [e] }
    let rc := (rc.setFabric 0 { rc.fabric 0 with tiles := (rc.fabric 0).tiles.map fun p => if p.1 = 6 then (6, { p.2 with p0 := 0x2002 }) else p }).setCredit 0 { cap := 4 }
    armed begin_ 0 6 3 2 = true ∧ ctlCode mk = 5 ∧ (((after (.egress 0 6) begin_).fabric 0).tile 6).mark = some mk ∧
    armed bad 0 6 3 2 = true ∧ (((after (.egress 0 6) mid).fabric 0).tile 6).group = [tok 9 false false] ∧
    (mid.fabric 0).tile 6 ≠ {} ∧ bits ((mid.fabric 0).tile 6).p0.toNat 11 6 = 4 ∧
    bits mk.payload.toNat 26 6 = 2 ∧ aRec.req.toNat = bits mk.payload.toNat 8 16 ∧ (fin.fabric 0).builder = [] ∧
    ((after (.egress 0 6) fin).fabric 0).builder.map (·.payload) = [[9]] ∧
    tget 0 (after (.egress 0 6) gone).cnts (pathPage 0 * 256 + 11) = 1 ∧
    replyVerdict (staging.fabric 0) e = none ∧ bit (regGet staging (pathPage 0) 0x40).toNat 0 = false ∧
    (replyVerdict (good.fabric 0) e).isSome = true ∧ macSecBit good 0 0 = false ∧ classRoom (good.mac 0) 7 116 = true ∧ (good.mac 0).up = true ∧
    ((after (.replyStage 0) good).fabric 0).builder = [] ∧ ((after (.replyStage 0) good).mac 0).staged.map (·.cls) = [7] ∧
    nextRecord (rc.fabric 0) 6 = some (e, []) ∧ replyVerdict (rc.fabric 0) e = some 0 ∧
    ioChannel rc 3 (bits (replyTile rc 0 6).p1.toNat 16 14) = some 0 ∧ ioAllowed rc 3 hubSramBase 64 true = true ∧
    ((after (.replyRecord 0 6) rc).credit 0).p = 1 ∧ ((after (.replyRecord 0 6) rc).fabric 0).memq = [] ∧
    (after (.replyRecord 0 6) rc).rawLE (hubSramBase + 16) 8 = 9 := by decide +kernel
/-! ### Time and power -/

/-- The always-on PLL runs; TB1 was adopted by TB3, both VALID. -/
def timeS (u : TimeUnit) (ctl : Nat) : State :=
  regPut { w with time := { u with running := true } } timePage 0x54 (BitVec.ofNat 32 ctl)

/-- A base carries into SEC (R413); before the PLL runs a tick changes nothing; TB1 with a rate of +2^22 units (R417); TB3 adopts TB1 once it
reads VALID, and is steered towards it afterwards (R424). -/
theorem wit_TimeTicks : let b : TimeBase := { sec := 4, ns := 999999999, frac := 0x90000000 }
    let s := timeS { tb := [(1, b)], steer := [(1, { rate := 4194304 })] } 0x10100
    let u := timeS { tb := [(1, b), (3, { sec := 4, ns := 999999990, frac := 0 })], active := 1, stepped := true } 0x50100
    b.ns < 1000000000 ∧ b.advance (2 ^ 33) = { sec := 5, ns := 1, frac := 0x90000000 } ∧ b.sec.toNat + 1 < 2 ^ 48 ∧
    State.reset.time.running = false ∧ s.time.running = true ∧ (after .timeTick s).time.base 0 = { sec := 0, ns := 2, frac := 0 } ∧
    (after .timeTick s).time.base 1 = { sec := 5, ns := 1, frac := 0x90400000 } ∧ baseValid s 1 = true ∧ tb3Src s = 0 ∧
    baseValid s (tb3Src s) = false ∧ baseValid u 1 = true ∧ u.time.stepped = true ∧ u.time.active < 3 ∧
    (after .timeTick u).time.base 3 ≠ (after .timeTick u).time.base 1 ∧ (after .timeTick u).time.active = 1 := by decide +kernel

theorem wit_TimeAdjustmentsDomainsAndCaptures :
    let s := regPut (timeS { tb := [(1, { sec := 4, ns := 5 })] } 0x50100) timePage 0x70 0
    let k := adjBase s
    let v := regPut (timeS { tb := [(1, { sec := 4, ns := 5 })], active := k, stepped := true } 0x50100) timePage 0x70 0
    let z := regPut s timePage 0x60 0
    Warden s wd ∧ accLive s (.hart 0) = true ∧ accLive s (.vf 5) = false ∧
    adjustable k = true ∧ (s.time.st k).stepped = false ∧
    (((s.time.base k).sec.toNat * 1000000000 + (s.time.base k).ns : Nat) : Int) + ((5 : Word) ++ regGet s timePage 0x70).toInt < 2 ^ 48 * 1000000000 ∧
    tget 0 (after (.timeRdNs (.hart 0)) s).readVal (accKey (.hart 0)) = BitVec.ofNat 32 (s.time.base (s.time.reader (.hart 0)).base).ns ∧
    ((after (.timeRate wd 0x7FFFFFFF) s).time.st k).rate = 4194304 ∧ ((after (.timeStepHi wd 1) s).time.st k).stepped = true ∧
    after (.timeReopen wd 0) s = s ∧
    adjustable (adjBase z) = false ∧ after (.timeRate wd 5) z = z ∧
    (v.time.stepped = true ∧ v.time.active = k) :=
  ⟨⟨by decide +kernel, by decide +kernel⟩, by decide +kernel⟩

/-- Two domains of one number are refused; TB1 loses VALID under AUTO while TB2 has it, so TB3 follows TB2 (R423 to R425). -/
theorem wit_TimeAdjustmentsDomainsAndCaptures_domains : let s := timeS { active := 1, stepped := true } 0x70100
    Warden s wd ∧ bits 0x50505 0 8 = bits 0x50505 8 8 ∧
    bits 0x60100 0 8 ≠ bits 0x60100 8 8 ∧ s.time.move = none ∧ baseValid s 1 = true ∧ (after (.timeDom wd 0x60100) s).time.active = 2 ∧
    (after (.timeDom wd 0x30100) s).time.active = 1 ∧
    tb3Src (after (.timeTb3Cfg wd 2) s) = 2 ∧ (after (.timeTb3Cfg wd 2) s).time.active = 2 ∧
    regField (after (.timeTb3Cfg wd (2 + 500 * 2 ^ 16)) s) timePage 0x58 16 9 = 400 ∧
    (after (.timeTb3Cfg wd 1) (timeS {} 0x70100)).time.active = 0 :=
  ⟨⟨by decide +kernel, by decide +kernel⟩, by decide +kernel⟩

theorem wit_TimeAdjustmentsDomainsAndCaptures_captures : let s := regPut (timeS { stampq := [[1, 2, 3, 4, 5]] } 0) timePage 0xBC 5
    let full := regPut s timePage 0xC0 4
    Warden s wd ∧ bit (regGet s timePage 0xBC).toNat 2 = true ∧ bit (regGet s timePage 0xC0).toNat 2 = false ∧
    bit (regGet (after (.capture 2) s) timePage 0xC0).toNat 2 = true ∧ bit (regGet full timePage 0xC0).toNat 2 = true ∧
    bit (regGet (after (.capture 2) full) timePage 0xC0).toNat 7 = true ∧ bit (regGet s timePage 0xBC).toNat 1 = false ∧
    bit (regGet s timePage 0xC0).toNat 4 = false ∧ bit (regGet (after (.softCapture wd 0x13) s) timePage 0xC0).toNat 4 = true ∧
    s.time.stampq = [[1, 2, 3, 4, 5]] ∧ (after (.timeSqW0 wd) s).time.stampq = [] ∧
    tget 0 (after (.timeSqW0 wd) s).readVal (accKey wd) = 1 ∧ (timeS {} 0).time.stampq = [] :=
  ⟨⟨by decide +kernel, by decide +kernel⟩, by decide +kernel⟩

/-- Comparator 0 of context 3 with a CTL word, due at 100 ns; TB3 stands at 200 ns, and the comparators of `due` are to issue. -/
def trigS (ctl period : Nat) (g : Trig) (due : List Nat) : State :=
  let s := timeS { tb := [(3, { sec := 0, ns := 200 })], active := 1, stepped := true, due := due,
                   trigs := [(0, { g with owner := some 3, ctl := BitVec.ofNat 32 ctl, ns := 100, period := period,
                                          addr := BitVec.ofNat 52 hubSramBase, value := 0x77 })] } 0x50100
  regPut s timePage 0xAC 0x80000010

theorem wit_TriggerComparators : let s := trigS 0 0 {} []
    let on := trigS (0x25) 0 {} [0]
    let again := trigS (0x25) 30 {} [0]
    Warden s wd ∧ (s.time.reader (.hart 0)).trig = 0 ∧ ((after (.timeTrigOwn wd 0x80000009) s).time.trig 0).owner = some 9 ∧
    accLive s (.hart 0) = true ∧ trigOpen s (.hart 0) = true ∧ trigLocked s 0 = false ∧ trigLocked on 0 = true ∧
    after (.timeTrigOwn wd 0x80000009) on = on ∧ after (.arm (.hart 0) 0x25) on = on ∧ on.time.due = [0] ∧ after (.trigFire 0) s = s ∧ trigUntimed s (s.time.trig 0) = false ∧
    ((after (.arm (.hart 0) 0x25) s).time.trig 0).has 0 = true ∧ ((after (.arm (.hart 0) 0x25) s).time.trig 0).overdue = true ∧
    ((after (.arm (.hart 0) 7) s).time.trig 0).has 0 = false ∧ ((after (.arm (.hart 0) 0) on).time.trig 0).has 0 = false ∧
    (after (.arm (.hart 0) 0) on).time.due = [0] ∧
    (let l := { s with host := { s.host with up := true, vfs := 63 } }; accLive l (.vf 5) = true ∧ trigOpen l (.vf 5) = false) ∧
    (on.time.trig 0).at + (on.time.trig 0).period + tb3Ns on < 2 ^ 48 * 1000000000 ∧ bits (on.time.trig 0).ctl.toNat 1 2 = 2 ∧
    ((after (.trigFire 0) on).time.trig 0).has 0 = false ∧ ((after (.trigFire 0) again).time.trig 0).at = 220 ∧
    tget 0 (after (.trigFire 0) on).time.pins 0 = 0x10 :=
  ⟨⟨by decide +kernel, by decide +kernel⟩, by decide +kernel⟩

theorem wit_TrigDue : TrigDue (trigS 0x25 0 {} []) 0 ∧ ¬TrigDue (trigS 0 0 {} []) 0 := by unfold TrigDue; decide +kernel

/-- A WRITE_SIGNAL comparator writes and then sets flag 5 (vid 0, mode set); its context aborted it does not; a barrier's vid is an error. -/
theorem wit_TriggerComparators_write : let s := trigS 0x23 0 {} [0]
    let bare := { s with ctxs := s.ctxs.map fun c => (c.1, { c.2 with region := [] }) }
    let off := { s with ctxs := s.ctxs.map fun c => (c.1, { c.2 with st := .aborted }) }
    let pend := trigS 3 0 { pend := [(3, 0, 0)] } []
    let wrong := trigS 3 0 { pend := [(3, 0x3000, 0)] } []
    (s.time.trig 0).ctx = 3 ∧ bits (s.time.trig 0).ctl.toNat 1 2 = 1 ∧ (s.ctx 3).st ≠ .aborted ∧ trigWriteCode s (s.time.trig 0) = 0 ∧
    (after (.trigFire 0) s).rawLE hubSramBase 8 = 0x77 ∧ ((after (.trigFire 0) s).time.trig 0).pend = [(3, 0, 0)] ∧
    trigWriteCode bare (bare.time.trig 0) ≠ 0 ∧ ((after (.trigFire 0) bare).time.trig 0).has 12 = true ∧
    (off.ctx 3).st = .aborted ∧ ((after (.trigFire 0) off).time.trig 0).has 11 = true ∧
    (pend.time.trig 0).pend = [(3, 0, 0)] ∧ vidClass 0 = 0 ∧ translate pend 3 0 = some 5 ∧ after (.trigWriteAck 0) s = s ∧ homeOff pend 0 5 = false ∧ (pend.flag 5).set = false ∧
    (pend.flag 5).waiters = [] ∧ ((after (.trigWriteAck 0) pend).flag 5).set = true ∧
    vidClass 0x3000 = 3 ∧ ((after (.trigWriteAck 0) wrong).time.trig 0).has 12 = true ∧
    (after (.trigWriteAck 0) wrong).nameFaults = [{ ctx := 3, vid := 0x3000 }] := by decide +kernel

/-- A timed trigger of a job without common time fires as it is armed (R304, R428). -/
theorem wit_TriggerComparators_untimed : let s := (trigS 0 0 {} []).setJob 1 { valid := true, ctx := 3 }
    trigUntimed s (s.time.trig 0) = true ∧ trigLocked s 0 = false ∧ bits (0x25 : Word).toNat 1 2 = 2 ∧
    ((after (.arm (.hart 0) 0x25) s).time.trig 0).has 10 = true := by decide +kernel

/-- Die 2 in a power state; the device is `w`. -/
def dieS (x : DiePower) : State := w.setDie 2 x

theorem wit_DieAndBayStates : let run := dieS { state := 0, req := 0 }
    let idle := dieS { state := 1, req := 0 }
    let nap := dieS { state := 2, req := 1 }
    let moving := dieS { state := 1, req := 1, target := some 2 }
    let off := dieS { state := 3 }
    let hot := { off with sensors := [(2, { temp := degC 100 })] }
    let asleep := dieS { state := 2, req := 1 }
    let rising := dieS { state := 3, target := some 0, trained := true }
    let falling := dieS { state := 1, target := some 3 }
    Warden run wd ∧ dieBusy run 2 = false ∧ ((after (.dieIdle 2) run).die 2).state = 1 ∧ dieBusy w 0 = true ∧
    ((after (.dieReqOff wd 2) moving).die 2).held = some 2 ∧ degC 100 ≤ (hot.sensor 2).temp ∧
    (after (.dieReqRun wd 2) hot).dies = hot.dies ∧ (off.sensor 2).temp < degC 100 ∧
    ((after (.dieReqRun wd 2) off).die 2).target = some 0 ∧ ((after (.dieReqRun wd 2) off).stack 4).training = true ∧
    linksUp w = false ∧ linksUp (w.setLink 0 { state := 2 }) = true ∧ ((after (.dieReqNap wd 2) idle).die 2).target = some 2 ∧
    dieInUse run 2 = false ∧ dieInUse run 0 = true ∧ ((after (.dieReqOff wd 2) idle).die 2).target = some 3 ∧
    (after (.dieReqOff wd 0) run).dies = run.dies ∧ (after (.dieReqNap wd 2) asleep).dies = asleep.dies ∧
    ((after (.dieReqOff wd 2) off).die 2).target = none ∧ ((after (.dieReqNap wd 2) off).die 2).req = 1 ∧ isWarden run (.hart 0) = false ∧
    ((after (.dieWake 2) nap).die 2).target = some 0 ∧ ((after (.dieWake 2) moving).die 2).target = some 0 ∧
    (rising.stack 4).training = false ∧ (rising.stack 5).training = false ∧ ((after (.dieTransitionDone 2) rising).die 2).state = 0 ∧
    (∀ r ∈ moving.running, r.1 / 2 / 256 ≠ 2) ∧ ((after (.dieTransitionDone 2) moving).die 2).state = 2 ∧
    ((after (.dieTransitionDone 2) falling).die 2).state = 3 :=
  ⟨⟨by decide +kernel, by decide +kernel⟩, by decide +kernel⟩

theorem wit_DieAndBayStates_gates : let s := regPut w pwrPage 0x74 100
    let busy := s.setRun (bayEng 70) 0 (anOp (bayEng 70) 0 [])
    let gated := { busy with gated := [70] }
    regGet s pwrPage 0x74 ≠ 0 ∧ (s.die (70 / 32)).state ≤ 1 ∧ bayQuiet s 70 = true ∧ (after (.bayGate 70) s).gated = [70] ∧
    bayQuiet busy 70 = false ∧ 70 ∈ gated.gated ∧ (after (.bayResume 70) gated).gated = [] := by decide +kernel

theorem wit_PowerLimits : let s := regPut { w with ceil := 40 } pwrPage 0x40 700
    let low := { s with ceil := 12 }
    let hot := s.setDie 2 { (s.die 2) with thermal := true, thermCeil := 20 }
    8 ≤ s.ceil ∧ s.ceil ≤ 64 ∧
    -- 700 W at ceiling 40, of which 640 W scale at 64: 10 W a step
    govMeets s 700 50 640 40 = true ∧ govMeets s 700 50 640 41 = false ∧ (after (.govSample 700 50 640) s).ceil = 40 ∧
    (after (.govSample 720 50 640) s).ceil = 38 ∧ (after (.govSample 900 50 640) s).ceil = 36 ∧ (after (.govSample 600 50 640) s).ceil = 44 ∧
    govMeets low 900 50 640 8 = false ∧ (after (.govSample 900 50 640) low).ceil = 8 ∧ Posted (after (.govSample 900 50 640) low) pwrPage 1 ∧
    ((after (.govSample 700 50 640) hot).die 2).thermCeil = 16 ∧
    (after .overcurrent s).ceil = 32 ∧ ((after (.thermalWarn 2 (degC 95)) s).die 2).thermal = true ∧ (hot.die 2).thermal = true ∧
    ((after (.thermalThrottleEnd 2 (degC 89)) hot).die 2).thermal = false ∧ ((after (.thermalWarn 9 (degC 85)) s).stack 0).hot = true ∧
    ((after (.thermalWarn 9 (degC 95)) s).stack 0).halved = true ∧ ((after (.thermalTrip 10 (degC 105)) s).stack 1).fenceReq = true ∧
    (s.stack 1).training = false ∧ ((after (.thermalTrip 3 (degC 110)) s).die 5).target = some 3 ∧
    (after (.thermalTrip 27 (degC 80)) s).boot.shut = [2] ∧ (after (.thermalTrip 37 (degC 80)) s).boot.shut = [12] := by
  unfold Posted; decide +kernel

/-! ### The vault and the mailbox -/

/-- SHA-384 of eight bytes of 1 (FIPS 180-4; R447). -/
def digest1 : List Byte := [53, 212, 194, 120, 32, 192, 173, 188, 190, 255, 77, 228, 183, 81, 46, 90, 14, 169, 213, 124, 1, 76, 252, 224, 155, 170, 91, 138, 138, 27, 178, 169, 169, 112, 160, 141, 196, 232, 97, 252, 214, 96, 120, 220, 86, 125, 37, 95]

theorem test_sha384 : sha384 (List.replicate 8 1) = digest1 := by decide +kernel

/-- An image of a kind with SVN 2 and version 0x101, whose body is eight bytes of 1. -/
def anImage (kind : Nat) (dig : List Byte) (body : List Byte) : List Byte :=
  toLE 4 0x5A494D31 ++ toLE 4 (kind + 2 * 256) ++ toLE 4 0x101 ++ toLE 4 body.length ++ dig ++ List.replicate 256 0 ++ body

def imgS (lc : Nat) (img : List Byte) : State :=
  { w with sec := { w.sec with lc := lc, imgState := 1, img := img }, boot := { w.boot with stage := 3 } }

theorem wit_ImageWhole : ∀ k ∈ [1, 5], ImageWhole (imgS 2 (anImage k digest1 (List.replicate 8 1))) := by
  unfold ImageWhole; decide +kernel

theorem wit_Images : let s := imgS 2 (anImage 1 digest1 (List.replicate 8 1))
    let pol := imgS 2 (anImage 5 digest1 (List.replicate 8 1))
    let up := { w with host := { w.host with up := true }, sec := { w.sec with imgState := 0 } }
    (Acc.hart 0) ≠ .host ∧ bit (1 : Word).toNat 0 = true ∧ up.sec.imgState ≠ 1 ∧ vaultTakes up = true ∧
    (after (.imageLoad .host 1) up).sec.imgState = 1 ∧ s.sec.imgState = 1 ∧ hdrBad (anImage 7 digest1 [1]) = true ∧
    hdrBad (imgS 2 (anImage 1 (List.replicate 48 0) [1])).sec.img = false ∧
    sha384 (imgBody (anImage 1 (List.replicate 48 0) [1])) ≠ hdrDigest (anImage 1 (List.replicate 48 0) [1]) ∧
    hdrKind s.sec.img = 1 ∧ s.sec.ownerValid = true ∧ svnFuse s 1 ≤ hdrSvn s.sec.img ∧ svnMin s 1 ≤ hdrSvn s.sec.img ∧ s.boot.stage = 3 ∧
    (after (.imageVerify true true true) s).sec.imgState = 2 ∧ (after (.imageVerify true true true) s).sec.staged.map (·.1) = some 1 ∧
    hdrKind pol.sec.img = 5 ∧ allZero (hdrPalSig pol.sec.img) = true ∧ (after (.imageVerify false true true) pol).sec.policy.isSome = true ∧
    hdrSvn s.sec.img < svnFuse { s with sec := { s.sec with fuse := [(1, 3)] } } 1 := by decide +kernel

/-- A token's digest and the hash that it carries may be any: 48 bytes in six words. -/
theorem sha384_words (m : List Byte) : ∃ a b c d e f : Dword, sha384 m =
    (([a, b, c, d, e, f] : List Dword).map fun w => (toLE 8 w.toNat).reverse).flatten := by
  have round : ∀ (l : List (Dword × Dword)) (v : List Dword × List Dword), v.1.length = 4 ∧ v.2.length = 4 →
      (l.foldl shaRound v).1.length = 4 ∧ (l.foldl shaRound v).2.length = 4 := by
    intro l
    induction l with
    | nil => exact fun v h => h
    | cons x xs ih =>
      intro v h
      refine ih _ ?_
      unfold shaRound
      split
      · obtain ⟨h1, h2⟩ := h
        simp only [List.length_cons] at h1 h2
        simp only [List.length_cons, List.length_take]
        omega
      · exact h
  have blocks : ∀ (n : Nat) (h : List Dword) (l : List Byte), h.length = 8 → (shaBlocks n h l).length = 8 := by
    intro n
    induction n with
    | zero => exact fun h _ e => e
    | succ n ih =>
      intro h l e
      refine ih _ _ ?_
      obtain ⟨r1, r2⟩ := round (shaK.zip (shaSchedule 64 (beWords 16 (l.take 128)).reverse).reverse) (h.take 4, h.drop 4)
        ⟨by rw [List.length_take]; omega, by rw [List.length_drop]; omega⟩
      simp only [shaBlock, List.length_zipWith, List.length_append, e, r1, r2, Nat.min_self]
  have all : ∀ l : List Dword, l.length = 8 → ∃ a b c d e f, l.take 6 = [a, b, c, d, e, f] := by
    intro l h
    match l, h with
    | [a, b, c, d, e, f, _, _], _ => exact ⟨a, b, c, d, e, f, rfl⟩
  unfold sha384
  obtain ⟨a, b, c, d, e, f, h⟩ := all _ (blocks ((m ++ shaPad m.length).length / 128) shaInit (m ++ shaPad m.length) rfl)
  exact ⟨a, b, c, d, e, f, by simp only [h]⟩

/-- The body of a token for RETURN from FIELD (R462), whatever the IDK hash is. -/
def aToken : List Byte := [3] ++ List.replicate 7 0 ++ (List.range 48).map Config.idkHash ++ List.replicate 32 0

def tokenS (dig : List Byte) : State :=
  let s := imgS 2 (anImage 6 dig aToken)
  { s with sec := { s.sec with nonce := List.replicate 8 0 } }

set_option maxRecDepth 20000 in
theorem wit_LifeCycle : ∃ dig, let s := tokenS dig
    s.sec.imgState = 1 ∧ ImageWhole s ∧ hdrKind s.sec.img = 6 ∧ tokTarget (imgBody s.sec.img) = 3 ∧
    tokenOk s (imgBody s.sec.img) true true = true := by
  refine ⟨sha384 aToken, ?_⟩
  obtain ⟨a, b, c, d, e, f, h⟩ := sha384_words aToken
  have body : imgBody (anImage 6 (sha384 aToken) aToken) = aToken := by rw [h]; rfl
  have dig : hdrDigest (anImage 6 (sha384 aToken) aToken) = sha384 aToken := by rw [h]; rfl
  have h0 : slice (anImage 6 (sha384 aToken) aToken) 0 4 = toLE 4 0x5A494D31 := by rw [h]; rfl
  have h4 : slice (anImage 6 (sha384 aToken) aToken) 4 4 = toLE 4 (6 + 2 * 256) := by rw [h]; rfl
  have h6 : slice (anImage 6 (sha384 aToken) aToken) 6 2 = [0, 0] := by rw [h]; rfl
  have hc : slice (anImage 6 (sha384 aToken) aToken) 0xC 4 = toLE 4 88 := by rw [h]; rfl
  have h40 : slice (anImage 6 (sha384 aToken) aToken) 0x40 48 = List.replicate 48 0 := by rw [h]; rfl
  have h130 : slice (anImage 6 (sha384 aToken) aToken) 0x130 16 = List.replicate 16 0 := by rw [h]; rfl
  have hl : (anImage 6 (sha384 aToken) aToken).length = 408 := by rw [h]; rfl
  have kind : hdrKind (anImage 6 (sha384 aToken) aToken) = 6 := by unfold hdrKind fieldLE; rw [h4]; decide +kernel
  have ok : hdrBad (anImage 6 (sha384 aToken) aToken) = false := by
    unfold hdrBad hdrSvn fieldLE; rw [kind, h0, h4, h6, hc, h40, h130, hl]; decide +kernel
  refine ⟨rfl, ⟨ok, ?_⟩, ?_, ?_, ?_⟩
  · show sha384 (imgBody (anImage 6 (sha384 aToken) aToken)) = hdrDigest (anImage 6 (sha384 aToken) aToken)
    rw [body, dig]
  · exact kind
  · show tokTarget (imgBody (anImage 6 (sha384 aToken) aToken)) = 3
    rw [body]; decide +kernel
  · show tokenOk (tokenS (sha384 aToken)) (imgBody (anImage 6 (sha384 aToken) aToken)) true true = true
    rw [body]
    have hash : slice aToken 8 48 = (List.range 48).map Config.idkHash := rfl
    have rest : slice aToken 56 32 = nonceBytes (tokenS (sha384 aToken)) := rfl
    unfold tokenOk
    rw [hash, rest, beq_self_eq_true, beq_self_eq_true]
    rfl

theorem wit_LifeCycle_fails : let s := imgS 2 (anImage 6 digest1 (List.replicate 8 1))
    ImageWhole s ∧ hdrKind s.sec.img = 6 ∧ tokenOk s (imgBody s.sec.img) true true = false ∧ State.reset.boot.standby = false ∧
    s.boot.standby = true := by
  refine ⟨by unfold ImageWhole; decide +kernel, ?_⟩; decide +kernel

/-- Function `fn` has a message of a code in its mailbox, and function 9 another; the link is up and session 5 open. -/
def mailS (fn code : Nat) : State :=
  { w with host := { w.host with up := true, vfs := 63, sessions := [5, fn], mbx := [(9, 2), (fn, code)] }, sec := { w.sec with pbk := some 1 } }

theorem wit_Served : ∀ p ∈ [(5, spdmCode), (5, 1), (5, 7), (0, 7), (0, 8), (0, 9), (0, 10), (3, 2), (3, 3), (3, 4), (3, 5), (3, 6)],
    Served (mailS p.1 p.2) p.1 p.2 [(9, 2)] := by unfold Served; decide +kernel

theorem wit_MailboxAndOwnerMessages : let s := mailS 5 7
    let early := { s with boot := { s.boot with stage := 1 } }
    s.host.up = true ∧ 5 ≤ s.host.vfs ∧ s.boot.inTamper = false ∧ early.boot.stage < 2 ∧ (after (.doeMessage 5 .badAuth) early).host = early.host ∧
    s.boot.stage = 3 ∧ s.host.sessions.contains 6 = false ∧ s.sec.pbk.isSome = true ∧
    (after (.doeMessage 6 (.sessionStart true)) s).host.sessions = [5, 5, 6] ∧ 5 ∉ (after (.doeMessage 5 .badAuth) s).host.sessions ∧
    (after (.doeMessage 6 (.spdm 100)) s).host.mbx = [(9, 2), (5, 7), (6, spdmCode)] ∧
    fnTakes 5 1 = true ∧ fnTakes 5 8 = false ∧ fnTakes 0 8 = true ∧ fnTakes 0 1 = false ∧ s.host.sessions.contains 5 = true ∧
    (after (.doeMessage 5 (.palquel 1 64 true true)) s).host.mbx = [(9, 2), (5, 7), (5, 1)] ∧
    (after (.doeMessage 5 (.palquel 0x99 64 true true)) s).host.mbx = s.host.mbx ∧
    (after (.doeMessage 5 (.palquel 1 20000 true true)) s).host = s.host ∧ (after (.doeMessage 5 (.palquel 1 64 false true)) s).host.mbx = s.host.mbx ∧
    ((after (.doeMessage 5 (.palquel 1 64 false true)) s).host.resp.map (·.2.status)) = [1] ∧
    (let none_ := { s with sec := { s.sec with pbk := none } }; after (.doeMessage 6 (.sessionStart true)) none_ = none_) ∧
    (s.sec.lc = 2 → s.sec.ownerValid = true) ∧ (after (.getEvents 5 3) s).host.mbx = [(9, 2)] ∧
    (s.ctx 9).st = .free ∧ (tfind (after (.getMeasurements 5 [1, 2]) (mailS 5 spdmCode)).host.resp 5).map (·.nonce) = some [1, 2] := by
  decide +kernel

theorem wit_MailboxAndOwnerMessages_relay : let e : PageEvent := { ctx := 3, code := 2, info := 0x55 }
    let s := { (w.setSal 1 { w.sal 1 with evq := [e] }) with syncEvq := [e] }
    let full := (fabS { evq := [e] }).setCtx 3 { (fabS {}).ctx 3 with events := List.replicate 512 (pageEntry 15 8 e) }
    let rec_ : ErrRec := { words := [BitVec.ofNat 32 (3 * 2 ^ 16 + 0x7001), 0, 0, 0, 0, 0, 0, 0] }
    let l := { w with svc := { w.svc with log := [rec_] } }
    let v := regPut w svcPage 0x10 2
    mbxServed s = true ∧ (s.sal 1).evq = [e] ∧ e.ctx ≠ 0 ∧ (s.ctx 3).events.length < 512 ∧
    ((after (.eventRelay (.sal 1)) s).ctx 3).events = [pageEntry 12 1 e] ∧ ((after (.eventRelay .sync) s).ctx 3).events = [pageEntry 15 8 e] ∧
    512 ≤ (full.ctx 3).events.length ∧ ((after (.eventRelay (.ovs 0)) full).ctx 3).evDropped = 1 ∧
    bit (rec_.words.headD 0).toNat 22 = false ∧ bits (rec_.words.headD 0).toNat 16 6 = 3 ∧
    ((after (.eventRelay .errLog) l).ctx 3).events.map (·.words) = [rec_.words] ∧ bit (regGet v svcPage 0x10).toNat 1 = true ∧
    v.host.events.length < 512 ∧ bit (regGet (after (.eventRelay (.svc 1)) v) svcPage 0x10).toNat 1 = false := by decide +kernel

theorem wit_MailboxAndOwnerMessages_owner : let k := mailS 0 8
    let v := { mailS 0 9 with sec := { w.sec with running := [(1, { version := 1, svn := 5, digest := [] })], fuse := [(1, 3)] } }
    let j := mailS 0 10
    tfind (after (.keyInstall (.otk 2 7 9)) k).sec.otk 2 = some { key := 7, sealer := 9, counter := 0 } ∧
    ((after (.keyInstall (.cak 3 [1] 5)) k).mac 3).cak = some { ckn := [1], key := 5 } ∧ (after (.keyInstall (.cak 16 [1] 5)) k).macs = k.macs ∧
    (after (.keyInstall (.otk 4 7 9)) k).sec = k.sec ∧
    (tfind v.sec.running 1).isSome = true ∧ svnFuse (after (.svnCommit 1) v) 1 = 5 ∧
    ((after (.jobSet [.seed 4 0x1234]) j).jobSlot 4).seed = 0x1234 ∧ linkSlot (after (.jobSet [.bind 3 4 true]) j) 3 = some 4 ∧
    [JobItem.seed 4 0].any jobItemBad = false ∧
    (after (.jobSet [.entry 4 0 0 1 0 0 0, .seed 4 9]) j).jobs = j.jobs := by decide +kernel

/-- Context 3 in a state, with a message of a code in its mailbox. -/
def ctxS (code : Nat) (st : CtxState) : State :=
  let s := mailS 3 code
  { s with ctxs := [(3, { s.ctx 3 with st := st })], sec := { s.sec with policy := some {} }, tags := [], host := { s.host with mbx := [(9, 2), (3, code)] } }

theorem wit_ContextLife : let free := { ctxS 1 .free with ctxs := [] }
    let b := { ctxS 2 .building with quota := [(24, 64), (32, 868)] }
    let low : Region := { valid := true, base := 0, limit := 0xFFFF, attr := 3 }
    ctxsOpen free = true ∧ (free.ctx 3).st = .free ∧ ((after (.ctxOpen 3) free).ctx 3).st = .building ∧
    ctxsOpen { free with boot := { free.boot with stage := 2 } } = false ∧
    ((after (.ctxOpen 3) free).ctx 3).memKey ≠ ((after (.ctxOpen 3) free).ctx 3).sealKey ∧
    [SetItem.region 64 0 0 0].any itemBad = true ∧ [SetItem.quota 0 5].any itemBad = false ∧ (b.ctx 3).st = .building ∧
    itemHart 0x21 0 = some 2 ∧ hartFenced b 2 = false ∧ (b.hart 2).bound = false ∧
    ((after (.ctxSet 3 [.hart 0x21 0]) b).hart 2).bound = true ∧
    (let o := b.setHart 2 { b.hart 2 with bound := true, ctx := 9 }; (o.hart 2).ctx ≠ 3 ∧ (after (.ctxSet 3 [.hart 0x21 0]) o).harts = o.harts) ∧
    b.svc.bays.contains 7 = false ∧ b.bayCtx 7 = none ∧ (after (.ctxSet 3 [.queue (bayEng 7) 0]) b).bayCtx 7 = some 3 ∧
    (((List.range 64).filter (· != 3)).map fun m => quotaOf b m 0).sum = 900 ∧ quotaOf (after (.ctxSet 3 [.quota 0 124]) b) 3 0 = 124 ∧
    quotaOf (after (.ctxSet 3 [.quota 0 125]) b) 3 0 = 64 ∧ low.valid = true := by decide +kernel

theorem wit_ContextLife_more : let l := ctxS 3 .building
    let sd := ctxS 4 .building
    let sd := sd.setCtx 3 { sd.ctx 3 with seed := none, seedSet := false }
    let st := ctxS 5 .building
    let rel := ctxS 6 .run
    let z := ctxS 6 .releasing
    coreOf l 3 0x20 = true ∧ rdByte (after (.ctxLoad 3 0x20 16 [7, 8]) l).mem (coreMemAddr 0 17) = 8 ∧ (sd.ctx 3).seedSet = false ∧
    ((after (.ctxSeed 3 (some 9)) sd).ctx 3).seed = some 9 ∧ ((after (.ctxStart 3) st).ctx 3).st = .run ∧ (st.ctx 3).seed = some 7 ∧
    (rel.ctx 3).st = .run ∧ ((after (.ctxRelease 3) rel).ctx 3).st = .releasing ∧ ctxIdle rel 3 = true ∧ (z.ctx 3).st = .releasing ∧
    ctxIdle z 3 = true ∧ ((after (.ctxZeroise 3) z).ctx 3).st = .free ∧ hartCtx z 0 = some 3 ∧
    (let gone := { st with meshFailed := [1] }; gone.dead = true ∧ (after (.ctxStart 3) gone).ctxs = gone.ctxs) ∧
    -- hart 5 was bound once and left a record: its ring is gone after the zeroise
    (let left := (z.setHart 5 { was := [3], ring := [7], head := 4 }).setRaw (ringAddr 5 0) [9]
     (left.hart 5).was.contains 3 = true ∧ ((after (.ctxZeroise 3) left).hart 5).ring = [] ∧
     rdByte (after (.ctxZeroise 3) left).mem (ringAddr 5 0) = 0) := by decide +kernel

theorem wit_ContextLife_cards : Warden w wd ∧ hartFenced w 9 = false ∧ (w.hart 9).bound = false ∧ (w.hart 1).bound = true ∧
    (w.hart 1).ctx ≠ 9 ∧ (after (.ccHartCtx wd 0 1 0x80000009) w).harts = w.harts ∧
    ((after (.ccHartCtx wd 4 1 0x80000009) w).hart 9).ctx = 9 ∧ ((after (.ccHartCtx wd 4 1 0x80000009) w).hart 9).was = [9] ∧ ((after (.ccHartCtx wd 0 1 0) w).hart 1).bound = false ∧
    quotaOf (after (.ccCtxTagq wd 3 0 100) w) 3 0 = 100 := ⟨⟨by decide +kernel, by decide +kernel⟩, by decide +kernel⟩
/-! ### Service, registers, resets -/

theorem wit_Fences : let s := w
    let busy := { w with svc := { w.svc with busy := some { kind := 1, part := 3, on := true } } }
    let had := { w with svc := { w.svc with bays := [70], lmods := [3], links := [4] } }
    let bf := { w with svc := { w.svc with bays := [70], busy := some { kind := 0, part := 70, on := true } } }
    let run := { (w.setRun (bayEng 70) 0 (anOp (bayEng 70) 0 [])) with svc := bf.svc }
    let un := { w with svc := { w.svc with bays := [70], busy := some { kind := 0, part := 70, on := false } } }
    Warden s wd ∧ s.svc.held = [] ∧ s.svc.updState ≠ 1 ∧ s.svc.busy = none ∧ 70 ∉ s.svc.bays ∧ 70 ∈ had.svc.bays ∧ 3 ∉ s.svc.lmods ∧
    3 ∈ had.svc.lmods ∧ 4 ∉ s.svc.links ∧ 4 ∈ had.svc.links ∧ (after (.bayFence wd 70) s).svc.bays = [70] ∧
    (after (.linkFence wd 4) busy).svc.held = [{ kind := 2, part := 4, on := true }] ∧ isWarden s (.hart 0) = false ∧
    (after .fenceDone busy).svc.busy = none ∧ bayStopped run 70 = false ∧ after .fenceDone run = run ∧ bayStopped bf 70 = true ∧
    (after .fenceDone bf).svc.busy = none ∧ (after (.bayUnfenceDone 70) un).svc.bays = [] ∧ (after (.lmodUnfence wd 3) had).svc.lmods = [] :=
  ⟨⟨by decide +kernel, by decide +kernel⟩, by decide +kernel⟩

/-- An update of KIND 1 is staged. -/
def updS (x : Svc) : State :=
  regPut { w with svc := x, sec := { w.sec with staged := some (1, { version := 9, svn := 2, digest := [] }), running := [(1, { version := 8 })] } }
    svcPage 0x90 0xFFFF0001

theorem wit_UpdateErrorLogAndMesh : let s := updS {}
    let i := (updInstances 1).headD 0
    let one := regPut s svcPage 0x90 (BitVec.ofNat 32 (1 + i * 2 ^ 16))
    let run := updS { updState := 1, updKind := 1, updAt := i, updLeft := (updInstances 1).drop 1, updImg := s.sec.staged.map (·.2) }
    let last := updS { updState := 1, updKind := 1, updAt := i, updLeft := [], updImg := s.sec.staged.map (·.2) }
    let r : ErrRec := { words := [1, 2, 3, 4, 5, 6, 7, 8] }
    Warden s wd ∧ s.svc.updState ≠ 1 ∧ (w.sec.staged = none) ∧ regField s svcPage 0x90 0 4 = 1 ∧ regField s svcPage 0x90 16 16 = 0xFFFF ∧
    updInstances 1 ≠ [] ∧ (after (.apply wd 1) s).svc.updState = 1 ∧ (after (.apply wd 1) s).svc.updAt = i ∧
    regField one svcPage 0x90 16 16 = i ∧ (after (.apply wd 1) one).svc.updLeft = [] ∧ updQuiet run 1 i = true ∧ (after (.apply wd 1) s).svc.updImg = s.sec.staged.map (·.2) ∧
    (after (.updateInstanceQuiesced true) last).sec.staged = none ∧
    (after (.updateInstanceQuiesced true) last).svc.updState = 2 ∧ (after (.updateInstanceQuiesced true) run).svc.updState = 1 ∧
    (after (.svcErrlogW0 wd) { w with svc := { w.svc with log := [r] } }).svc.log = [] ∧ isWarden w (.hart 0) = false ∧ w.svc.log = [] ∧
    w.boot.hub = true ∧ 5 ∉ w.meshFailed ∧ (after (.meshFail 5) w).meshFailed = [5] :=
  ⟨⟨by decide +kernel, by decide +kernel⟩, by decide +kernel⟩

/-- An instance that is not quiet yet holds the update. -/
theorem wit_UpdateErrorLogAndMesh_busy : let s := updS { updState := 1, updKind := 4, updAt := 256, updImg := some {} }
    let s := s.setFabric 0 { ctx := some 3, harvesting := true }
    updQuiet s 4 256 = false ∧ after (.updateInstanceQuiesced true) s = s := by decide +kernel

theorem wit_RegisterPages : let s := regPut w timePage 0x10 0x30
    let locked := regPut w timePage 0x28 1
    let q := regPut w (ovsPage 0) 8 3
    Warden s wd ∧ pageMapped timePage = true ∧ bit (regGet s timePage 0x28).toNat 0 = false ∧ bit (regGet locked timePage 0x28).toNat 0 = true ∧
    after (.enable wd timePage 1) locked = crossReg locked wd timePage ∧ (3 : Word).toNat < 4 ∧ (ovsPage 0) / 1024 ≠ 16 ∧
    regGet (after (.enable wd (ovsPage 0) 3) s) (ovsPage 0) 8 = 3 ∧ quietAtOnce timePage = true ∧ bit (5 : Word).toNat 2 = true ∧
    regField s timePage 0x28 0 2 = 0 ∧ regField locked timePage 0x28 0 2 ≠ 0 ∧ bit (regGet (after (.ctlLock wd timePage 1) s) timePage 0x28).toNat 0 = true ∧
    accLive s (.hart 0) = true ∧ isWarden s (.hart 0) = false ∧ quiescing q (ovsPage 0) = true ∧ blockQuiet q (ovsPage 0) = true ∧
    bit (regGet (after (.quiesced (ovsPage 0)) q) (ovsPage 0) 0xC).toNat 3 = true ∧ quiescing s (ovsPage 0) = false ∧
    regGet (after (.registerWrite wd timePage 0x10 4 0x10) s) timePage 0x10 = 0x20 ∧
    regGet (after (.registerWrite wd timePage 0x14 4 0x77) s) timePage 0x14 = 0x77 :=
  ⟨⟨by decide +kernel, by decide +kernel⟩, by decide +kernel⟩

theorem wit_RegisterPages_more : let up := { w with host := { w.host with up := true, vfs := 63 }, cnts := [(timePage * 256 + 1, 0x500000003)] }
    let err := regPut w timePage 0x1C 0xA001
    resetTakes w (ovsPage 3) = false ∧ resetTakes (regPut (regPut w (ovsPage 3) 8 3) (ovsPage 3) 0xC 8) (ovsPage 3) = true ∧
    pageMapped 0xFFFF = false ∧ ((after (.registerWrite (.hart 0) 0xFFFF 0 4 1) w).hart 0).trap = some (.storeFault (0xF000_0000_0000 + 0xFFFF * 4096)) ∧
    writeOpen w (.hart 0) timePage 0x54 = false ∧ after (.registerWrite (.hart 0) timePage 0x54 4 1) w = crossReg w (.hart 0) timePage ∧
    isFn (.vf 5) = true ∧ accLive up (.vf 5) = true ∧ (regInfo timePage 0x54).isSome = true ∧ writeOpen up (.vf 5) timePage 0x54 = false ∧
    tget 0 (after (.registerWrite (.vf 5) timePage 0x54 4 1) up).cnts (hostPage * 256 + 1) = 1 ∧
    tget 0 (after (.registerWrite (.vf 5) 0xFFFF 0 4 1) up).cnts (hostPage * 256) = 1 ∧
    tget 0 (after (.errCodeRead wd timePage 0x1C) err).readVal (accKey wd) = 0xA001 ∧ regGet (after (.errCodeRead wd timePage 0x1C) err) timePage 0x1C = 0 ∧
    accCtx err (.hart 0) = some 3 ∧ regGet (after (.errCodeRead (.hart 0) timePage 0x1C) err) timePage 0x1C = 0xA001 := by decide +kernel

theorem wit_HartLoadsAndStores : Issues w 0 3 ∧ InHub hubSramBase 8 := by
  unfold Issues InHub; decide +kernel

theorem wit_HartLoadsAndStores_more :
    let a := hubSramBase + 0x100
    let page := 0xF000_0000_0000 + timePage * 4096
    let ring := ringAddr 4 0
    rdByte (after (.hartLoadStore 0 5 0x40 2 (some 0x1234) .clean) w).mem (coreMemAddr (hartCore 0) 0x41) = 0x12 ∧
    ((after (.hartLoadStore 0 5 0xBFFF 2 (some 1) .clean) w).hart 0).trap = some .illegal ∧
    extCheck w 3 [{ addr := a, len := 8, write := true }] = 0 ∧ extCheck w 3 [{ addr := hubSramBase + 0x200000, len := 8, write := true }] ≠ 0 ∧
    extCheck w 3 [{ addr := hubSramBase + 0x200000, len := 8, write := false }] ≠ 0 ∧ extCheck w 3 [{ addr := a, len := 8, write := false }] = 0 ∧
    (after (.hartLoadStore 0 5 a 8 (some 0x55) .clean) w).rawLE a 8 = 0x55 ∧
    ((after (.hartLoadStore 0 5 (hubSramBase + 0x200000) 8 none .clean) w).hart 0).trap = some (.loadFault (hubSramBase + 0x200000)) ∧
    ((after (.hartLoadStore 0 5 (page + 2) 4 none .clean) w).hart 0).trap = some (.loadFault (page + 2)) ∧
    readOpen w (.hart 0) svcPage 0x40 = false ∧ pageMapped svcPage = true ∧
    ringByte ring = true ∧ hartCtx w 256 = some 0 ∧ hartRuns w 256 = true ∧ extCheck w 0 [{ addr := ring, len := 8, write := true }] = 0 ∧
    ((after (.hartLoadStore 256 5 ring 8 (some 1) .clean) w).hart 256).trap = some .illegal := by decide +kernel

theorem wit_RailsAndResets : let off := State.reset
    let on := { off with boot := { off.boot with standby := true } }
    let ready := { on with boot := { on.boot with alwaysOn := true, mainRail := true } }
    let rom := { ready with boot := { ready.boot with hub := true, rom := true } }
    let dead := { rom with sec := { rom.sec with defunctPending := true } }
    let up := { w with host := { w.host with up := true } }
    off.boot.standby = false ∧ (after .standbyUp off).boot.standby = true ∧ on.boot.alwaysOn = false ∧
    (after .alwaysOnReady on).time.running = true ∧ (after .mainRailUp on).boot.mainRail = true ∧ ready.boot.hub = false ∧
    (after .hubPowerOn ready).boot.rom = true ∧ on.boot.mainRail = false ∧ rom.boot.romDone = false ∧ rom.boot.perst = false ∧
    rom.boot.lands = false ∧ dead.sec.defunctPending = true ∧ dead.sec.lc ≠ 4 ∧ rom.sec.defunctPending = false ∧
    (after (.romBoot true true true) rom).boot.stage = 1 ∧ (after (.romBoot true false true) rom).boot.stage = 4 ∧ w.boot.mainRail = true ∧
    w.boot.hub = true ∧ w.boot.standby = true ∧ w.boot.inTamper = false ∧ up.host.up = true ∧
    bits (0xA5C30001 : Word).toNat 16 16 = 0xA5C3 ∧ bits (0xA5C30001 : Word).toNat 0 2 = 1 ∧ bits (0xA5C30002 : Word).toNat 0 2 = 2 ∧
    resetTaken up false = true ∧ resetTaken up true = true ∧ (after (.warmReset .host 0xA5C30001) up).boot.cause = 2 ∧
    (after (.coldReset .host 0xA5C30002) up).boot.cause = 1 ∧ after (.warmReset .host 0xA5C40001) up = up := by decide +kernel

theorem wit_RailsAndResets_watchdog : let u := regPut { w with boot := { w.boot with stage := 2 } } bootPage 0x4C 1
    let n := regPut u bootPage 0x4C 0
    Warden w wd ∧ bit (0x80000064 : Word).toNat 31 = true ∧ regField (after (.kick wd 0x80000064) w) bootPage 0x4C 0 16 = 100 ∧
    u.boot.stage = 2 ∧ regField u bootPage 0x4C 0 16 ≠ 0 ∧ (after .bootWdogExpire u).boot.cause = 4 ∧ regField n bootPage 0x4C 0 16 = 0 :=
  ⟨⟨by decide +kernel, by decide +kernel⟩, by decide +kernel⟩

theorem wit_LasersLoopbackHostLinkAndTestAccess : let s := { w with boot := { w.boot with lit := [3], lbRun := [(4, 2)] } }
    let out := { w with boot := { w.boot with seated := [0, 1] }, sec := { w.sec with running := [(2, { version := 1 })] } }
    let lock := { s with boot := { s.boot with lbLock := [(4, 2)] } }
    3 ∈ s.boot.seated ∧ (after (.laserRemove 3) s).boot.lit = [] ∧ 3 ∉ out.boot.seated ∧ (tfind out.sec.running 2).isSome = true ∧
    3 ∉ out.svc.lmods ∧ (after (.laserInsert 3) out).boot.lit = [3] ∧ 3 ∈ s.boot.lit ∧ 3 ∉ s.boot.stable ∧ (after (.laserStable 3) s).boot.stable = [3] ∧
    tget 0 s.boot.lbRun 4 ≠ 0 ∧ (tget 0 (after (.lbLock 4 1) s).boot.lbLock 4).getLsbD 1 = true ∧
    (tget 0 lock.boot.lbLock 4).getLsbD 1 = true ∧ (tget 0 lock.boot.lbPass 4).getLsbD 1 = false ∧
    w.host.up = false ∧ w.boot.portOn = true ∧ w.boot.perst = false ∧
    w.boot.lands = false ∧ (after (.hostLinkUp 6 16 true 7 63) w).host.up = true ∧
    after (.hostLinkUp 5 16 true 7 63) w = w ∧ linkShape 5 8 false = true ∧ linkShape 6 17 true = false ∧ (after .hostLinkDown { w with host := { w.host with up := true } }).host.up = false ∧
    State.reset.boot.portOn = false := by decide +kernel

theorem wit_LasersLoopbackHostLinkAndTestAccess_loopback : let s := regPut { w with boot := { w.boot with lit := [2] } } bootPage 0x54 4
    Warden s wd ∧ regField s bootPage 0x54 0 4 = 4 ∧ bit (6 : Word).toNat 2 = true ∧ bits (6 : Word).toNat 0 2 = 2 ∧ lbIdle s 4 = true ∧
    lbLit s 4 = true ∧ tget 0 (after (.bootLbCtl wd 6) s).boot.lbRun 4 = 2 ∧ lbLit w 4 = false ∧
    (after (.bootLbCtl wd 6) (regPut w bootPage 0x54 4)).boot.lbRefused = true :=
  ⟨⟨by decide +kernel, by decide +kernel⟩, by decide +kernel⟩

/-- The IDCODE, and what each test instruction does to the lands and the dies (R461, R522, R524). -/
theorem wit_LasersLoopbackHostLinkAndTestAccess_tap : let s := { w with sec := { w.sec with lc := 0 } }
    let one := { w with boot := { w.boot with stage := 1 } }
    w.boot.standby = true ∧ TapHolds (after .idcode w) 0x01 ∧ (after .idcode w).boot.tapDr = 0x1A4157AB ∧ one.boot.stage = 1 ∧ w.boot.stage = 3 ∧
    (after .extest one).boot.lands = true ∧ (after .extest w).boot.lands = false ∧ s.sec.lc = 0 ∧ s.boot.testHold = false ∧ s.boot.hub = true ∧
    s.boot.inTamper = false ∧ (after (.memoryBist 3) s).boot.testHold = true ∧ (after (.memoryBist 3) s).boot.stage = 4 ∧ w.sec.lc ≠ 0 ∧
    w.sec.lc ≠ 3 ∧ (after (.memoryBist 3) w).boot.testHold = false := by unfold TapHolds; decide +kernel

/-- A state with a command in front that meets what every step keeps, and its step (StepKeepsInv, StepRunsTheFrontCommand). -/
theorem wit_StepKeepsInv : let s := { w with pending := [.standbyUp, .timeTick] }
    s.Inv ∧ (match step s with | .next t => t.pending == [.timeTick] | _ => false) = true ∧
    (match step w with | .next t => t == w | _ => false) = true := by unfold State.Inv; decide +kernel

theorem wit_StepRunsTheFrontCommand : ({ w with pending := [.standbyUp, .timeTick] } : State).pending = .standbyUp :: [.timeTick] := rfl

/-- No word spells a command: the table gives no row bits. -/
theorem test_decodeTableWord : decodeTableWord 32 0x12345678 = none ∧ State.reset.withFetchWord 32 5 = State.reset := by decide +kernel

/-! ### WellFormed: one ill-formed command for each kind of check -/

theorem test_wf_refuses : [Instr.zpush 258 0 0, .zpush 0 32 0, .epochIncrement 64, .hartLoadStore 0 32 0 4 none .clean,
    .hartLoadStore 0 0 (2 ^ 52) 4 none .clean, .hartLoadStore 0 0 0 3 none .clean, .waitTimeout (.hart 258), .waitTimeout (.vec 256),
    .waitTimeout (.head 4096 0), .waitTimeout (.pan 0 2), .dlDieReport 9 0, .snap (.vf 0) 0, .snap (.vf 64) 0, .descHead 0 4, .opComplete 0 2,
    .pmm 256, .salFetchDone 8, .counterLoRead .host 65536 0, .counterLoRead .host 0 2, .dnop 4096, .scrubStack 16 .clean false, .forcedRefresh 16 0].all
    (fun i => !i.wf) = true := by decide +kernel

theorem test_wf_refuses_more : [Instr.keyxTimeout 12, .lightLoss 16, .keyx 0 (2 ^ 20) 0 true true true, .rxFrame 0 { wire := [], lag := 0 },
    .txStage 16 0, .txStage 0 8, .onop 4, .dot 0 1024, .stale 0 0 3 { payload := 0, epoch := 0, ctrl := false, last := false },
    .verdict 0 64, .trigFire 16, .capture 4, .dieIdle 9, .bayGate 256, .thermalWarn 41 0, .tamper 5, .ctxOpen 0, .ctxOpen 64, .ctxLoad 1 4096 0 [],
    .keyInstall (.otk 4 0 0), .keyInstall (.cak 16 [0] 0), .keyInstall (.cak 0 [] 0), .eventRelay (.sal 8), .eventRelay (.ovs 4), .eventRelay (.svc 32), .ccHartCtx .host 130 0 0,
    .ccHartCtx .host 0 2 0, .ccCtxTagq .host 1 8 0, .lmodFence .host 8, .linkFence .host 12, .meshFail 14, .registerWrite .host 0 0 8 0,
    .laserRemove 8, .hostLinkUp 0 16 true 0 0, .hostLinkUp 5 17 true 0 0, .hostLinkUp 5 16 true 0 64, .txAnSwitch 0 4 0 [], .lbLock 16 0, .lbPass 0 8].all
    (fun i => !i.wf) = true := by decide +kernel

theorem test_wf_accepts : [Instr.zpush 257 31 0, .waitTimeout (.pan 255 1), .snap (.vf 63) 0, .dot 3 1023, .hostLinkUp 6 16 true 0 63,
    .registerWrite .host 65535 4095 4 0].all (fun i => i.wf) = true := by decide +kernel

end Sys2Proof.Tests
end

/-! ## Staging and pushes (02, R41 to R44, R50, R58 to R60) -/

namespace Sys2Proof.Machine

open Sys2Proof

/-! ### Memory and the header -/

/-- Bytes written are read back whole. -/
theorem rdBytes_wrBytes (bs : List Byte) (m : List Host.Cell) (a : Nat) : rdBytes (wrBytes m a bs) a bs.length = bs := by
  induction bs generalizing m a with
  | nil => rfl
  | cons b bs ih =>
    have head : rdByte (wrBytes m a (b :: bs)) a = b := rdByte_wrBytes_in (b :: bs) m a 0 (by simp)
    rw [List.length_cons, rdBytes, head, wrBytes, ih]

/-- A record is 32 bytes long (R59). -/
theorem recordBytes_length (op : Op) (status stmp rflags : Nat) : (recordBytes op status stmp rflags).length = 32 := by
  have payload : ∀ ws : List Word, ((ws.map fun w => toLE 4 w.toNat).flatten).length = ws.length * 4 := by
    intro ws
    induction ws with
    | nil => rfl
    | cons w ws ih => simp [ih]; omega
  simp only [recordBytes, List.length_append, toLE_length, payload, padTo_length]

/-- The overwriting of TAG and CTX leaves SIG_EN as software placed it (R50). -/
theorem bit31_stampHeader (hdr tag n : Nat) : bit (BitVec.ofNat 64 (stampHeader hdr tag n)).toNat 31 = bit hdr 31 := by
  have quotient : stampHeader hdr tag n % 2 ^ 64 / 2 ^ 31 % 2 = hdr / 2 ^ 31 % 2 := by
    unfold stampHeader
    omega
  rw [BitVec.toNat_ofNat, bit, quotient, bit]

/-! ### Issuing a word (R41, R42) -/

section Words

variable {s : State} {h n w : Nat}

theorem issueWord_cmd {i : Instr} (hd : decodeHart h (hartReg s h) w = .cmd i) : issueWord h w s = exec i s := by
  rw [issueWord, hd]

theorem issueWord_illegal (hi : Issues s h n) (hd : decodeHart h (hartReg s h) w = .illegal) :
    issueWord h w s = .next (s.setHart h { s.hart h with trap := some .illegal }) := by
  rw [issueWord, hd]
  exact hartDo_yes _ hi

theorem opcode_eq_mod (w : Nat) : wordField w 0 7 = w % 128 := by
  simp [wordField]

/-- The words of custom-0 that spell no command (R42). -/
theorem decodeHart_custom0_illegal (x : Nat → Dword) (hw : w % 128 = 0x0B)
    (hf : (wordField w 12 3 = 1 ∧ 3 ≤ wordField w 25 7) ∨ (wordField w 12 3 = 2 ∧ 2 ≤ wordField w 25 7) ∨
      ((wordField w 12 3 = 3 ∨ wordField w 12 3 = 4) ∧ 1 ≤ wordField w 25 7) ∨ 5 ≤ wordField w 12 3) :
    decodeHart h x w = .illegal := by
  rw [← opcode_eq_mod] at hw
  unfold decodeHart
  rw [hw]
  generalize wordField w 12 3 = f3 at hf
  generalize wordField w 25 7 = f7 at hf
  rcases hf with ⟨rfl, hk⟩ | ⟨rfl, hk⟩ | ⟨rfl | rfl, hk⟩ | hk <;>
  · obtain ⟨k, rfl⟩ := Nat.exists_eq_add_of_le' hk
    rfl

/-- The words of custom-1 that spell no command (R42). -/
theorem decodeHart_custom1_illegal (x : Nat → Dword) (hw : w % 128 = 0x2B)
    (hf : (wordField w 12 3 = 0 ∧ 3 ≤ wordField w 25 7) ∨ (wordField w 12 3 = 1 ∧ 1 ≤ wordField w 25 7) ∨
      2 ≤ wordField w 12 3) :
    decodeHart h x w = .illegal := by
  rw [← opcode_eq_mod] at hw
  unfold decodeHart
  rw [hw]
  generalize wordField w 12 3 = f3 at hf
  generalize wordField w 25 7 = f7 at hf
  rcases hf with ⟨rfl, hk⟩ | ⟨rfl, hk⟩ | hk <;>
  · obtain ⟨k, rfl⟩ := Nat.exists_eq_add_of_le' hk
    rfl

theorem decodeHart_zstg (x : Nat → Dword) (hw : w % 128 = 0x0B) (h3 : wordField w 12 3 = 0) : decodeHart h x w =
    .cmd (.zstg h (wordField w 7 5) (x (wordField w 15 5)) (BitVec.ofNat 12 (wordField w 20 12))) := by
  simp only [decodeHart, opcode_eq_mod, hw, h3]

theorem decodeHart_zpush (x : Nat → Dword) (hw : w % 128 = 0x0B) (h3 : wordField w 12 3 = 1) (h7 : wordField w 25 7 = 0) :
    decodeHart h x w = .cmd (.zpush h (wordField w 7 5) (x (wordField w 15 5))) := by
  simp only [decodeHart, opcode_eq_mod, hw, h3, h7]

theorem decodeHart_ztpush (x : Nat → Dword) (hw : w % 128 = 0x0B) (h3 : wordField w 12 3 = 1) (h7 : wordField w 25 7 = 1) :
    decodeHart h x w = .cmd (.ztpush h (wordField w 7 5) (x (wordField w 15 5))) := by
  simp only [decodeHart, opcode_eq_mod, hw, h3, h7]

theorem decodeHart_zpushm (x : Nat → Dword) (hw : w % 128 = 0x0B) (h3 : wordField w 12 3 = 1) (h7 : wordField w 25 7 = 2) :
    decodeHart h x w = .cmd (.zpushm h (wordField w 7 5) (x (wordField w 15 5)) (x (wordField w 20 5))) := by
  simp only [decodeHart, opcode_eq_mod, hw, h3, h7]

end Words

/-! ### What each command of the family answers -/

section Pushes

variable {s : State} {h n : Nat} (rd : Nat) (rs1 : Dword)

theorem exec_zstg (hi : Issues s h n) (imm : BitVec 12) :
    exec (.zstg h rd rs1 imm) s = .next (if 8 ≤ imm.toNat ∨ rd ≠ 0 then trapHart s h .illegal
      else s.setHart h { s.hart h with staging := tset 0 (s.hart h).staging imm.toNat rs1 }) := by
  show execZstg h rd rs1 imm s = _
  rw [execZstg, hartDo_yes _ hi]

theorem exec_zpush (hi : Issues s h n) :
    exec (.zpush h rd rs1) s = .next (pushBlocking s h rd rs1 (stagingBytes (s.hart h))) := by
  show execZpush h rd rs1 s = _
  rw [execZpush, hartDo_yes _ hi]

theorem exec_zpushm (hi : Issues s h n) (rs2 : Dword) :
    exec (.zpushm h rd rs1 rs2) s = .next (if rs2.toNat % 64 ≠ 0 ∨ 0xBFC0 < rs2.toNat then trapHart s h .illegal
      else pushBlocking s h rd rs1 (s.raw (coreMemAddr (hartCore h) rs2.toNat) 64)) := by
  show execZpushm h rd rs1 rs2 s = _
  rw [execZpushm, hartDo_yes _ hi]

/-- ZTPUSH is accepted where there is room, and where ZPUSH would block it returns REFUSED with TAG 0 (R43). -/
theorem exec_ztpush (hi : Issues s h n) :
    exec (.ztpush h rd rs1) s = .next (if pushRoom s n h rs1.toNat (pushStatus s n h rs1.toNat)
      then acceptPush s n h rd rs1.toNat (stagingBytes (s.hart h)) (pushStatus s n h rs1.toNat)
      else s.setHart h (wrX (s.hart h) rd (BitVec.ofNat 64 (2 ^ 63)))) := by
  show execZtpush h rd rs1 s = _
  rw [execZtpush, hartDo_yes _ hi]
  simp only [hi.2]

/-- A blocked push of a hart that is not stopped is tried again as it was (R44). -/
theorem exec_pushUnblock {desc : List Byte} (hb : (s.hart h).blocked = some (.push rd rs1 desc)) (hs : (s.hart h).stopped = false) :
    exec (.pushUnblock h) s = .next (pushBlocking s h rd rs1 desc) := by
  show execPushUnblock h s = _
  simp only [execPushUnblock, hb, hs, Bool.false_eq_true, if_false]

theorem pushBlocking_room (hc : hartCtx s h = some n) (desc : List Byte)
    (hr : pushRoom s n h rs1.toNat (pushStatus s n h rs1.toNat) = true) :
    pushBlocking s h rd rs1 desc = acceptPush s n h rd rs1.toNat desc (pushStatus s n h rs1.toNat) := by
  simp only [pushBlocking, hc, hr, if_true]

theorem pushBlocking_noRoom (hc : hartCtx s h = some n) (desc : List Byte)
    (hr : pushRoom s n h rs1.toNat (pushStatus s n h rs1.toNat) = false) :
    pushBlocking s h rd rs1 desc = s.setHart h { s.hart h with blocked := some (.push rd rs1 desc) } := by
  simp only [pushBlocking, hc, hr, Bool.false_eq_true, if_false]

theorem acceptPush_ready (hp : PushReady s n h rs1) (desc : List Byte) :
    Pushed s (acceptPush s n h rd rs1.toNat desc (pushStatus s n h rs1.toNat)) n h rd rs1 desc := by
  obtain ⟨status, -, tag⟩ := hp
  rw [status]
  exact acceptPush_spec s n h rd rs1 desc tag

theorem pushRoom_of_ready (hp : PushReady s n h rs1) : pushRoom s n h rs1.toNat (pushStatus s n h rs1.toNat) = true := by
  obtain ⟨status, room, -⟩ := hp
  rwa [status]

/-- A ready push, by whichever command it comes, reaches its queue (R43, R50). -/
theorem pushBlocking_ready (hc : hartCtx s h = some n) (hp : PushReady s n h rs1) (desc : List Byte) :
    Pushed s (pushBlocking s h rd rs1 desc) n h rd rs1 desc := by
  rw [pushBlocking_room rd rs1 hc desc (pushRoom_of_ready rs1 hp)]
  exact acceptPush_ready rd rs1 hp desc

end Pushes

/-! ### The record of an operation that ends with a status (R53, R57 to R60) -/

section Records

variable {s : State} {op : Op}

theorem wakeRecord_unblocked {h : Nat} (hb : (s.hart h).blocked = none) (tag idx : Nat) : wakeRecord s h tag idx = s := by
  simp only [wakeRecord, hb]

/-- A record stands at the tail of its hart's ring; the hart waits for none, so it goes on as it was, and no queue changes. -/
theorem writeRecord_spec (hb : (s.hart op.hart).blocked = none) (status rflags : Nat) :
    (writeRecord s op status rflags).queues = s.queues ∧
    (writeRecord s op status rflags).hart op.hart =
      { s.hart op.hart with
        tail := (s.hart op.hart).tail + 1
        tailPhase := if (s.hart op.hart).tail = 255 then !(s.hart op.hart).tailPhase else (s.hart op.hart).tailPhase
        ring := (s.hart op.hart).ring ++ [op.tag] } ∧
    (writeRecord s op status rflags).raw (ringAddr op.hart (s.hart op.hart).tail.toNat) 32 =
      recordBytes op status (stamp s).toNat (rflags + b2n (s.hart op.hart).tailPhase * 2 ^ 15) := by
  have back := rdBytes_wrBytes (recordBytes op status (stamp s).toNat (rflags + b2n (s.hart op.hart).tailPhase * 2 ^ 15)) s.mem
    (ringAddr op.hart (s.hart op.hart).tail.toNat)
  rw [recordBytes_length] at back
  unfold writeRecord
  dsimp only
  split <;>
  · rw [wakeRecord_unblocked (by simpa [State.hart, State.setHart] using hb)]
    exact ⟨rfl, tget_tset_same _ _ _ _, back⟩

/-- An operation without SIG_EN that ends with a status of its own writes its record and signals nothing (R51, R53). -/
theorem finish_unsignalled (hsig : bit op.hdr.toNat 31 = false) {status : Nat} (hst : status ≠ 0) :
    finish s op status = (writeRecord s op status op.rflags.toNat, []) := by
  simp [finish, hsig, hst, b2n]

theorem settle_complete_unsignalled (hsig : bit op.hdr.toNat 31 = false) {status : Nat} (hst : status ≠ 0) :
    settle (s, [.complete op status]) = writeRecord s op status op.rflags.toNat := by
  rw [settle, drain_cons, doWork, finish_unsignalled hsig hst]
  exact drain_nil _ _

end Records

/-! ### A push that completes at once (R43) -/

/-- `t` is `s` after a push of hart `h` has ended at once with `status`: a tag that was free is returned in rd, no queue has changed, and
the record stands at the tail of the hart's ring (R43, R58 to R60). -/
def EndedAtOnce (s t : State) (n h rd : Nat) (rs1 : Dword) (desc : List Byte) (status : Nat) : Prop :=
  ∃ tag, tfind s.tags tag = none ∧ t.queues = s.queues ∧
    (t.hart h).ring = (s.hart h).ring ++ [tag] ∧ (t.hart h).tail = (s.hart h).tail + 1 ∧
    (t.hart h).x = (wrX (s.hart h) rd (BitVec.ofNat 64 tag)).x ∧
    t.raw (ringAddr h (s.hart h).tail.toNat) 32 =
      recordBytes (newOp s n h (pushEng rs1) (pushQueue rs1) tag desc) status (stamp s).toNat (b2n (s.hart h).tailPhase * 2 ^ 15)

/-- `s` once a push of hart `h` has crossed to its engine's die and `tag` stands in rd (R24, R43, R57). -/
def tagAssigned (s : State) (n h rd : Nat) (rs1 : Dword) (tag : Nat) : State :=
  { s.reach (hartEng h / 256) (pushEng rs1 / 256) with
      tags := tput s.tags tag { ctx := n, hart := h, recorded := false }, free := s.free + 1 }.setHart h
    { wrX (s.hart h) rd (BitVec.ofNat 64 tag) with blocked := none }

section AtOnce

variable {s : State} {n h : Nat} (rd : Nat) (rs1 : Dword)

theorem tagAssigned_hart (tag : Nat) :
    (tagAssigned s n h rd rs1 tag).hart h =
      { s.hart h with x := (wrX (s.hart h) rd (BitVec.ofNat 64 tag)).x, blocked := none } := by
  rw [tagAssigned, State.setHart_same, wrX_frame]

theorem tagAssigned_keeps (tag : Nat) :
    (tagAssigned s n h rd rs1 tag).queues = s.queues ∧ stamp (tagAssigned s n h rd rs1 tag) = stamp s := by
  obtain ⟨r, u, m, reached⟩ := reach_spec s (hartEng h / 256) (pushEng rs1 / 256)
  rw [tagAssigned, reached]
  exact ⟨rfl, rfl⟩

/-- A push that R43 ends takes a tag that was free, and its operation completes with the status. -/
theorem acceptPush_completes {status : Nat} (hst : status ≠ 0) (desc : List Byte)
    (hf : ∃ i, i < 1024 ∧ tfind s.tags (tagDie h (pushEng rs1) * 1024 + i) = none) :
    ∃ tag, tfind s.tags tag = none ∧ acceptPush s n h rd rs1.toNat desc status =
      settle (tagAssigned s n h rd rs1 tag, [.complete (newOp s n h (pushEng rs1) (pushQueue rs1) tag desc) status]) := by
  obtain ⟨r, u, m, reached⟩ := reach_spec s (hartEng h / 256) (pushEng rs1 / 256)
  obtain ⟨-, unused, -⟩ :=
    takeTag_spec (s.reach (hartEng h / 256) (pushEng rs1 / 256)) n h (tagDie h (pushEng rs1)) (by simpa using hf)
  refine ⟨_, by simpa using unused, ?_⟩
  simp only [acceptPush, if_neg hst, tagAssigned, pushEng, pushQueue, takeTag] at reached ⊢
  rw [reached]
  rfl

theorem acceptPush_endsAtOnce {status : Nat} (hst : status ≠ 0) {desc : List Byte} (hsig : bit (fieldLE desc 0 8) 31 = false)
    (hf : ∃ i, i < 1024 ∧ tfind s.tags (tagDie h (pushEng rs1) * 1024 + i) = none) :
    EndedAtOnce s (acceptPush s n h rd rs1.toNat desc status) n h rd rs1 desc status := by
  obtain ⟨tag, unused, accepted⟩ := acceptPush_completes (s := s) (n := n) rd rs1 hst desc hf
  obtain ⟨queuesKept, stampKept⟩ := tagAssigned_keeps (s := s) (n := n) (h := h) rd rs1 tag
  have assigned := tagAssigned_hart (s := s) (n := n) (h := h) rd rs1 tag
  have unsignalled : bit (newOp s n h (pushEng rs1) (pushQueue rs1) tag desc).hdr.toNat 31 = false :=
    (bit31_stampHeader _ _ _).trans hsig
  have written : acceptPush s n h rd rs1.toNat desc status =
      writeRecord (tagAssigned s n h rd rs1 tag) (newOp s n h (pushEng rs1) (pushQueue rs1) tag desc) status 0 :=
    accepted.trans (settle_complete_unsignalled unsignalled hst)
  obtain ⟨queues, hart, record⟩ := writeRecord_spec (s := tagAssigned s n h rd rs1 tag)
    (op := newOp s n h (pushEng rs1) (pushQueue rs1) tag desc) (congrArg Hart.blocked assigned) status 0
  rw [show (newOp s n h (pushEng rs1) (pushQueue rs1) tag desc).hart = h from rfl, assigned] at hart record
  rw [written]
  refine ⟨tag, unused, queues.trans queuesKept, congrArg Hart.ring hart, congrArg Hart.tail hart, by rw [hart], ?_⟩
  rw [stampKept, Nat.zero_add] at record
  exact record

end AtOnce

/-! ### The statement -/

/-- Settles O2: a word by its decoding, each command by what it answers where its hart can issue, and the pushes by the three ends of a
push: it reaches its queue, it finds no room, or it completes at once with a record. -/
theorem stagingAndPushes : Obligations.StagingAndPushes := by
  refine ⟨fun s h n w hi => ?words, fun s h n rd rs1 imm hi => ?staging, fun s h n rd rs1 rs2 desc ready => ?ready,
    fun s h n rd rs1 rs2 hi full => ?noRoom, fun s h n rd rs1 hi hst room tag hsig => ?atOnce⟩
  case words =>
    exact ⟨fun hw hf => issueWord_illegal hi (decodeHart_custom0_illegal _ hw hf),
      fun hw hf => issueWord_illegal hi (decodeHart_custom1_illegal _ hw hf),
      fun hw h3 => issueWord_cmd (decodeHart_zstg _ hw h3),
      fun hw h3 h7 => issueWord_cmd (decodeHart_zpush _ hw h3 h7),
      fun hw h3 h7 => issueWord_cmd (decodeHart_ztpush _ hw h3 h7),
      fun hw h3 h7 => issueWord_cmd (decodeHart_zpushm _ hw h3 h7)⟩
  case staging =>
    rw [exec_zstg rd rs1 hi]
    refine ⟨fun ok => ?_, fun bad => ?_⟩
    · obtain ⟨rfl, hm⟩ := ok
      rw [if_neg (by omega)]
    · rw [if_pos bad.symm]; rfl
  case ready =>
    refine ⟨fun hi => ⟨_, exec_zpush rd rs1 hi, pushBlocking_ready rd rs1 hi.2 ready _⟩, fun hi => ?_, fun hi ha hl => ?_,
      fun hc hb hs => ⟨_, exec_pushUnblock rd rs1 hb hs, pushBlocking_ready rd rs1 hc ready desc⟩⟩
    · refine ⟨_, exec_ztpush rd rs1 hi, ?_⟩
      rw [if_pos (pushRoom_of_ready rs1 ready)]
      exact acceptPush_ready rd rs1 ready _
    · refine ⟨_, exec_zpushm rd rs1 hi rs2, ?_⟩
      rw [if_neg (by omega)]
      exact pushBlocking_ready rd rs1 hi.2 ready _
  case noRoom =>
    rw [exec_zpush rd rs1 hi, exec_ztpush rd rs1 hi, exec_zpushm rd rs1 hi rs2, pushBlocking_noRoom rd rs1 hi.2 _ full,
      pushBlocking_noRoom rd rs1 hi.2 _ full, full]
    refine ⟨rfl, rfl, fun ok => ?_, fun bad => ?_⟩
    · rw [if_neg (by omega)]
    · rw [if_pos bad]; rfl
  case atOnce =>
    refine ⟨_, exec_zpush rd rs1 hi, ?_⟩
    rw [pushBlocking_room rd rs1 hi.2 _ room]
    exact acceptPush_endsAtOnce rd rs1 hst hsig tag

end Sys2Proof.Machine

/-! ## Parameter writes and mask moves of the vector unit (06, R192, R196, R199) -/

namespace Sys2Proof.Machine

open Sys2Proof

/-! ### What a word that is done and a word that faults leave -/

section HeadWords

variable {s : State} {b w : Nat}

/-- A word that is done has left the queue and is counted; beside its bay only the counters and their OVF bits differ (R204, R207). -/
theorem vecDone_spec (s : State) (b cycles : Nat) :
    ∃ c r, vecDone s b cycles =
      { s.setVec b { s.vec b with q := (s.vec b).q.drop 1, words := (s.vec b).words + 1 } with cnts := c, regs := r } := by
  obtain ⟨c, r, words, -⟩ := bump_spec
    (s.setVec b { s.vec b with q := (s.vec b).q.drop 1, words := (s.vec b).words + 1 }) (vecPage b) 0 1
  rw [vecDone, words]
  obtain ⟨c', r', all, -⟩ := bump_spec
    { s.setVec b { s.vec b with q := (s.vec b).q.drop 1, words := (s.vec b).words + 1 } with cnts := c, regs := r } (vecPage b) 2 cycles
  exact ⟨c', r', all⟩

@[simp] theorem vecDone_vec (s : State) (b cycles : Nat) :
    (vecDone s b cycles).vec b = { s.vec b with q := (s.vec b).q.drop 1, words := (s.vec b).words + 1 } := by
  obtain ⟨c, r, h⟩ := vecDone_spec s b cycles
  rw [h]
  exact State.setVec_same s b _

@[simp] theorem vecDone_fields (s : State) (b cycles : Nat) :
    (vecDone s b cycles).mem = s.mem ∧ (vecDone s b cycles).harts = s.harts ∧ (vecDone s b cycles).queues = s.queues ∧
    (vecDone s b cycles).flags = s.flags ∧ (vecDone s b cycles).pans = s.pans := by
  obtain ⟨c, r, h⟩ := vecDone_spec s b cycles
  rw [h]
  exact ⟨rfl, rfl, rfl, rfl, rfl⟩

/-- A word that has changed its vector unit only, and neither the queue nor the count nor the stop, has executed. -/
theorem wordDone_vecDone {v : Vec} (cycles : Nat) (hq : v.q = (s.vec b).q) (hw : v.words = (s.vec b).words)
    (hs : v.stop = (s.vec b).stop) : WordDone s (vecDone (s.setVec b v) b cycles) b := by
  simp [WordDone, hq, hw, hs]

@[simp] theorem vecFault_vec (s : State) (b code : Nat) (lane : Option Nat) :
    (vecFault s b code lane).vec b =
      { s.vec b with
        stop := BitVec.ofNat 16 code, q := discardBlock (s.vec b).q, stq := none
        fault := (s.vec b).fault.or (some { code := BitVec.ofNat 16 code, word := (s.vec b).words, lane := lane }) } :=
  State.setVec_same s b _

theorem wordFaults_vecFault (s : State) (b code : Nat) (lane : Option Nat) :
    WordFaults s (vecFault s b code lane) b code := by
  rw [WordFaults, vecFault_vec]
  exact ⟨rfl, rfl, rfl, rfl, rfl, rfl, rfl, rfl⟩

/-- What a row that fits the head word answers. -/
theorem vecRow_head (hh : vecHead s b = some w) {p : Nat → Bool} (hp : p (wOpc w) = true) (cycles : Nat → Nat)
    (f : State → Nat → VRes) :
    (∀ t, f s w = .done t → vecRow b p cycles f s = .next (vecDone t b (cycles w))) ∧
    (∀ t code lane, f s w = .fault t code lane → vecRow b p cycles f s = .next (vecFault t b code lane)) := by
  constructor
  · intro t hf
    simp only [vecRow, hh, hp, hf, if_true]
  · intro t code lane hf
    simp only [vecRow, hh, hp, hf, if_true]

/-- A row of the vector unit alone executes its word where it gives the unit a new content (R176). -/
theorem aluRow_some (hh : vecHead s b = some w) {opc : Nat} (ho : wOpc w = opc) (cycles : Nat → Nat) {f : Vec → Nat → Option Vec}
    {v : Vec} (hf : f (s.vec b) w = some v) : aluRow b opc cycles f s = .next (vecDone (s.setVec b v) b (cycles w)) :=
  (vecRow_head hh (by simp [ho]) cycles _).1 _ (by simp only [hf])

/-- A row of the vector unit alone raises VEC_ILLEGAL where it gives none (R173). -/
theorem aluRow_none (hh : vecHead s b = some w) {opc : Nat} (ho : wOpc w = opc) (cycles : Nat → Nat) {f : Vec → Nat → Option Vec}
    (hf : f (s.vec b) w = none) : aluRow b opc cycles f s = .next (vecFault s b 0x4001 none) :=
  (vecRow_head hh (by simp [ho]) cycles _).2 _ _ _ (by simp only [hf, vIllegal])

end HeadWords

/-! ### VSETP (R199) -/

section ParameterWrites

variable {s : State} {b w : Nat}

/-- The parameter sets once `w`, a VSETP, has written its field. -/
def paramWritten (v : Vec) (w : Nat) : Vec :=
  { v with params := tset 0 v.params (wSlotX w * 32 + wField w) (BitVec.ofNat 32 (wImm w)) }

theorem exec_vsetp (hh : vecHead s b = some w) (ho : wOpc w = 0x06) (hx : formX w = true) (hset : wSlotX w ≤ 1)
    (hf : wField w ≤ 8) : exec (.vsetp b) s = .next (vecDone (s.setVec b (paramWritten (s.vec b) w)) b 1) := by
  show execVsetp b s = _
  exact aluRow_some hh ho (cyc 1) (by simp [hx, hset, hf, paramWritten])

theorem exec_vsetp_reservedField (hh : vecHead s b = some w) (ho : wOpc w = 0x06) (hf : 9 ≤ wField w) :
    exec (.vsetp b) s = .next (vecFault s b 0x4001 none) := by
  show execVsetp b s = _
  have reserved : ¬ wField w ≤ 8 := by omega
  exact aluRow_none hh ho (cyc 1) (by simp [reserved])

end ParameterWrites

/-- Settles O24: fields 0 to 8 by the table of parameters after its write, fields 9 to 31 by the fault. -/
theorem parameterWrites : Obligations.ParameterWrites := by
  intro s b w hh ho hx hset
  refine ⟨fun hf => ⟨_, exec_vsetp hh ho hx hset hf, wordDone_vecDone 1 rfl rfl rfl, ?_⟩,
    fun hf => ⟨_, exec_vsetp_reservedField hh ho hf, wordFaults_vecFault s b 0x4001 none, ?_⟩⟩
  · rw [vecDone_vec, State.setVec_same]
    exact ⟨rfl, rfl, tget_tset_same _ _ _ _, fun j hj => tget_tset_other _ _ _ _ hj⟩
  · rw [vecFault_vec]

/-! ### Masks as bytes (R196) -/

/-- A bit of the number that consecutive bytes spell is a bit of one of them. -/
theorem testBit_ofLE_rdBytes (m : List Host.Cell) {n l : Nat} (a : Nat) (hl : l < 8 * n) :
    (ofLE (rdBytes m a n)).testBit l = bit (rdByte m (a + l / 8)).toNat (l % 8) := by
  induction n generalizing a l with
  | zero => omega
  | succ n ih =>
    have parts := Nat.testBit_two_pow_mul_add (ofLE (rdBytes m (a + 1) n)) (rdByte m a).isLt l
    rw [rdBytes, ofLE, Nat.add_comm, show (256 : Nat) = 2 ^ 8 from rfl, parts]
    split
    · next first => rw [Nat.div_eq_of_lt first, Nat.mod_eq_of_lt first, bit_eq_testBit, Nat.add_zero]
    · next later => rw [ih (a + 1) (by omega), show a + 1 + (l - 8) / 8 = a + l / 8 by omega, show (l - 8) % 8 = l % 8 by omega]

theorem getElem_toLE {n i : Nat} (v : Nat) (hi : i < (toLE n v).length) : (toLE n v)[i] = BitVec.ofNat 8 (v / 2 ^ (8 * i)) := by
  induction n generalizing v i with
  | zero => simp [toLE] at hi
  | succ n ih =>
    cases i with
    | zero => simp [toLE]
    | succ i =>
      simp only [toLE, List.getElem_cons_succ]
      rw [ih, Nat.div_div_eq_div_mul, show 8 * (i + 1) = 8 + 8 * i by omega, Nat.pow_add]

/-- Bit l of a number written as bytes stands in bit l mod 8 of byte l div 8. -/
theorem bit_rdByte_wrBytes_toLE (m : List Host.Cell) (a v : Nat) {n l : Nat} (hl : l < 8 * n) :
    bit (rdByte (wrBytes m a (toLE n v)) (a + l / 8)).toNat (l % 8) = v.testBit l := by
  have inside : l / 8 < (toLE n v).length := by rw [toLE_length]; omega
  have low : l % 8 < 8 := Nat.mod_lt l (by omega)
  rw [rdByte_wrBytes_in _ m a _ inside, getElem_toLE, bit_eq_testBit, BitVec.toNat_ofNat, Nat.testBit_mod_two_pow,
    Nat.testBit_div_two_pow, Nat.mod_add_div]
  simp [low]

theorem bayAddr_add (b off i : Nat) : bayAddr b (off + i) = bayAddr b off + i := by
  simp only [bayAddr]
  omega

theorem kreg_setKreg_same (v : Vec) {i : Nat} (m : BitVec 1024) (hi : i ≠ 0) : kreg (setKreg v i m) i = m := by
  rw [kreg, if_neg hi]
  exact tget_tset_same _ _ _ _

theorem kreg_setKreg_other (v : Vec) {i r : Nat} (m : BitVec 1024) (hr : r ≠ i) : kreg (setKreg v i m) r = kreg v r := by
  unfold kreg
  split
  · rfl
  · exact tget_tset_other _ _ _ _ hr

/-- A word that writes a mask register other than k0 writes no other register (R176). -/
theorem writesMask_setKreg {s : State} {b i : Nat} {m : BitVec 1024} {f : Nat → Bool} (cycles : Nat) (hi : i ≠ 0)
    (hf : ∀ l, l < 1024 → m.getLsbD l = f l) : WritesMask s (vecDone (s.setVec b (setKreg (s.vec b) i m)) b cycles) b i f := by
  refine ⟨wordDone_vecDone cycles rfl rfl rfl, ?_⟩
  rw [vecDone_vec, State.setVec_same]
  refine ⟨fun l hl => ?_, fun r hr => kreg_setKreg_other (s.vec b) m hr, rfl, rfl, rfl⟩
  rw [← hf l hl]
  exact congrArg (·.getLsbD l) (kreg_setKreg_same (s.vec b) m hi)

/-- A write into a guarded granule marks the pan of its bay, and nothing else differs (R230). -/
theorem guardWrite_spec (s : State) (b off n : Nat) : guardWrite s b off n = { s with pans := (guardWrite s b off n).pans } := by
  unfold guardWrite
  split
  · rfl
  · dsimp only
    split <;> rfl

@[simp] theorem guardWrite_vec (s : State) (b off n i : Nat) : (guardWrite s b off n).vec i = s.vec i := by
  rw [guardWrite_spec]
  rfl

/-! ### VMLD and VMST (R192, R196) -/

section MaskMoves

variable {s : State} {b w : Nat}

/-- The mask that `w`, a VMLD, loads from the slice. -/
def maskInSlice (s : State) (b w : Nat) : BitVec 1024 := BitVec.ofNat 1024 (s.rawLE (bayAddr b (maskAt (s.vec b) w)) 128)

theorem getLsbD_maskInSlice (s : State) (b w : Nat) {l : Nat} (hl : l < 1024) :
    (maskInSlice s b w).getLsbD l = bit (rdByte s.mem (bayAddr b (maskAt (s.vec b) w + l / 8))).toNat (l % 8) := by
  rw [maskInSlice, BitVec.getLsbD_ofNat, decide_eq_true hl, Bool.true_and, bayAddr_add]
  exact testBit_ofLE_rdBytes s.mem _ hl

/-- `s` once `w`, a VMST, has stored its mask register into the slice. -/
def maskStored (s : State) (b w : Nat) : State :=
  guardWrite (s.setRaw (bayAddr b (maskAt (s.vec b) w)) (toLE 128 (kreg (s.vec b) (bits w 8 3)).toNat)) b (maskAt (s.vec b) w) 128

/-- A legal mask move does its work where its slot passes R192 and its 128 bytes lie in the slice; otherwise it stops its block (R196). -/
def maskMove (s : State) (b w : Nat) (moved : State) : State :=
  if slotPlace (slotOf (s.vec b) (wSlotM w)) = false then vecFault s b 0x4003 none
  else if sliceBytes < maskAt (s.vec b) w + 128 then vecFault s b 0x4002 none
  else vecDone moved b 1

/-- A row whose meaning of the head word is the chain of checks of a mask move answers that move (R192, R196). -/
theorem vecRow_maskMove (hh : vecHead s b = some w) {opc : Nat} (ho : wOpc w = opc) {f : State → Nat → VRes} {moved : State}
    (hf : f s w = if !slotPlace (slotOf (s.vec b) (wSlotM w)) then vBadSlot s
      else if sliceBytes < maskAt (s.vec b) w + 128 then vAddr s none else .done moved) :
    vecRow b (fun o => o == opc) (cyc 1) f s = .next (maskMove s b w moved) := by
  obtain ⟨done, fault⟩ := vecRow_head hh (p := fun o => o == opc) (by simp [ho]) (cyc 1) f
  unfold maskMove
  split
  · next bad => exact fault _ _ _ (by rw [hf, bad]; rfl)
  · next good =>
    rw [Bool.not_eq_false] at good
    split
    · next beyond => exact fault _ _ _ (by rw [hf, good, if_pos beyond]; rfl)
    · next inside => exact done _ (by rw [hf, good, if_neg inside]; rfl)

theorem exec_vmld (hh : vecHead s b = some w) (hm : formM w true = true) (ho : wOpc w = 0xA4) (hk : bits w 8 3 ≠ 0) :
    exec (.vmld b) s = .next (maskMove s b w (s.setVec b (setKreg (s.vec b) (bits w 8 3) (maskInSlice s b w)))) := by
  show execVmld b s = _
  exact vecRow_maskMove hh ho (if_neg (by simp [hm, hk]))

theorem exec_vmst (hh : vecHead s b = some w) (hm : formM w true = true) (ho : wOpc w = 0xA5) :
    exec (.vmst b) s = .next (maskMove s b w (maskStored s b w)) := by
  show execVmst b s = _
  exact vecRow_maskMove hh ho (if_neg (by simp [hm]))

theorem maskMove_ok (hp : slotPlace (slotOf (s.vec b) (wSlotM w)) = true) (ha : maskAt (s.vec b) w + 128 ≤ sliceBytes)
    (moved : State) : maskMove s b w moved = vecDone moved b 1 := by
  rw [maskMove, if_neg (by simp [hp]), if_neg (Nat.not_lt.mpr ha)]

theorem maskMove_beyond (hp : slotPlace (slotOf (s.vec b) (wSlotM w)) = true) (ha : sliceBytes < maskAt (s.vec b) w + 128)
    (moved : State) : WordFaults s (maskMove s b w moved) b 0x4002 := by
  rw [maskMove, if_neg (by simp [hp]), if_pos ha]
  exact wordFaults_vecFault s b 0x4002 none

theorem maskMove_badSlot (hp : ¬ slotPlace (slotOf (s.vec b) (wSlotM w)) = true) (moved : State) :
    WordFaults s (maskMove s b w moved) b 0x4003 := by
  rw [maskMove, if_pos (by simpa using hp)]
  exact wordFaults_vecFault s b 0x4003 none

@[simp] theorem maskStored_vec (s : State) (b w i : Nat) : (maskStored s b w).vec i = s.vec i :=
  guardWrite_vec _ b _ 128 i

theorem maskStored_mem (s : State) (b w : Nat) :
    (maskStored s b w).mem =
      wrBytes s.mem (bayAddr b (maskAt (s.vec b) w)) (toLE 128 (kreg (s.vec b) (bits w 8 3)).toNat) :=
  guardWrite_mem _ _ _ _

end MaskMoves

/-- Settles O25: both words pass the same checks; VMLD reads the mask's bits from the slice, VMST writes them there and no byte beside. -/
theorem maskMoves : Obligations.MaskMoves := by
  intro s b w hh hm
  refine ⟨fun ho hk => ?load, fun ho => ?store⟩
  case load =>
    have answers := exec_vmld hh hm ho hk
    refine ⟨fun hp ha => ⟨_, answers, ?_⟩, fun hp ha => ⟨_, answers, maskMove_beyond hp ha _⟩,
      fun hp => ⟨_, answers, maskMove_badSlot hp _⟩⟩
    rw [maskMove_ok hp ha]
    exact writesMask_setKreg 1 hk fun l hl => getLsbD_maskInSlice s b w hl
  case store =>
    have answers := exec_vmst hh hm ho
    refine ⟨fun hp ha => ⟨_, answers, ?_⟩, fun hp ha => ⟨_, answers, maskMove_beyond hp ha _⟩,
      fun hp => ⟨_, answers, maskMove_badSlot hp _⟩⟩
    obtain ⟨mem, -⟩ := vecDone_fields (maskStored s b w) b 1
    rw [maskMove_ok hp ha, vecDone_vec, mem, maskStored_vec, maskStored_mem]
    refine ⟨rfl, rfl, rfl, fun l hl => ?_, fun a outside => ?_⟩
    · rw [bayAddr_add]
      exact bit_rdByte_wrBytes_toLE s.mem _ _ hl
    · exact rdByte_wrBytes_other _ s.mem _ a (by rwa [toLE_length])

end Sys2Proof.Machine
